-- ==== Sys2Proof/Word.lean ====
section
/-! DEFINITION. The word types of the machine (00 R3): a byte, a 32-bit word (a vector lane, an
instruction), a 64-bit word (a front-end register), a 128-byte line of the L2 (01 R16). -/
namespace Sys2Proof

/-- One byte of either address space. -/
abbrev Byte := BitVec 8
/-- A vector lane, an instruction word, a program counter (an offset in the kernel image). -/
abbrev Word := BitVec 32
/-- A front-end register or a system register. -/
abbrev DWord := BitVec 64
/-- A 128-byte L2 line, byte 0 in the low bits. -/
abbrev Line := BitVec 1024

end Sys2Proof
end

