-- ==== Sys2Proof/Syntax.lean ====
section
/-! DEFINITION. The abstract syntax: one constructor for each row of spec/opcode_table.json (03 R74, 95).
The fields of an encoded instruction are the fields of its row, raw; reserved bits are not kept (03 R75).
A row without an encoding is a whole and indivisible step of the device (95): its constructor carries what
the outside world or the scheduler of events supplies. -/
namespace Sys2Proof

/-- The instructions of opcodes 0x01 to 0xF3, the words that are no instruction, and the steps of the device. -/
inductive Instr where
  /-- SADD (R200). Front-end 64-bit or 32-bit (W) wrapping add of two scalar registers. -/
  | sadd (d : BitVec 6) (a : BitVec 6) (b : BitVec 6) (w : BitVec 1)
  /-- SSUB (R200). Front-end wrapping subtract of two scalar registers. -/
  | ssub (d : BitVec 6) (a : BitVec 6) (b : BitVec 6) (w : BitVec 1)
  /-- SMUL (R200). Front-end wrapping multiply, low bits of the product. -/
  | smul (d : BitVec 6) (a : BitVec 6) (b : BitVec 6) (w : BitVec 1)
  /-- SMULH (R200). Front-end high half of the signed or unsigned product. -/
  | smulh (d : BitVec 6) (a : BitVec 6) (b : BitVec 6) (w : BitVec 1) (u : BitVec 1)
  /-- SAND (R200). Front-end bitwise AND. -/
  | sand (d : BitVec 6) (a : BitVec 6) (b : BitVec 6) (w : BitVec 1)
  /-- SOR (R200). Front-end bitwise OR. -/
  | sor (d : BitVec 6) (a : BitVec 6) (b : BitVec 6) (w : BitVec 1)
  /-- SXOR (R200). Front-end bitwise XOR. -/
  | sxor (d : BitVec 6) (a : BitVec 6) (b : BitVec 6) (w : BitVec 1)
  /-- SSHL (R200). Front-end left shift by register plus imm5. -/
  | sshl (d : BitVec 6) (a : BitVec 6) (b : BitVec 6) (w : BitVec 1) (i : BitVec 5)
  /-- SSHR (R200). Front-end logical right shift by register plus imm5. -/
  | sshr (d : BitVec 6) (a : BitVec 6) (b : BitVec 6) (w : BitVec 1) (i : BitVec 5)
  /-- SSAR (R200). Front-end arithmetic right shift by register plus imm5. -/
  | ssar (d : BitVec 6) (a : BitVec 6) (b : BitVec 6) (w : BitVec 1) (i : BitVec 5)
  /-- SMIN (R200). Front-end signed or unsigned minimum. -/
  | smin (d : BitVec 6) (a : BitVec 6) (b : BitVec 6) (w : BitVec 1) (u : BitVec 1)
  /-- SMAX (R200). Front-end signed or unsigned maximum. -/
  | smax (d : BitVec 6) (a : BitVec 6) (b : BitVec 6) (w : BitVec 1) (u : BitVec 1)
  /-- SCMP (R200). Front-end compare writing a front-end predicate. -/
  | scmp (p : BitVec 3) (a : BitVec 6) (b : BitVec 6) (w : BitVec 1) (c : BitVec 4)
  /-- SSEL (R200). Front-end select of sa or sb by a front-end predicate. -/
  | ssel (d : BitVec 6) (a : BitVec 6) (b : BitVec 6) (p : BitVec 3)
  /-- SCLZ (R200). Front-end count of leading zeros. -/
  | sclz (d : BitVec 6) (a : BitVec 6) (w : BitVec 1)
  /-- SPOP (R200). Front-end population count. -/
  | spop (d : BitVec 6) (a : BitVec 6) (w : BitVec 1)
  /-- SADDI (R201). Front-end add of a sign-extended immediate to a scalar register. -/
  | saddi (d : BitVec 6) (i : BitVec 18)
  /-- SLI (R201). Front-end load of a sign-extended immediate. -/
  | sli (d : BitVec 6) (i : BitVec 18)
  /-- SLIH (R201). Front-end load of an immediate into the high 32 bits. -/
  | slih (d : BitVec 6) (i : BitVec 18)
  /-- SLDP (R202). Front-end pool load, ignoring full-empty bits. -/
  | sldp (d : BitVec 6) (a : BitVec 6) (w : BitVec 2) (s : BitVec 1)
  /-- SSTP (R202). Front-end pool store, leaving full-empty bits unchanged. -/
  | sstp (a : BitVec 6) (b : BitVec 6) (w : BitVec 2)
  /-- SJ (R203). Front-end unconditional jump. -/
  | sj (o : BitVec 18)
  /-- SBZ (R203). Front-end jump when a scalar register is zero. -/
  | sbz (a : BitVec 6) (o : BitVec 18)
  /-- SBNZ (R203). Front-end jump when a scalar register is non-zero. -/
  | sbnz (a : BitVec 6) (o : BitVec 18)
  /-- SCALL (R203). Front-end call, pushing the return address. -/
  | scall (o : BitVec 18)
  /-- SRET (R203). Front-end return, popping the return stack. -/
  | sret
  /-- STIME (R204). Front-end read of the global time-stamp counter. -/
  | stime (d : BitVec 6)
  /-- SMFSY (R106). Front-end read of a system register. -/
  | smfsy (d : BitVec 6) (n : BitVec 18)
  /-- SMTSY (R106). Front-end write of a system register. -/
  | smtsy (a : BitVec 6) (n : BitVec 18)
  /-- SEXIT (R206). Ends the front-end and leaves its barriers. -/
  | sexit
  /-- DQPUSH (R176). Pushes an entry onto the decision queue, with success predicate. -/
  | dqpush (p : BitVec 3) (a : BitVec 6)
  /-- SWAIT (R205). Front-end wait for completion flags and optionally all pool accesses. -/
  | swait (m : BitVec 18)
  /-- VADD (R208). Vector wrapping or saturating add. -/
  | vadd (g : BitVec 3) (d : BitVec 7) (a : BitVec 7) (b : BitVec 7)
  /-- VSUB (R208). Vector wrapping or saturating subtract. -/
  | vsub (g : BitVec 3) (d : BitVec 7) (a : BitVec 7) (b : BitVec 7)
  /-- VMUL (R208). Vector low-half multiply. -/
  | vmul (g : BitVec 3) (d : BitVec 7) (a : BitVec 7) (b : BitVec 7)
  /-- VMULH_I (R208). Vector high half of the signed product. -/
  | vmulhI (g : BitVec 3) (d : BitVec 7) (a : BitVec 7) (b : BitVec 7)
  /-- VMULH_N (R208). Vector high half of the unsigned product. -/
  | vmulhN (g : BitVec 3) (d : BitVec 7) (a : BitVec 7) (b : BitVec 7)
  /-- VMAD (R208). Vector multiply-add into vd. -/
  | vmad (g : BitVec 3) (d : BitVec 7) (a : BitVec 7) (b : BitVec 7)
  /-- VAND (R208). Vector bitwise AND. -/
  | vand (g : BitVec 3) (d : BitVec 7) (a : BitVec 7) (b : BitVec 7)
  /-- VOR (R208). Vector bitwise OR. -/
  | vor (g : BitVec 3) (d : BitVec 7) (a : BitVec 7) (b : BitVec 7)
  /-- VXOR (R208). Vector bitwise XOR. -/
  | vxor (g : BitVec 3) (d : BitVec 7) (a : BitVec 7) (b : BitVec 7)
  /-- VANDN (R208). Vector a AND NOT b. -/
  | vandn (g : BitVec 3) (d : BitVec 7) (a : BitVec 7) (b : BitVec 7)
  /-- VSHL (R209). Vector left shift. -/
  | vshl (g : BitVec 3) (d : BitVec 7) (a : BitVec 7) (b : BitVec 7)
  /-- VSHR (R209). Vector logical right shift. -/
  | vshr (g : BitVec 3) (d : BitVec 7) (a : BitVec 7) (b : BitVec 7)
  /-- VSAR (R209). Vector arithmetic right shift. -/
  | vsar (g : BitVec 3) (d : BitVec 7) (a : BitVec 7) (b : BitVec 7)
  /-- VMIN_I (R208). Vector signed minimum. -/
  | vminI (g : BitVec 3) (d : BitVec 7) (a : BitVec 7) (b : BitVec 7)
  /-- VMIN_N (R208). Vector unsigned minimum. -/
  | vminN (g : BitVec 3) (d : BitVec 7) (a : BitVec 7) (b : BitVec 7)
  /-- VMAX_I (R208). Vector signed maximum. -/
  | vmaxI (g : BitVec 3) (d : BitVec 7) (a : BitVec 7) (b : BitVec 7)
  /-- VMAX_N (R208). Vector unsigned maximum. -/
  | vmaxN (g : BitVec 3) (d : BitVec 7) (a : BitVec 7) (b : BitVec 7)
  /-- VABS (R208). Vector absolute value. -/
  | vabs (g : BitVec 3) (d : BitVec 7) (a : BitVec 7)
  /-- VCLZ (R208). Vector count of leading zeros. -/
  | vclz (g : BitVec 3) (d : BitVec 7) (a : BitVec 7)
  /-- VPOP (R208). Vector population count. -/
  | vpop (g : BitVec 3) (d : BitVec 7) (a : BitVec 7)
  /-- VBREV (R208). Vector bit reversal. -/
  | vbrev (g : BitVec 3) (d : BitVec 7) (a : BitVec 7)
  /-- VBFE (R210). Vector bit-field extract. -/
  | vbfe (g : BitVec 3) (d : BitVec 7) (a : BitVec 7) (b : BitVec 7)
  /-- VBFI (R210). Vector bit-field insert into vd. -/
  | vbfi (g : BitVec 3) (d : BitVec 7) (a : BitVec 7) (b : BitVec 7)
  /-- VADDI (R211). Vector add of an immediate. -/
  | vaddi (g : BitVec 3) (d : BitVec 7) (a : BitVec 7) (i : BitVec 7)
  /-- VLI (R211). Vector load of an immediate as a uniform result. -/
  | vli (g : BitVec 3) (d : BitVec 7) (i : BitVec 14)
  /-- VMOV (R208). Vector register move keeping the operand's shape. -/
  | vmov (g : BitVec 3) (d : BitVec 7) (a : BitVec 7)
  /-- VCMP (R212). Vector integer compare writing a predicate. -/
  | vcmp (g : BitVec 3) (p : BitVec 3) (c : BitVec 4) (a : BitVec 7) (b : BitVec 7)
  /-- VSEL (R213). Per-lane select of va or vb by a predicate. -/
  | vsel (s : BitVec 3) (d : BitVec 7) (a : BitVec 7) (b : BitVec 7)
  /-- VLANE (R214). Writes the affine lane index. -/
  | vlane (g : BitVec 3) (d : BitVec 7)
  /-- VSHFL_IDX (R215). Shuffle from an indexed lane. -/
  | vshflIdx (g : BitVec 3) (d : BitVec 7) (a : BitVec 7) (b : BitVec 7)
  /-- VSHFL_UP (R215). Shuffle from a lower lane. -/
  | vshflUp (g : BitVec 3) (d : BitVec 7) (a : BitVec 7) (b : BitVec 7)
  /-- VSHFL_DOWN (R215). Shuffle from a higher lane. -/
  | vshflDown (g : BitVec 3) (d : BitVec 7) (a : BitVec 7) (b : BitVec 7)
  /-- VSHFL_XOR (R215). Shuffle from the lane i XOR c. -/
  | vshflXor (g : BitVec 3) (d : BitVec 7) (a : BitVec 7) (b : BitVec 7)
  /-- VBALLOT (R216). Writes a uniform mask of active lanes where a predicate is true. -/
  | vballot (g : BitVec 3) (d : BitVec 7) (p : BitVec 3)
  /-- VVOTE (R216). Writes one vote result of a predicate to every active lane. -/
  | vvote (g : BitVec 3) (p : BitVec 3) (f : BitVec 4) (a : BitVec 3)
  /-- VREDADD (R217). Integer sum reduction over active lanes to a uniform result. -/
  | vredadd (g : BitVec 3) (d : BitVec 7) (a : BitVec 7)
  /-- VREDMIN (R217). Integer minimum reduction over active lanes. -/
  | vredmin (g : BitVec 3) (d : BitVec 7) (a : BitVec 7) (u : BitVec 1)
  /-- VREDMAX (R217). Integer maximum reduction over active lanes. -/
  | vredmax (g : BitVec 3) (d : BitVec 7) (a : BitVec 7) (u : BitVec 1)
  /-- VSCAN (R218). Inclusive or exclusive prefix scan over active lanes. -/
  | vscan (g : BitVec 3) (d : BitVec 7) (a : BitVec 7) (u : BitVec 1) (x : BitVec 1) (o : BitVec 2)
  /-- PAND (R219). Predicate AND. -/
  | pand (g : BitVec 3) (p : BitVec 3) (a : BitVec 3) (b : BitVec 3)
  /-- POR (R219). Predicate OR. -/
  | por (g : BitVec 3) (p : BitVec 3) (a : BitVec 3) (b : BitVec 3)
  /-- PXOR (R219). Predicate XOR. -/
  | pxor (g : BitVec 3) (p : BitVec 3) (a : BitVec 3) (b : BitVec 3)
  /-- PNOT (R219). Predicate NOT. -/
  | pnot (g : BitVec 3) (p : BitVec 3) (a : BitVec 3)
  /-- VMFSY (R107). Group read of a system register half, optionally clearing FP flags. -/
  | vmfsy (g : BitVec 3) (d : BitVec 7) (h : BitVec 1) (c : BitVec 1) (n : BitVec 12)
  /-- VTIME (R214). Group read of the low or high half of the GTS. -/
  | vtime (g : BitVec 3) (d : BitVec 7) (h : BitVec 1)
  /-- FADD (R224). Binary32 add rounded once. -/
  | fadd (g : BitVec 3) (d : BitVec 7) (a : BitVec 7) (b : BitVec 7)
  /-- FSUB (R224). Binary32 subtract rounded once. -/
  | fsub (g : BitVec 3) (d : BitVec 7) (a : BitVec 7) (b : BitVec 7)
  /-- FMUL (R224). Binary32 multiply rounded once. -/
  | fmul (g : BitVec 3) (d : BitVec 7) (a : BitVec 7) (b : BitVec 7)
  /-- FFMA (R225). Fused a×b+c. -/
  | ffma (g : BitVec 3) (d : BitVec 7) (a : BitVec 7) (b : BitVec 7)
  /-- FFMS (R225). Fused a×b−c. -/
  | ffms (g : BitVec 3) (d : BitVec 7) (a : BitVec 7) (b : BitVec 7)
  /-- FNMA (R225). Fused c−a×b. -/
  | fnma (g : BitVec 3) (d : BitVec 7) (a : BitVec 7) (b : BitVec 7)
  /-- FMIN (R226). Binary32 minimumNumber. -/
  | fmin (g : BitVec 3) (d : BitVec 7) (a : BitVec 7) (b : BitVec 7)
  /-- FMAX (R226). Binary32 maximumNumber. -/
  | fmax (g : BitVec 3) (d : BitVec 7) (a : BitVec 7) (b : BitVec 7)
  /-- FABS (R227). Clears the sign bit. -/
  | fabs (g : BitVec 3) (d : BitVec 7) (a : BitVec 7)
  /-- FNEG (R227). Inverts the sign bit. -/
  | fneg (g : BitVec 3) (d : BitVec 7) (a : BitVec 7)
  /-- FCMP (R228). Binary32 compare writing a predicate. -/
  | fcmp (g : BitVec 3) (p : BitVec 3) (c : BitVec 4) (a : BitVec 7) (b : BitVec 7)
  /-- FCLASS (R229). Writes a one-hot class of a binary32 value. -/
  | fclass (g : BitVec 3) (d : BitVec 7) (a : BitVec 7)
  /-- FROUND (R230). Rounds binary32 to an integral value. -/
  | fround (g : BitVec 3) (d : BitVec 7) (a : BitVec 7) (x : BitVec 1)
  /-- CVT (R231). Converts one element between binary32 and an integer, half or FP8 format. -/
  | cvt (g : BitVec 3) (d : BitVec 7) (a : BitVec 7) (o : BitVec 4) (n : BitVec 3)
  /-- CVTX (R233). Scaled conversion between binary32 and a narrow element under a control word. -/
  | cvtx (g : BitVec 3) (d : BitVec 7) (a : BitVec 7) (b : BitVec 7)
  /-- HADD2_F16 (R235). Packed binary16 add. -/
  | hadd2F16 (g : BitVec 3) (d : BitVec 7) (a : BitVec 7) (b : BitVec 7)
  /-- HMUL2_F16 (R235). Packed binary16 multiply. -/
  | hmul2F16 (g : BitVec 3) (d : BitVec 7) (a : BitVec 7) (b : BitVec 7)
  /-- HFMA2_F16 (R235). Packed binary16 fused multiply-add. -/
  | hfma2F16 (g : BitVec 3) (d : BitVec 7) (a : BitVec 7) (b : BitVec 7)
  /-- HADD2_BF16 (R235). Packed bfloat16 add. -/
  | hadd2Bf16 (g : BitVec 3) (d : BitVec 7) (a : BitVec 7) (b : BitVec 7)
  /-- HMUL2_BF16 (R235). Packed bfloat16 multiply. -/
  | hmul2Bf16 (g : BitVec 3) (d : BitVec 7) (a : BitVec 7) (b : BitVec 7)
  /-- HFMA2_BF16 (R235). Packed bfloat16 fused multiply-add. -/
  | hfma2Bf16 (g : BitVec 3) (d : BitVec 7) (a : BitVec 7) (b : BitVec 7)
  /-- DOT4_E4M3 (R236). Exact four-term E4M3 dot product plus addend, rounded once. -/
  | dot4E4m3 (g : BitVec 3) (d : BitVec 7) (a : BitVec 7) (b : BitVec 7)
  /-- DOT4_E5M2 (R236). Exact four-term E5M2 dot product plus addend, rounded once. -/
  | dot4E5m2 (g : BitVec 3) (d : BitVec 7) (a : BitVec 7) (b : BitVec 7)
  /-- DOT2_BF16 (R236). Exact two-term bfloat16 dot product plus addend. -/
  | dot2Bf16 (g : BitVec 3) (d : BitVec 7) (a : BitVec 7) (b : BitVec 7)
  /-- IDP4_I8 (R236). Four-term .i8 integer dot product plus addend, wrapped. -/
  | idp4I8 (g : BitVec 3) (d : BitVec 7) (a : BitVec 7) (b : BitVec 7)
  /-- FRCP (R237). Correctly rounded reciprocal on the special-function unit. -/
  | frcp (g : BitVec 3) (d : BitVec 7) (a : BitVec 7)
  /-- FRSQ (R237). Correctly rounded reciprocal square root. -/
  | frsq (g : BitVec 3) (d : BitVec 7) (a : BitVec 7)
  /-- FSQRT (R237). Correctly rounded square root. -/
  | fsqrt (g : BitVec 3) (d : BitVec 7) (a : BitVec 7)
  /-- FEXP2 (R237). Correctly rounded 2^x. -/
  | fexp2 (g : BitVec 3) (d : BitVec 7) (a : BitVec 7)
  /-- FLOG2 (R237). Correctly rounded log2(x). -/
  | flog2 (g : BitVec 3) (d : BitVec 7) (a : BitVec 7)
  /-- FSINP (R237). Correctly rounded sin(πx). -/
  | fsinp (g : BitVec 3) (d : BitVec 7) (a : BitVec 7)
  /-- FCOSP (R237). Correctly rounded cos(πx). -/
  | fcosp (g : BitVec 3) (d : BitVec 7) (a : BitVec 7)
  /-- TWID (R238). Computes the twiddle pair cos and −sin of 2πk/N. -/
  | twid (g : BitVec 3) (d : BitVec 7) (a : BitVec 7) (b : BitVec 7)
  /-- BFLY2 (R239). Complex radix-2 butterfly with each component rounded once. -/
  | bfly2 (g : BitVec 3) (d : BitVec 7) (a : BitVec 7) (b : BitVec 7)
  /-- CMUL (R240). Complex multiply with each component rounded once. -/
  | cmul (g : BitVec 3) (d : BitVec 7) (a : BitVec 7) (b : BitVec 7)
  /-- CMAD (R240). Complex multiply-add with each component rounded once. -/
  | cmad (g : BitVec 3) (d : BitVec 7) (a : BitVec 7) (b : BitVec 7)
  /-- FREDADD (R241). Binary32 sum reduction in the fixed tree. -/
  | fredadd (g : BitVec 3) (d : BitVec 7) (a : BitVec 7)
  /-- FREDMAX (R241). Binary32 maximum reduction in the fixed tree. -/
  | fredmax (g : BitVec 3) (d : BitVec 7) (a : BitVec 7)
  /-- FREDMIN (R241). Binary32 minimum reduction in the fixed tree. -/
  | fredmin (g : BitVec 3) (d : BitVec 7) (a : BitVec 7)
  /-- BR (R180). Per-lane branch, splitting the split or entering serial mode. -/
  | br (c : BitVec 3) (o : BitVec 21)
  /-- BRU (R181). Uniform branch for the whole split. -/
  | bru (c : BitVec 3) (o : BitVec 21)
  /-- BRX (R181). Uniform indirect branch to a register target. -/
  | brx (g : BitVec 3) (a : BitVec 7)
  /-- JOIN (R183). Switches to or merges the topmost serial entry of the split. -/
  | join
  /-- WAITJ (R184). Waits for the group's other splits to reach the same point and merge. -/
  | waitj (p : BitVec 3) (t : BitVec 14)
  /-- CALL (R181). Uniform call pushing the split's return stack. -/
  | call (c : BitVec 3) (o : BitVec 21)
  /-- RET (R181). Returns by popping the split's return stack. -/
  | ret
  /-- LOOP (R189). Opens a declared loop level with a uniform count. -/
  | loop (l : BitVec 2) (c : BitVec 7) (e : BitVec 15)
  /-- LOOPS (R189). Opens a software-pipelined loop level with stage predicates. -/
  | loops (l : BitVec 2) (c : BitVec 7) (s : BitVec 2) (e : BitVec 13)
  /-- ROT (R192). Arms a rotating register window for the next loop level. -/
  | rot (b : BitVec 7) (n : BitVec 7)
  /-- LBRK (R193). Guarded lanes leave the innermost loop. -/
  | lbrk (g : BitVec 3)
  /-- LSAVE (R194). Saves the split's loop state to pool and clears it. -/
  | lsave (a : BitVec 7)
  /-- LREST (R194). Restores the split's loop state from pool. -/
  | lrest (a : BitVec 7)
  /-- DQPOP (R177). Pops the group's next decision-queue entry, waiting while empty. -/
  | dqpop (g : BitVec 3) (d : BitVec 7)
  /-- EXIT (R185). Ends the split's lanes, taking any serial entry it owns. -/
  | exit
  /-- YIELD (R186). Takes the group out of the active set into READY. -/
  | yield
  /-- LDP (R276). Pool load, plain, full-empty waiting, clearing or acquiring. -/
  | ldp (g : BitVec 3) (d : BitVec 7) (a : BitVec 7) (w : BitVec 2) (m : BitVec 2) (x : BitVec 1) (s : BitVec 2)
  /-- STP (R279). Pool store, optionally filling the full-empty bit and releasing. -/
  | stp (g : BitVec 3) (v : BitVec 7) (a : BitVec 7) (w : BitVec 2) (q : BitVec 2) (x : BitVec 1) (c : BitVec 2)
  /-- ATP (R280). Pool atomic returning the old value. -/
  | atp (g : BitVec 3) (d : BitVec 7) (a : BitVec 7) (o : BitVec 4) (q : BitVec 1) (s : BitVec 2)
  /-- STG (R284). Global store, optionally release-qualified or a wake write. -/
  | stg (g : BitVec 3) (v : BitVec 7) (a : BitVec 7) (w : BitVec 2) (q : BitVec 3) (c : BitVec 2)
  /-- ATG (R280). Global atomic performed at the word's home, precise for the group. -/
  | atg (g : BitVec 3) (d : BitVec 7) (a : BitVec 7) (o : BitVec 4) (q : BitVec 1) (s : BitVec 2)
  /-- DRAINST (R291). Waits for every earlier global store of the group to be acknowledged or fault. -/
  | drainst (g : BitVec 3)
  /-- FENCE (R292). Release, acquire or both at a scope. -/
  | fence (g : BitVec 3) (q : BitVec 3) (s : BitVec 2)
  /-- INVR (R293). Acquire whose invalidation is limited to a region. -/
  | invr (g : BitVec 3) (n : BitVec 7) (a : BitVec 7) (s : BitVec 2)
  /-- AFENCE (R294). System release and acquire that also resolves frame aliases. -/
  | afence (g : BitVec 3)
  /-- PFILL (R295). Sets or clears the full-empty bits over a pool range. -/
  | pfill (g : BitVec 3) (n : BitVec 7) (a : BitVec 7) (x : BitVec 1)
  /-- TCOPY (R299). Copy command from global memory to pool. -/
  | tcopy (p : BitVec 3) (a : BitVec 6) (b : BitVec 6)
  /-- TCOPYM (R301). Copy command multicasting or scattering global rows to cluster members. -/
  | tcopym (p : BitVec 3) (a : BitVec 6) (b : BitVec 6)
  /-- TFILL (R306). Copy command expanding global data into a grist slot. -/
  | tfill (p : BitVec 3) (a : BitVec 6) (b : BitVec 6)
  /-- TSLOT (R306). Copy command expanding pool data into a grist slot. -/
  | tslot (p : BitVec 3) (a : BitVec 6) (b : BitVec 6)
  /-- TSTORE (R307). Copy command storing pool rows to global memory, raw or compressed. -/
  | tstore (p : BitVec 3) (a : BitVec 6) (b : BitVec 6)
  /-- TGATHER (R300). Copy command gathering indexed global rows into pool. -/
  | tgather (p : BitVec 3) (a : BitVec 6) (b : BitVec 6)
  /-- TSCATTER (R300). Copy command scattering pool rows to indexed global rows. -/
  | tscatter (p : BitVec 3) (a : BitVec 6) (b : BitVec 6)
  /-- TSTREAM (R315). Declares or stops a prefetch stream. -/
  | tstream (p : BitVec 3) (a : BitVec 6) (b : BitVec 6)
  /-- TWAIT (R316). Waits until the copy command count is at most n. -/
  | twait (g : BitVec 3) (n : BitVec 9)
  /-- TQUERY (R317). Reads copy-engine status, optionally clearing I4RSV. -/
  | tquery (g : BitVec 3) (d : BitVec 6) (s : BitVec 9)
  /-- MCLAIM (R323). Claims n contiguous free grist slots. -/
  | mclaim (p : BitVec 3) (d : BitVec 7) (n : BitVec 14)
  /-- MREL (R324). Releases a range of grist slots. -/
  | mrel (g : BitVec 3) (a : BitVec 7) (n : BitVec 7)
  /-- MMA (R325). Enqueues one matrix multiply-accumulate command. -/
  | mma (p : BitVec 3) (a : BitVec 6) (b : BitVec 6) (t : BitVec 4) (m : BitVec 3) (c : BitVec 1) (s : BitVec 1)
  /-- MFENCE (R330). Closes the group's open matrix batch, bound to a barrier. -/
  | mfence (g : BitVec 3) (b : BitVec 6)
  /-- ACCLD (R334). Copies tile words into general registers. -/
  | accld (g : BitVec 3) (d : BitVec 7) (a : BitVec 7) (m : BitVec 3) (t : BitVec 4)
  /-- ACCST (R335). Writes registers into tile words. -/
  | accst (g : BitVec 3) (v : BitVec 7) (a : BitVec 7) (m : BitVec 3) (t : BitVec 4)
  /-- ACCZ (R335). Zeroes the owned rows of a tile view. -/
  | accz (g : BitVec 3) (m : BitVec 3) (t : BitVec 4)
  /-- ACCWAIT (R336). Waits until the group's transfer counter is at most n. -/
  | accwait (g : BitVec 3) (n : BitVec 14)
  /-- MQUERY (R338). Reads matrix-engine status, batch numbers or a slot's header or state. -/
  | mquery (g : BitVec 3) (d : BitVec 7) (n : BitVec 6) (s : BitVec 2)
  /-- BINIT (R354). Arms, re-arms, frees or links a barrier object. -/
  | binit (g : BitVec 3) (a : BitVec 6) (l : BitVec 1) (f : BitVec 1) (n : BitVec 6)
  /-- BJOIN (R355). Joins the issuing thread to a barrier. -/
  | bjoin (g : BitVec 3) (n : BitVec 6)
  /-- BLEAVE (R355). Removes the issuing thread from a barrier. -/
  | bleave (g : BitVec 3) (n : BitVec 6)
  /-- BARR (R356). Arrives in the current phase and returns its number. -/
  | barr (g : BitVec 3) (d : BitVec 6) (n : BitVec 6)
  /-- BWAIT (R357). Waits for a barrier phase and reports normal or error. -/
  | bwait (p : BitVec 3) (a : BitVec 6) (h : BitVec 6)
  /-- BARRW (R356). Arrives and then waits for that phase. -/
  | barrw (p : BitVec 3) (d : BitVec 6) (n : BitVec 6)
  /-- BTWAIT (R357). Waits for a barrier phase with a timeout. -/
  | btwait (p : BitVec 3) (a : BitVec 6) (h : BitVec 6) (t : BitVec 9)
  /-- BEXPECT (R358). Adds expected bytes to a barrier's current phase. -/
  | bexpect (g : BitVec 3) (a : BitVec 6) (b : BitVec 6)
  /-- BQUERY (R359). Reads a barrier object's status or fields. -/
  | bquery (g : BitVec 3) (d : BitVec 6) (a : BitVec 6) (h : BitVec 1) (s : BitVec 3)
  /-- JENQ (R142). Enqueues a root job on a hardware queue of the context. -/
  | jenq (p : BitVec 3) (a : BitVec 6) (b : BitVec 6) (q : BitVec 6)
  /-- JSPAWN (R142). Spawns a child job with part of the caller's termination weight. -/
  | jspawn (p : BitVec 3) (a : BitVec 6) (b : BitVec 6)
  /-- JDONE (R143). Returns termination weight to the tree after a release. -/
  | jdone (g : BitVec 3) (a : BitVec 6)
  /-- JYIELD (R144). Reloads the cluster budget and admits a pending deadline pre-emption. -/
  | jyield (g : BitVec 3)
  /-- WAITW (R145). Compares a global word at its home and parks until a wake write. -/
  | waitw (g : BitVec 3) (a : BitVec 6) (b : BitVec 6)
  /-- JSELF (R146). Reads job number, weight, deadline or tree numbers. -/
  | jself (g : BitVec 3) (d : BitVec 6) (h : BitVec 1) (s : BitVec 4)
  /-- MSEND (R390). Sends a tagged message from pool to an endpoint. -/
  | msend (p : BitVec 3) (a : BitVec 6) (b : BitVec 6) (r : BitVec 1) (x : BitVec 1) (n : BitVec 6)
  /-- MRECV (R393). Posts a receive buffer, pulling a matching overflow entry if any. -/
  | mrecv (p : BitVec 3) (a : BitVec 6) (b : BitVec 6) (j : BitVec 1) (x : BitVec 1) (n : BitVec 6)
  /-- MPROBE (R394). Reports matching overflow entries and posted receives. -/
  | mprobe (p : BitVec 3) (d : BitVec 6) (a : BitVec 6)
  /-- MCANCEL (R394). Removes the oldest matching posted receive. -/
  | mcancel (p : BitVec 3) (a : BitVec 6)
  /-- MWAKE (R398). Makes a wake write, possibly on a peer device. -/
  | mwake (p : BitVec 3) (a : BitVec 6) (b : BitVec 6) (r : BitVec 1) (x : BitVec 1) (n : BitVec 6)
  /-- TRAP (R420). Raises the precise TRAP fault recording a value and code. -/
  | trap (g : BitVec 3) (a : BitVec 6) (c : BitVec 9)
  /-- BKPT (R420). Breakpoint: stops the cluster when enabled, else a trigger event. -/
  | bkpt (g : BitVec 3) (a : BitVec 6) (c : BitVec 9)
  /-- GREPLAY (R112). Requests replay of a faulted thread, optionally reissuing stores. -/
  | greplay (p : BitVec 3) (a : BitVec 6) (f : BitVec 1)
  /-- GKILL (R113). Requests killing of a faulted thread or block. -/
  | gkill (p : BitVec 3) (a : BitVec 6)
  /-- GSTATE (R111). Copies state of a named thread into the executing block's pool. -/
  | gstate (g : BitVec 3) (a : BitVec 6) (b : BitVec 6) (k : BitVec 2) (i : BitVec 7)
  /-- PGPROBE (R379). Translates a VA and returns the physical address and leaf information. -/
  | pgprobe (p : BitVec 3) (a : BitVec 6) (b : BitVec 6)
  /-- PGMIG (R380). Queues a page re-striping request with the restriper. -/
  | pgmig (p : BitVec 3) (a : BitVec 6) (b : BitVec 6) (x : BitVec 1) (n : BitVec 6)
  /-- PGSCRUB (R381). Clears owner-lost bits of every word of a page. -/
  | pgscrub (g : BitVec 3) (a : BitVec 6)
  /-- CLAUSE (R78). Opens a clause with flag waits and flag increments. -/
  | clause (w : BitVec 12) (l : BitVec 4) (a : BitVec 4) (b : BitVec 4)
  /-- LIT (R79). Prefix supplying an immediate extension payload. -/
  | lit (p : BitVec 24)
  /-- MOD (R80). Prefix supplying rounding and saturation modifiers. -/
  | mod (n : BitVec 1) (s : BitVec 1) (r : BitVec 2)
  /-- PRIO (R81). Sets the group's issue level. -/
  | prio (l : BitVec 2)
  /-- DEFINED_HINT (R75). An opcode of 0xF4 to 0xFF executes as a no-op taking one issue slot. -/
  | definedHint (w : BitVec 32)
  /-- ILLEGAL_ENCODING (R75). An unassigned opcode or illegal field value raises ILLEGAL precisely. -/
  | illegalEncoding (w : BitVec 32)
  /-- INSTRUCTION_FETCH_FILL (R157). An instruction-cache fill completes, or faults the fetching thread. -/
  | instructionFetchFill
  /-- REGISTER_WRITE (R4). Write to a register or field that has no behaviour of its own, per its access code. -/
  | registerWrite (off : Nat) (v : BitVec 64)
  /-- COLD_RESET (R430). Cold reset: boot ROM checks the firmware signature before dies leave reset. -/
  | coldReset
  /-- RECOVERY_IMAGE (R430). Millhouse in recovery accepts and checks a replacement image over the side-band. -/
  | recoveryImage (image : List (BitVec 8))
  /-- ATTESTATION_REQUEST (R431). Millhouse signs an attestation report with the next one-time key. -/
  | attestationRequest (nonce : BitVec 128)
  /-- OPEN (R89). Context command OPEN reads and checks the descriptor and takes its queues. -/
  | ctxOpen (ctx : BitVec 12) (desc : BitVec 64)
  /-- SUSPEND (R89). Context command SUSPEND stops placement and pre-empts resident clusters. -/
  | ctxSuspend (ctx : BitVec 12)
  /-- RESUME (R89). Context command RESUME returns a suspended or faulted context to OPEN. -/
  | ctxResume (ctx : BitVec 12)
  /-- CLOSE (R89). Context command CLOSE cancels jobs, evicts clusters, drains and zeroes. -/
  | ctxClose (ctx : BitVec 12)
  /-- UPDATE (R89). Context command UPDATE re-reads the descriptor except PTROOT and QMASK. -/
  | ctxUpdate (ctx : BitVec 12) (desc : BitVec 64)
  /-- SUSPEND_COMPLETE (R89). SUSPEND completes once no cluster of the context is resident. -/
  | suspendComplete (ctx : BitVec 12)
  /-- ZEROING_COMPLETE (R89). A closing context finishes zeroing, becomes FREE and releases its queues. -/
  | zeroingComplete (ctx : BitVec 12)
  /-- FAULT_RECORD_APPEND (R98). Fault unit writes a record, advances PROD and wakes the service or raises MSI-X. -/
  | faultRecordAppend (ctx : BitVec 12)
  /-- FAULT_MAILBOX_FREE (R386). Host writes FULL to 0 to free the fault mailbox. -/
  | faultMailboxFree
  /-- SUBMIT (R116). A SUBMIT write appends a job record address to a queue FIFO or is dropped. -/
  | queueSubmit (q : BitVec 6) (addr : BitVec 64)
  /-- PAUSE (R117). Writing PAUSE 1 stops drawing from the queue. -/
  | queuePause (q : BitVec 6)
  /-- UNPAUSE (R117). Writing PAUSE 0 resumes drawing from the queue. -/
  | queueUnpause (q : BitVec 6)
  /-- FLUSH (R117). Writing FLUSH 1 empties the queue FIFO. -/
  | queueFlush (q : BitVec 6)
  /-- ACCEPTANCE_DRAW (R118). The acceptance unit draws one record per cycle from the OPEN queues round-robin. -/
  | acceptanceDraw
  /-- JOB_ACCEPT (R115). A job record and kernel header are read and checked, and the job enters the sluice. -/
  | jobAccept (job : Nat)
  /-- JSPAWN_RESOLVE (R142). After prior stores are acknowledged, a spawn's record is read and its weight test decided. -/
  | jspawnResolve (job : Nat)
  /-- DISPATCH (R123). The dispatcher picks a candidate, finds a rectangle and places one cluster. -/
  | dispatch
  /-- PLACEMENT_MAILBOX_GO (R124). Host returns a corner and GO for a host-assisted placement. -/
  | placementMailboxGo (corner : BitVec 8)
  /-- CORE_ZEROING_COMPLETE (R94). A core passing between contexts finishes its 2048-cycle zeroing. -/
  | coreZeroingComplete (core : Nat)
  /-- CLUSTER_LAUNCH (R156). Once every block holds its initial state the cluster's threads become eligible to issue. -/
  | clusterLaunch (cl : Nat)
  /-- BUDGET_EXHAUSTED (R129). A cluster's budget counter reaches zero and it is pre-empted with a BUDGET record. -/
  | budgetExhausted (cl : Nat)
  /-- CLUSTER_SAVE (R131). Once outstanding work completes, a stopped pre-empted cluster's blocks are saved to frames. -/
  | clusterSave (cl : Nat)
  /-- IDEMPOTENT_DISCARD (R132). A stopped cluster inside idempotent regions is discarded keeping only snapshots. -/
  | idempotentDiscard (cl : Nat)
  /-- BLOCK_RETIRE (R160). A block retires once exits and all outstanding work are done. -/
  | blockRetire (core : Nat)
  /-- WAKE_WRITE_PERFORM (R136). A wake write performed at the home un-parks waiters and opens gated jobs. -/
  | wakeWritePerform (id : Nat)
  /-- WAITW_COMPARE (R137). The home compares a WAITW word and registers the waiter if equal. -/
  | waitwCompare (id : Nat)
  /-- ACTIVE_SET_REFILL (R165). A partition with room admits the oldest READY group. -/
  | activeSetRefill (core : Nat) (part : BitVec 2)
  /-- ACTIVE_SET_LEAVE (R165). A group blocked for 32 cycles leaves the active set to WAITING. -/
  | activeSetLeave (core : Nat) (grp : Nat)
  /-- WAITJ_TIMEOUT (R184). A WAITJ timeout expires without merging. -/
  | waitjTimeout (core : Nat) (grp : Nat) (split : Nat)
  /-- POOL_PORT_ACCESS (R247). A pool access is performed at the target core's pool port. -/
  | poolPortAccess (id : Nat)
  /-- POOL_LOAD_REPLY (R278). A pool load or atomic reply lands and writes its destinations. -/
  | poolLoadReply (id : Nat)
  /-- REMOTE_STORE_ACK (R279). A remote pool store's acknowledgement reaches the issuer. -/
  | remoteStoreAck (id : Nat)
  /-- SERVICE_REQUEST_ARRIVE (R110). A GSTATE, GREPLAY or GKILL request takes effect at the handle's core. -/
  | serviceRequestArrive (id : Nat)
  /-- SERVICE_REPLY (R110). A service request's reply ends the issuer's wait. -/
  | serviceReply (id : Nat)
  /-- HOME_STORE (R255). A store or registration reaches its home, which recalls other owners and records the owner. -/
  | homeStore (id : Nat)
  /-- STORE_ACK (R255). The home's acknowledgement reaches the storing die and acknowledges the store. -/
  | storeAck (id : Nat)
  /-- RECALL (R257). An owner returns a recalled word and makes its copy CLEAN. -/
  | recall (id : Nat)
  /-- FORWARDED_READ (R257). A read forwarded to a word's owner returns the owner's value. -/
  | forwardedRead (id : Nat)
  /-- VISITOR_FILL (R254). A visitor line fill from the home arrives. -/
  | visitorFill (id : Nat)
  /-- ATOMIC_AT_HOME (R258). An atomic or release-qualified access is performed at the word's home. -/
  | atomicAtHome (id : Nat)
  /-- GLOBAL_ATOMIC_REPLY (R283). ATG lanes complete or fault and the group resumes issue. -/
  | globalAtomicReply (id : Nat)
  /-- DRAIN_ORDER (R262). An owner ordered to drain writes back dirty words up to the mark's epoch. -/
  | drainOrder (id : Nat)
  /-- DRAIN_ACK (R262). Drain acknowledgements complete a waiting acquire at the home. -/
  | drainAck (id : Nat)
  /-- LINK_BUFFER_STORE (R259). A store from a peer or host arrives at a link buffer and is registered. -/
  | linkBufferStore (buf : BitVec 2) (addr : BitVec 52) (data : List (BitVec 8))
  /-- LINK_BUFFER_WRITEBACK (R259). A link buffer writes back its oldest word to make room. -/
  | linkBufferWriteback (buf : BitVec 2)
  /-- STALE_GENERATION_RETURN (R267). A request with an old geometry generation is returned for retranslation. -/
  | staleGenerationReturn (id : Nat)
  /-- STORE_FAULT_REPORT (R289). A store fault report reaches the core and faults the group imprecisely. -/
  | storeFaultReport (id : Nat)
  /-- L2SPLIT_WRITE (R20). A write to VWAYS starts moving the home/visitor way boundary. -/
  | l2splitWrite (die : BitVec 2) (v : BitVec 64)
  /-- L2SPLIT_DONE (R20). Every slice has emptied the changing ways; ACTIVE updates and BUSY clears. -/
  | l2splitDone (die : BitVec 2)
  /-- PAGE_WALK (R363). A translation walk completes with a leaf or a fault. -/
  | pageWalk (id : Nat)
  /-- FRAME_OWNER_ZEROING (R364). Frame parts owned by another context finish zeroing and change owner. -/
  | frameOwnerZeroing (id : Nat)
  /-- WALK_MAILBOX_DONE (R363). Host supplies a leaf and DONE for a host-assisted walk. -/
  | walkMailboxDone (leaf : BitVec 128)
  /-- WALK_MAILBOX_FAULT (R363). Host answers a host-assisted walk with FAULT. -/
  | walkMailboxFault
  /-- SHOOTDOWN (R366). A write of shootdown word 1 drops translations or is rejected. -/
  | shootdown (word0 : BitVec 64) (word1 : BitVec 64)
  /-- SHOOTDOWN_COMPLETE (R366). Accesses under dropped entries are done and STATUS reads 2. -/
  | shootdownComplete
  /-- RESTRIPE_CHECK (R380). The restriper checks a queued PGMIG request and starts COPYING or fails it. -/
  | restripeCheck (id : Nat)
  /-- RESTRIPE_PASS_END (R374). A copy pass ends; the page repasses or enters FROZEN. -/
  | restripePassEnd (id : Nat)
  /-- RESTRIPE_FINAL_COPY (R375). Final granules are copied and PUBLISHING starts with a shootdown. -/
  | restripeFinalCopy (id : Nat)
  /-- RESTRIPE_SHOOTDOWN_ACK (R375). A translation cache acknowledges the restriper's shootdown. -/
  | restripeShootdownAck (id : Nat) (cache : Nat)
  /-- RESTRIPE_ABORT (R373). An error in the new frames or loss of a die returns the page to MAPPED and fails PGMIG. -/
  | restripeAbort (id : Nat) (dieLoss : Bool)
  /-- COPY_DATA_LAND (R310). Copy data lands, setting full bits and crediting barrier bytes. -/
  | copyDataLand (core : Nat) (cmd : Nat) (tr : Nat)
  /-- COPY_TRANSFER_FAULT (R311). A copy transfer meets a global fault and stops. -/
  | copyTransferFault (core : Nat) (cmd : Nat) (tr : Nat)
  /-- COPY_COMMAND_COMPLETE (R310). All transfers end; barrier outcome, fault records and count decrement. -/
  | copyCommandComplete (core : Nat) (cmd : Nat)
  /-- MCID_REPLICA_UPDATE (R309). A multicast-id claim or release reaches another member's replica. -/
  | mcidReplicaUpdate (id : Nat)
  /-- MCID_RELEASE (R309). A DRAINING multicast id returns to FREE once all destinations acknowledge. -/
  | mcidRelease (cl : Nat) (mcid : BitVec 4)
  /-- STREAM_PREFETCH (R315). The engine fetches declared stream lines ahead of reads. -/
  | streamPrefetch (core : Nat) (stream : BitVec 3)
  /-- MMA_START (R327). The head matrix command starts, or completes with SLOT. -/
  | mmaStart (core : Nat)
  /-- MMA_COMPLETE (R329). A command's tile writes complete and its queue entry is freed. -/
  | mmaComplete (core : Nat) (id : Nat)
  /-- BATCH_ARRIVAL (R331). A completed batch arrives at its barrier. -/
  | batchArrival (core : Nat) (grp : Nat)
  /-- ACC_TRANSFER_COMPLETE (R336). An ACCLD, ACCST or ACCZ completes and the transfer counter drops. -/
  | accTransferComplete (core : Nat) (id : Nat)
  /-- REMOTE_BARRIER_OP (R342). A barrier operation arrives at another core and is checked and performed. -/
  | remoteBarrierOp (id : Nat)
  /-- BARRIER_REPLY (R342). The acknowledgement of a remote barrier operation ends the issuer's wait. -/
  | barrierReply (id : Nat)
  /-- CHILD_ARRIVAL (R346). A child's forwarded arrival reaches its parent. -/
  | childArrival (id : Nat)
  /-- PHASE_NOTICE (R346). A parent's completion notice reaches a child or watching member. -/
  | phaseNotice (id : Nat)
  /-- ERROR_ARRIVAL (R347). A child's error arrival makes the parent's phase an error phase. -/
  | errorArrival (id : Nat)
  /-- ABS_WAIT_POLL (R352). A wait on an object outside the cluster reads its phase every 64 cycles. -/
  | absWaitPoll (id : Nat)
  /-- BTWAIT_TIMEOUT (R357). A bounded wait expires with the phase incomplete and writes false. -/
  | btwaitTimeout (core : Nat) (who : Nat) (split : Nat)
  /-- MSG_HEADER_ARRIVE (R391). A message header is matched, queued in overflow or refused. -/
  | msgHeaderArrive (id : Nat)
  /-- MSG_PULL (R390). A pull reaches the sender, which reads and sends the source bytes. -/
  | msgPull (id : Nat)
  /-- MSG_DATA_LAND (R392). Message data and header land, are credited, and the receive leaves the table. -/
  | msgDataLand (id : Nat)
  /-- MSG_COMPLETION (R390). A positive or negative completion reaches the sender's barrier. -/
  | msgCompletion (id : Nat)
  /-- MWAKE_ACK (R398). The home's acknowledgement of an MWAKE credits 8 bytes or fails. -/
  | mwakeAck (id : Nat)
  /-- ENABLE (R383). Link CMD enable starts training or retraining. -/
  | linkEnable (link : BitVec 5)
  /-- QUIESCE (R383). Link CMD quiesce stops admitting new requests. -/
  | linkQuiesce (link : BitVec 5)
  /-- DISABLE (R383). Link CMD disable takes the link DOWN. -/
  | linkDisable (link : BitVec 5)
  /-- TRAINING_SUCCESS (R383). Training succeeds and the link goes UP, replaying held flits. -/
  | trainingSuccess (link : BitVec 5)
  /-- TRAINING_FAILURE (R383). Eight failed attempts or 10 ms take the link to FAILED. -/
  | trainingFailure (link : BitVec 5)
  /-- QUIESCED (R383). Every sent request is answered and the link is QUIESCED. -/
  | linkQuiesced (link : BitVec 5)
  /-- REPLAY_LIMIT (R383). Sixteen consecutive replays of a flit put the link into RETRAINING. -/
  | replayLimit (link : BitVec 5)
  /-- CRC_FAILURE (R385). A flit CRC failure makes the sender replay. -/
  | crcFailure (link : BitVec 5)
  /-- TIME_EXCHANGE (R399). Four-stamp time flits every 4096 ticks adjust the GTS toward the master. -/
  | timeExchange (link : BitVec 5) (t1 : BitVec 64) (t2 : BitVec 64) (t3 : BitVec 64) (t4 : BitVec 64)
  /-- DIE_RESET_START (R400). CMD start begins the warm reset sequence of a die. -/
  | dieResetStart (die : BitVec 2)
  /-- DIE_RESET_CONTINUE (R400). CMD continue advances a host-assisted reset to its next step. -/
  | dieResetContinue
  /-- STOP (R407). Debug command STOP stops the cluster holding a core. -/
  | dbgStop (core : BitVec 8)
  /-- RELEASE (R413). Debug command RELEASE returns every thread of the stopped cluster to its kept state. -/
  | dbgRelease (core : BitVec 8)
  /-- STEP (R414). Debug command STEP lets one thread issue exactly one unit. -/
  | dbgStep (core : BitVec 8) (sel : BitVec 6) (fe : Bool)
  /-- DUMP (R407). Debug command DUMP writes a stopped block's frame to the host or millhouse. -/
  | dbgDump (core : BitVec 8) (dest : Bool) (arg : BitVec 64)
  /-- WRITE (R407). Debug command WRITE sets a watchpoint or trigger register of a block. -/
  | dbgWrite (core : BitVec 8) (sel : BitVec 6) (arg : BitVec 64)
  /-- STEP_TIMEOUT (R414). A stepped thread that has not issued within 2^16 cycles is re-stopped. -/
  | stepTimeout
  /-- STOP_ARRIVE (R411). A stop reaches another member, which stops its threads and writes a stop record. -/
  | stopArrive (id : Nat)
  /-- TRACE_SAMPLE (R417). While recording, a sample of one group is appended every period. -/
  | traceSample (core : Nat)
  /-- MILLPOND_UPDATE (R421). Each microsecond the millpond fills, clamps and drains by measured energy. -/
  | millpondUpdate (measured : Nat)
  /-- CLOCK_CHECK (R422). Every tenth update the clock moves one step by the level. -/
  | clockCheck
  /-- CURRENT_LIMIT (R423). Core-rail current above 3450 A halves issue for 1 µs. -/
  | currentLimit (die : BitVec 2)
  /-- CORRECTED_ERROR (R426). A corrected error is logged and starts a self-test of its unit. -/
  | correctedError (unit : BitVec 8) (die : BitVec 2) (idx : BitVec 16)
  /-- SELFTEST_VERDICT (R426). A self-test ends transient or lasting, applied or posted to the mailbox. -/
  | selftestVerdict (unit : BitVec 8) (die : BitVec 2) (idx : BitVec 16) (lasting : Bool)
  /-- ACCEPT (R427). Host writes ACCEPT and a host-assisted self-test verdict is applied. -/
  | selftestAccept
  /-- CURRENT_LIMIT_END (R423). The 1 µs of alternate-cycle issue imposed by a core-rail over-current ends and the die's partitions issue every cycle again. -/
  | currentLimitEnd (die : BitVec 2)
  /-- PEER_REQUEST (R387). A read, atomic or other request from a peer device arrives over a fabric link for tier 11b and is served within the exported window or answered PERMISSION. -/
  | peerRequest (link : BitVec 5) (kind : BitVec 2) (op : BitVec 4) (addr : BitVec 52) (data : List (BitVec 8))
  /-- AFENCE_DIE_ACK (R294). A die acknowledges that it has written back the group's dirty lines and discarded its DUP-marked clean lines, and the AFENCE completes once every die has. -/
  | afenceDieAck (id : Nat) (die : BitVec 2)
  /-- PGSCRUB_SCAN_DONE (R381). Every home slice of the page finishes scanning its registry and clearing owner-lost bits, and the PGSCRUB issuer's wait ends. -/
  | pgscrubScanDone (id : Nat)
  /-- DEVNUM_WRITE (R387). A write of DEVNUM and TMASTER in the host-link register space, ignored for the device number while any fabric link is UP. -/
  | devnumWrite (v : BitVec 64)
  deriving DecidableEq, Repr

end Sys2Proof
end

