-- ==== Sys2Proof/Decode.lean ====
section
/-! DEFINITION. The decoder and the encoder of 32-bit instruction words (03 R64 to R67, R74, R75). Reserved
fields are ignored when a word is decoded (R75) and written as zero when one is encoded. A word whose opcode
R75 leaves unassigned decodes to illegalEncoding, one of opcodes 0xF4 to 0xFF to definedHint. A field value
that an instruction's description calls illegal decodes to that instruction: raising ILLEGAL is its meaning. -/
namespace Sys2Proof

/-- Bits [lo + width - 1 : lo] of a word (00 R3). -/
def field (w : BitVec 32) (lo width : Nat) : BitVec width := w.extractLsb' lo width

/-- The major opcode, bits [31:24] (03 R64). -/
def opcodeOf (w : BitVec 32) : Nat := (field w 24 8).toNat

/-- Opcodes 0x01 to 0x20: front-end scalar (03 R74). -/
def decodeScalar (w : BitVec 32) (op : Nat) : Instr :=
  if op = 0x01 then .sadd (field w 18 6) (field w 12 6) (field w 6 6) (field w 5 1)
  else if op = 0x02 then .ssub (field w 18 6) (field w 12 6) (field w 6 6) (field w 5 1)
  else if op = 0x03 then .smul (field w 18 6) (field w 12 6) (field w 6 6) (field w 5 1)
  else if op = 0x04 then .smulh (field w 18 6) (field w 12 6) (field w 6 6) (field w 5 1) (field w 0 1)
  else if op = 0x05 then .sand (field w 18 6) (field w 12 6) (field w 6 6) (field w 5 1)
  else if op = 0x06 then .sor (field w 18 6) (field w 12 6) (field w 6 6) (field w 5 1)
  else if op = 0x07 then .sxor (field w 18 6) (field w 12 6) (field w 6 6) (field w 5 1)
  else if op = 0x08 then .sshl (field w 18 6) (field w 12 6) (field w 6 6) (field w 5 1) (field w 0 5)
  else if op = 0x09 then .sshr (field w 18 6) (field w 12 6) (field w 6 6) (field w 5 1) (field w 0 5)
  else if op = 0x0A then .ssar (field w 18 6) (field w 12 6) (field w 6 6) (field w 5 1) (field w 0 5)
  else if op = 0x0B then .smin (field w 18 6) (field w 12 6) (field w 6 6) (field w 5 1) (field w 0 1)
  else if op = 0x0C then .smax (field w 18 6) (field w 12 6) (field w 6 6) (field w 5 1) (field w 0 1)
  else if op = 0x0D then .scmp (field w 21 3) (field w 12 6) (field w 6 6) (field w 5 1) (field w 0 4)
  else if op = 0x0E then .ssel (field w 18 6) (field w 12 6) (field w 6 6) (field w 0 3)
  else if op = 0x0F then .sclz (field w 18 6) (field w 12 6) (field w 5 1)
  else if op = 0x10 then .spop (field w 18 6) (field w 12 6) (field w 5 1)
  else if op = 0x11 then .saddi (field w 18 6) (field w 0 18)
  else if op = 0x12 then .sli (field w 18 6) (field w 0 18)
  else if op = 0x13 then .slih (field w 18 6) (field w 0 18)
  else if op = 0x14 then .sldp (field w 18 6) (field w 12 6) (field w 4 2) (field w 3 1)
  else if op = 0x15 then .sstp (field w 12 6) (field w 6 6) (field w 4 2)
  else if op = 0x16 then .sj (field w 0 18)
  else if op = 0x17 then .sbz (field w 18 6) (field w 0 18)
  else if op = 0x18 then .sbnz (field w 18 6) (field w 0 18)
  else if op = 0x19 then .scall (field w 0 18)
  else if op = 0x1A then .sret
  else if op = 0x1B then .stime (field w 18 6)
  else if op = 0x1C then .smfsy (field w 18 6) (field w 0 18)
  else if op = 0x1D then .smtsy (field w 18 6) (field w 0 18)
  else if op = 0x1E then .sexit
  else if op = 0x1F then .dqpush (field w 21 3) (field w 15 6)
  else if op = 0x20 then .swait (field w 0 18)
  else .illegalEncoding w

/-- Opcodes 0x30 to 0x46: vector integer, two and one operand (03 R74). -/
def decodeVectorA (w : BitVec 32) (op : Nat) : Instr :=
  if op = 0x30 then .vadd (field w 21 3) (field w 14 7) (field w 7 7) (field w 0 7)
  else if op = 0x31 then .vsub (field w 21 3) (field w 14 7) (field w 7 7) (field w 0 7)
  else if op = 0x32 then .vmul (field w 21 3) (field w 14 7) (field w 7 7) (field w 0 7)
  else if op = 0x33 then .vmulhI (field w 21 3) (field w 14 7) (field w 7 7) (field w 0 7)
  else if op = 0x34 then .vmulhN (field w 21 3) (field w 14 7) (field w 7 7) (field w 0 7)
  else if op = 0x35 then .vmad (field w 21 3) (field w 14 7) (field w 7 7) (field w 0 7)
  else if op = 0x36 then .vand (field w 21 3) (field w 14 7) (field w 7 7) (field w 0 7)
  else if op = 0x37 then .vor (field w 21 3) (field w 14 7) (field w 7 7) (field w 0 7)
  else if op = 0x38 then .vxor (field w 21 3) (field w 14 7) (field w 7 7) (field w 0 7)
  else if op = 0x39 then .vandn (field w 21 3) (field w 14 7) (field w 7 7) (field w 0 7)
  else if op = 0x3A then .vshl (field w 21 3) (field w 14 7) (field w 7 7) (field w 0 7)
  else if op = 0x3B then .vshr (field w 21 3) (field w 14 7) (field w 7 7) (field w 0 7)
  else if op = 0x3C then .vsar (field w 21 3) (field w 14 7) (field w 7 7) (field w 0 7)
  else if op = 0x3D then .vminI (field w 21 3) (field w 14 7) (field w 7 7) (field w 0 7)
  else if op = 0x3E then .vminN (field w 21 3) (field w 14 7) (field w 7 7) (field w 0 7)
  else if op = 0x3F then .vmaxI (field w 21 3) (field w 14 7) (field w 7 7) (field w 0 7)
  else if op = 0x40 then .vmaxN (field w 21 3) (field w 14 7) (field w 7 7) (field w 0 7)
  else if op = 0x41 then .vabs (field w 21 3) (field w 14 7) (field w 7 7)
  else if op = 0x42 then .vclz (field w 21 3) (field w 14 7) (field w 7 7)
  else if op = 0x43 then .vpop (field w 21 3) (field w 14 7) (field w 7 7)
  else if op = 0x44 then .vbrev (field w 21 3) (field w 14 7) (field w 7 7)
  else if op = 0x45 then .vbfe (field w 21 3) (field w 14 7) (field w 7 7) (field w 0 7)
  else if op = 0x46 then .vbfi (field w 21 3) (field w 14 7) (field w 7 7) (field w 0 7)
  else .illegalEncoding w

/-- Opcodes 0x47 to 0x5C: vector immediate, compare, lane and predicate (03 R74). -/
def decodeVectorB (w : BitVec 32) (op : Nat) : Instr :=
  if op = 0x47 then .vaddi (field w 21 3) (field w 14 7) (field w 7 7) (field w 0 7)
  else if op = 0x48 then .vli (field w 21 3) (field w 14 7) (field w 0 14)
  else if op = 0x49 then .vmov (field w 21 3) (field w 14 7) (field w 7 7)
  else if op = 0x4A then .vcmp (field w 21 3) (field w 18 3) (field w 14 4) (field w 7 7) (field w 0 7)
  else if op = 0x4B then .vsel (field w 21 3) (field w 14 7) (field w 7 7) (field w 0 7)
  else if op = 0x4C then .vlane (field w 21 3) (field w 14 7)
  else if op = 0x4D then .vshflIdx (field w 21 3) (field w 14 7) (field w 7 7) (field w 0 7)
  else if op = 0x4E then .vshflUp (field w 21 3) (field w 14 7) (field w 7 7) (field w 0 7)
  else if op = 0x4F then .vshflDown (field w 21 3) (field w 14 7) (field w 7 7) (field w 0 7)
  else if op = 0x50 then .vshflXor (field w 21 3) (field w 14 7) (field w 7 7) (field w 0 7)
  else if op = 0x51 then .vballot (field w 21 3) (field w 14 7) (field w 7 3)
  else if op = 0x52 then .vvote (field w 21 3) (field w 18 3) (field w 14 4) (field w 7 3)
  else if op = 0x53 then .vredadd (field w 21 3) (field w 14 7) (field w 7 7)
  else if op = 0x54 then .vredmin (field w 21 3) (field w 14 7) (field w 7 7) (field w 0 1)
  else if op = 0x55 then .vredmax (field w 21 3) (field w 14 7) (field w 7 7) (field w 0 1)
  else if op = 0x56 then .vscan (field w 21 3) (field w 14 7) (field w 7 7) (field w 3 1) (field w 2 1) (field w 0 2)
  else if op = 0x57 then .pand (field w 21 3) (field w 18 3) (field w 7 3) (field w 0 3)
  else if op = 0x58 then .por (field w 21 3) (field w 18 3) (field w 7 3) (field w 0 3)
  else if op = 0x59 then .pxor (field w 21 3) (field w 18 3) (field w 7 3) (field w 0 3)
  else if op = 0x5A then .pnot (field w 21 3) (field w 18 3) (field w 7 3)
  else if op = 0x5B then .vmfsy (field w 21 3) (field w 14 7) (field w 13 1) (field w 12 1) (field w 0 12)
  else if op = 0x5C then .vtime (field w 21 3) (field w 14 7) (field w 0 1)
  else .illegalEncoding w

/-- Opcodes 0x60 to 0x74: floating point (03 R74). -/
def decodeFloatA (w : BitVec 32) (op : Nat) : Instr :=
  if op = 0x60 then .fadd (field w 21 3) (field w 14 7) (field w 7 7) (field w 0 7)
  else if op = 0x61 then .fsub (field w 21 3) (field w 14 7) (field w 7 7) (field w 0 7)
  else if op = 0x62 then .fmul (field w 21 3) (field w 14 7) (field w 7 7) (field w 0 7)
  else if op = 0x63 then .ffma (field w 21 3) (field w 14 7) (field w 7 7) (field w 0 7)
  else if op = 0x64 then .ffms (field w 21 3) (field w 14 7) (field w 7 7) (field w 0 7)
  else if op = 0x65 then .fnma (field w 21 3) (field w 14 7) (field w 7 7) (field w 0 7)
  else if op = 0x66 then .fmin (field w 21 3) (field w 14 7) (field w 7 7) (field w 0 7)
  else if op = 0x67 then .fmax (field w 21 3) (field w 14 7) (field w 7 7) (field w 0 7)
  else if op = 0x68 then .fabs (field w 21 3) (field w 14 7) (field w 7 7)
  else if op = 0x69 then .fneg (field w 21 3) (field w 14 7) (field w 7 7)
  else if op = 0x6A then .fcmp (field w 21 3) (field w 18 3) (field w 14 4) (field w 7 7) (field w 0 7)
  else if op = 0x6B then .fclass (field w 21 3) (field w 14 7) (field w 7 7)
  else if op = 0x6C then .fround (field w 21 3) (field w 14 7) (field w 7 7) (field w 0 1)
  else if op = 0x6D then .cvt (field w 21 3) (field w 14 7) (field w 7 7) (field w 3 4) (field w 0 3)
  else if op = 0x6E then .cvtx (field w 21 3) (field w 14 7) (field w 7 7) (field w 0 7)
  else if op = 0x6F then .hadd2F16 (field w 21 3) (field w 14 7) (field w 7 7) (field w 0 7)
  else if op = 0x70 then .hmul2F16 (field w 21 3) (field w 14 7) (field w 7 7) (field w 0 7)
  else if op = 0x71 then .hfma2F16 (field w 21 3) (field w 14 7) (field w 7 7) (field w 0 7)
  else if op = 0x72 then .hadd2Bf16 (field w 21 3) (field w 14 7) (field w 7 7) (field w 0 7)
  else if op = 0x73 then .hmul2Bf16 (field w 21 3) (field w 14 7) (field w 7 7) (field w 0 7)
  else if op = 0x74 then .hfma2Bf16 (field w 21 3) (field w 14 7) (field w 7 7) (field w 0 7)
  else .illegalEncoding w

/-- Opcodes 0x75 to 0x86: dot products, special functions, signal, reductions (03 R74). -/
def decodeFloatB (w : BitVec 32) (op : Nat) : Instr :=
  if op = 0x75 then .dot4E4m3 (field w 21 3) (field w 14 7) (field w 7 7) (field w 0 7)
  else if op = 0x76 then .dot4E5m2 (field w 21 3) (field w 14 7) (field w 7 7) (field w 0 7)
  else if op = 0x77 then .dot2Bf16 (field w 21 3) (field w 14 7) (field w 7 7) (field w 0 7)
  else if op = 0x78 then .idp4I8 (field w 21 3) (field w 14 7) (field w 7 7) (field w 0 7)
  else if op = 0x79 then .frcp (field w 21 3) (field w 14 7) (field w 7 7)
  else if op = 0x7A then .frsq (field w 21 3) (field w 14 7) (field w 7 7)
  else if op = 0x7B then .fsqrt (field w 21 3) (field w 14 7) (field w 7 7)
  else if op = 0x7C then .fexp2 (field w 21 3) (field w 14 7) (field w 7 7)
  else if op = 0x7D then .flog2 (field w 21 3) (field w 14 7) (field w 7 7)
  else if op = 0x7E then .fsinp (field w 21 3) (field w 14 7) (field w 7 7)
  else if op = 0x7F then .fcosp (field w 21 3) (field w 14 7) (field w 7 7)
  else if op = 0x80 then .twid (field w 21 3) (field w 14 7) (field w 7 7) (field w 0 7)
  else if op = 0x81 then .bfly2 (field w 21 3) (field w 14 7) (field w 7 7) (field w 0 7)
  else if op = 0x82 then .cmul (field w 21 3) (field w 14 7) (field w 7 7) (field w 0 7)
  else if op = 0x83 then .cmad (field w 21 3) (field w 14 7) (field w 7 7) (field w 0 7)
  else if op = 0x84 then .fredadd (field w 21 3) (field w 14 7) (field w 7 7)
  else if op = 0x85 then .fredmax (field w 21 3) (field w 14 7) (field w 7 7)
  else if op = 0x86 then .fredmin (field w 21 3) (field w 14 7) (field w 7 7)
  else .illegalEncoding w

/-- Opcodes 0x90 to 0x9F: group control flow (03 R74). -/
def decodeControl (w : BitVec 32) (op : Nat) : Instr :=
  if op = 0x90 then .br (field w 21 3) (field w 0 21)
  else if op = 0x91 then .bru (field w 21 3) (field w 0 21)
  else if op = 0x92 then .brx (field w 21 3) (field w 7 7)
  else if op = 0x93 then .join
  else if op = 0x94 then .waitj (field w 21 3) (field w 0 14)
  else if op = 0x95 then .call (field w 21 3) (field w 0 21)
  else if op = 0x96 then .ret
  else if op = 0x97 then .loop (field w 22 2) (field w 15 7) (field w 0 15)
  else if op = 0x98 then .loops (field w 22 2) (field w 15 7) (field w 13 2) (field w 0 13)
  else if op = 0x99 then .rot (field w 14 7) (field w 0 7)
  else if op = 0x9A then .lbrk (field w 21 3)
  else if op = 0x9B then .lsave (field w 7 7)
  else if op = 0x9C then .lrest (field w 7 7)
  else if op = 0x9D then .dqpop (field w 21 3) (field w 14 7)
  else if op = 0x9E then .exit
  else if op = 0x9F then .yield
  else .illegalEncoding w

/-- Opcodes 0xA0 to 0xA9: memory (03 R74). -/
def decodeMemory (w : BitVec 32) (op : Nat) : Instr :=
  if op = 0xA0 then .ldp (field w 21 3) (field w 14 7) (field w 7 7) (field w 5 2) (field w 3 2) (field w 2 1) (field w 0 2)
  else if op = 0xA1 then .stp (field w 21 3) (field w 14 7) (field w 7 7) (field w 5 2) (field w 3 2) (field w 2 1) (field w 0 2)
  else if op = 0xA2 then .atp (field w 21 3) (field w 14 7) (field w 7 7) (field w 3 4) (field w 2 1) (field w 0 2)
  else if op = 0xA3 then .stg (field w 21 3) (field w 14 7) (field w 7 7) (field w 5 2) (field w 2 3) (field w 0 2)
  else if op = 0xA4 then .atg (field w 21 3) (field w 14 7) (field w 7 7) (field w 3 4) (field w 2 1) (field w 0 2)
  else if op = 0xA5 then .drainst (field w 21 3)
  else if op = 0xA6 then .fence (field w 21 3) (field w 2 3) (field w 0 2)
  else if op = 0xA7 then .invr (field w 21 3) (field w 14 7) (field w 7 7) (field w 0 2)
  else if op = 0xA8 then .afence (field w 21 3)
  else if op = 0xA9 then .pfill (field w 21 3) (field w 14 7) (field w 7 7) (field w 2 1)
  else .illegalEncoding w

/-- Opcodes 0xB0 to 0xB9: copy engine (03 R74). -/
def decodeCopy (w : BitVec 32) (op : Nat) : Instr :=
  if op = 0xB0 then .tcopy (field w 21 3) (field w 15 6) (field w 9 6)
  else if op = 0xB1 then .tcopym (field w 21 3) (field w 15 6) (field w 9 6)
  else if op = 0xB2 then .tfill (field w 21 3) (field w 15 6) (field w 9 6)
  else if op = 0xB3 then .tslot (field w 21 3) (field w 15 6) (field w 9 6)
  else if op = 0xB4 then .tstore (field w 21 3) (field w 15 6) (field w 9 6)
  else if op = 0xB5 then .tgather (field w 21 3) (field w 15 6) (field w 9 6)
  else if op = 0xB6 then .tscatter (field w 21 3) (field w 15 6) (field w 9 6)
  else if op = 0xB7 then .tstream (field w 21 3) (field w 15 6) (field w 9 6)
  else if op = 0xB8 then .twait (field w 21 3) (field w 0 9)
  else if op = 0xB9 then .tquery (field w 21 3) (field w 15 6) (field w 0 9)
  else .illegalEncoding w

/-- Opcodes 0xC0 to 0xC8: matrix (03 R74). -/
def decodeMatrix (w : BitVec 32) (op : Nat) : Instr :=
  if op = 0xC0 then .mclaim (field w 21 3) (field w 14 7) (field w 0 14)
  else if op = 0xC1 then .mrel (field w 21 3) (field w 7 7) (field w 0 7)
  else if op = 0xC2 then .mma (field w 21 3) (field w 15 6) (field w 9 6) (field w 5 4) (field w 2 3) (field w 1 1) (field w 0 1)
  else if op = 0xC3 then .mfence (field w 21 3) (field w 0 6)
  else if op = 0xC4 then .accld (field w 21 3) (field w 14 7) (field w 7 7) (field w 4 3) (field w 0 4)
  else if op = 0xC5 then .accst (field w 21 3) (field w 14 7) (field w 7 7) (field w 4 3) (field w 0 4)
  else if op = 0xC6 then .accz (field w 21 3) (field w 4 3) (field w 0 4)
  else if op = 0xC7 then .accwait (field w 21 3) (field w 0 14)
  else if op = 0xC8 then .mquery (field w 21 3) (field w 14 7) (field w 8 6) (field w 0 2)
  else .illegalEncoding w

/-- Opcodes 0xD0 to 0xDE: barrier and job (03 R74). -/
def decodeBarrier (w : BitVec 32) (op : Nat) : Instr :=
  if op = 0xD0 then .binit (field w 21 3) (field w 15 6) (field w 7 1) (field w 6 1) (field w 0 6)
  else if op = 0xD1 then .bjoin (field w 21 3) (field w 0 6)
  else if op = 0xD2 then .bleave (field w 21 3) (field w 0 6)
  else if op = 0xD3 then .barr (field w 21 3) (field w 15 6) (field w 0 6)
  else if op = 0xD4 then .bwait (field w 21 3) (field w 15 6) (field w 9 6)
  else if op = 0xD5 then .barrw (field w 21 3) (field w 15 6) (field w 0 6)
  else if op = 0xD6 then .btwait (field w 21 3) (field w 15 6) (field w 9 6) (field w 0 9)
  else if op = 0xD7 then .bexpect (field w 21 3) (field w 15 6) (field w 9 6)
  else if op = 0xD8 then .bquery (field w 21 3) (field w 15 6) (field w 9 6) (field w 8 1) (field w 0 3)
  else if op = 0xD9 then .jenq (field w 21 3) (field w 15 6) (field w 9 6) (field w 0 6)
  else if op = 0xDA then .jspawn (field w 21 3) (field w 15 6) (field w 9 6)
  else if op = 0xDB then .jdone (field w 21 3) (field w 15 6)
  else if op = 0xDC then .jyield (field w 21 3)
  else if op = 0xDD then .waitw (field w 21 3) (field w 15 6) (field w 9 6)
  else if op = 0xDE then .jself (field w 21 3) (field w 15 6) (field w 8 1) (field w 0 4)
  else .illegalEncoding w

/-- Opcodes 0xE0 to 0xE4: link messaging (03 R74). -/
def decodeLink (w : BitVec 32) (op : Nat) : Instr :=
  if op = 0xE0 then .msend (field w 21 3) (field w 15 6) (field w 9 6) (field w 7 1) (field w 6 1) (field w 0 6)
  else if op = 0xE1 then .mrecv (field w 21 3) (field w 15 6) (field w 9 6) (field w 7 1) (field w 6 1) (field w 0 6)
  else if op = 0xE2 then .mprobe (field w 21 3) (field w 15 6) (field w 9 6)
  else if op = 0xE3 then .mcancel (field w 21 3) (field w 15 6)
  else if op = 0xE4 then .mwake (field w 21 3) (field w 15 6) (field w 9 6) (field w 7 1) (field w 6 1) (field w 0 6)
  else .illegalEncoding w

/-- Opcodes 0xE8 to 0xEF: system, page and debug (03 R74). -/
def decodeSystem (w : BitVec 32) (op : Nat) : Instr :=
  if op = 0xE8 then .trap (field w 21 3) (field w 15 6) (field w 0 9)
  else if op = 0xE9 then .bkpt (field w 21 3) (field w 15 6) (field w 0 9)
  else if op = 0xEA then .greplay (field w 21 3) (field w 15 6) (field w 0 1)
  else if op = 0xEB then .gkill (field w 21 3) (field w 15 6)
  else if op = 0xEC then .gstate (field w 21 3) (field w 15 6) (field w 9 6) (field w 7 2) (field w 0 7)
  else if op = 0xED then .pgprobe (field w 21 3) (field w 15 6) (field w 9 6)
  else if op = 0xEE then .pgmig (field w 21 3) (field w 15 6) (field w 9 6) (field w 8 1) (field w 0 6)
  else if op = 0xEF then .pgscrub (field w 21 3) (field w 15 6)
  else .illegalEncoding w

/-- Opcodes 0xF0 to 0xF3: hints (03 R74). -/
def decodeHint (w : BitVec 32) (op : Nat) : Instr :=
  if op = 0xF0 then .clause (field w 12 12) (field w 8 4) (field w 4 4) (field w 0 4)
  else if op = 0xF1 then .lit (field w 0 24)
  else if op = 0xF2 then .mod (field w 3 1) (field w 2 1) (field w 0 2)
  else if op = 0xF3 then .prio (field w 0 2)
  else .illegalEncoding w

/-- The instruction a 32-bit word stands for (03 R74, R75). -/
def decodeWord (w : BitVec 32) : Instr :=
  let op := opcodeOf w
  if op < 0x30 then decodeScalar w op
  else if op < 0x47 then decodeVectorA w op
  else if op < 0x60 then decodeVectorB w op
  else if op < 0x75 then decodeFloatA w op
  else if op < 0x90 then decodeFloatB w op
  else if op < 0xA0 then decodeControl w op
  else if op < 0xB0 then decodeMemory w op
  else if op < 0xC0 then decodeCopy w op
  else if op < 0xD0 then decodeMatrix w op
  else if op < 0xE0 then decodeBarrier w op
  else if op < 0xE8 then decodeLink w op
  else if op < 0xF0 then decodeSystem w op
  else if op < 0xF4 then decodeHint w op
  else .definedHint w

/-- Why bytes are no instruction word. -/
inductive DecodeError where
  /-- Fewer than four bytes: an instruction word is 32 bits (00 R3). -/
  | tooShort
  deriving DecidableEq, Repr

/-- The 32-bit word of four bytes, the lowest address first (00 R3). -/
def wordOfBytes (b0 b1 b2 b3 : Byte) : BitVec 32 := b3 ++ b2 ++ b1 ++ b0

/-- Decode the first instruction of a byte sequence; the rest is returned with it. -/
def decode : List Byte → Except DecodeError (Instr × List Byte)
  | b0 :: b1 :: b2 :: b3 :: rest => .ok (decodeWord (wordOfBytes b0 b1 b2 b3), rest)
  | _ => .error .tooShort

/-- The bytes of a word as the device stores them (00 R3). -/
def bytesOfWord (w : BitVec 32) : List Byte :=
  [w.extractLsb' 0 8, w.extractLsb' 8 8, w.extractLsb' 16 8, w.extractLsb' 24 8]

/-- The words of an instruction, from the formats of 03 R64 to R67; a step of the device has none. -/
def encode : Instr → List (BitVec 32)
  | .sadd d a b w => [(0x01#8 ++ d ++ a ++ b ++ w ++ 0#5 : BitVec 32)]
  | .ssub d a b w => [(0x02#8 ++ d ++ a ++ b ++ w ++ 0#5 : BitVec 32)]
  | .smul d a b w => [(0x03#8 ++ d ++ a ++ b ++ w ++ 0#5 : BitVec 32)]
  | .smulh d a b w u => [(0x04#8 ++ d ++ a ++ b ++ w ++ 0#4 ++ u : BitVec 32)]
  | .sand d a b w => [(0x05#8 ++ d ++ a ++ b ++ w ++ 0#5 : BitVec 32)]
  | .sor d a b w => [(0x06#8 ++ d ++ a ++ b ++ w ++ 0#5 : BitVec 32)]
  | .sxor d a b w => [(0x07#8 ++ d ++ a ++ b ++ w ++ 0#5 : BitVec 32)]
  | .sshl d a b w i => [(0x08#8 ++ d ++ a ++ b ++ w ++ i : BitVec 32)]
  | .sshr d a b w i => [(0x09#8 ++ d ++ a ++ b ++ w ++ i : BitVec 32)]
  | .ssar d a b w i => [(0x0A#8 ++ d ++ a ++ b ++ w ++ i : BitVec 32)]
  | .smin d a b w u => [(0x0B#8 ++ d ++ a ++ b ++ w ++ 0#4 ++ u : BitVec 32)]
  | .smax d a b w u => [(0x0C#8 ++ d ++ a ++ b ++ w ++ 0#4 ++ u : BitVec 32)]
  | .scmp p a b w c => [(0x0D#8 ++ p ++ 0#3 ++ a ++ b ++ w ++ 0#1 ++ c : BitVec 32)]
  | .ssel d a b p => [(0x0E#8 ++ d ++ a ++ b ++ 0#3 ++ p : BitVec 32)]
  | .sclz d a w => [(0x0F#8 ++ d ++ a ++ 0#6 ++ w ++ 0#5 : BitVec 32)]
  | .spop d a w => [(0x10#8 ++ d ++ a ++ 0#6 ++ w ++ 0#5 : BitVec 32)]
  | .saddi d i => [(0x11#8 ++ d ++ i : BitVec 32)]
  | .sli d i => [(0x12#8 ++ d ++ i : BitVec 32)]
  | .slih d i => [(0x13#8 ++ d ++ i : BitVec 32)]
  | .sldp d a w s => [(0x14#8 ++ d ++ a ++ 0#6 ++ w ++ s ++ 0#3 : BitVec 32)]
  | .sstp a b w => [(0x15#8 ++ 0#6 ++ a ++ b ++ w ++ 0#4 : BitVec 32)]
  | .sj o => [(0x16#8 ++ 0#6 ++ o : BitVec 32)]
  | .sbz a o => [(0x17#8 ++ a ++ o : BitVec 32)]
  | .sbnz a o => [(0x18#8 ++ a ++ o : BitVec 32)]
  | .scall o => [(0x19#8 ++ 0#6 ++ o : BitVec 32)]
  | .sret => [(0x1A#8 ++ 0#24 : BitVec 32)]
  | .stime d => [(0x1B#8 ++ d ++ 0#18 : BitVec 32)]
  | .smfsy d n => [(0x1C#8 ++ d ++ n : BitVec 32)]
  | .smtsy a n => [(0x1D#8 ++ a ++ n : BitVec 32)]
  | .sexit => [(0x1E#8 ++ 0#24 : BitVec 32)]
  | .dqpush p a => [(0x1F#8 ++ p ++ a ++ 0#15 : BitVec 32)]
  | .swait m => [(0x20#8 ++ 0#6 ++ m : BitVec 32)]
  | .vadd g d a b => [(0x30#8 ++ g ++ d ++ a ++ b : BitVec 32)]
  | .vsub g d a b => [(0x31#8 ++ g ++ d ++ a ++ b : BitVec 32)]
  | .vmul g d a b => [(0x32#8 ++ g ++ d ++ a ++ b : BitVec 32)]
  | .vmulhI g d a b => [(0x33#8 ++ g ++ d ++ a ++ b : BitVec 32)]
  | .vmulhN g d a b => [(0x34#8 ++ g ++ d ++ a ++ b : BitVec 32)]
  | .vmad g d a b => [(0x35#8 ++ g ++ d ++ a ++ b : BitVec 32)]
  | .vand g d a b => [(0x36#8 ++ g ++ d ++ a ++ b : BitVec 32)]
  | .vor g d a b => [(0x37#8 ++ g ++ d ++ a ++ b : BitVec 32)]
  | .vxor g d a b => [(0x38#8 ++ g ++ d ++ a ++ b : BitVec 32)]
  | .vandn g d a b => [(0x39#8 ++ g ++ d ++ a ++ b : BitVec 32)]
  | .vshl g d a b => [(0x3A#8 ++ g ++ d ++ a ++ b : BitVec 32)]
  | .vshr g d a b => [(0x3B#8 ++ g ++ d ++ a ++ b : BitVec 32)]
  | .vsar g d a b => [(0x3C#8 ++ g ++ d ++ a ++ b : BitVec 32)]
  | .vminI g d a b => [(0x3D#8 ++ g ++ d ++ a ++ b : BitVec 32)]
  | .vminN g d a b => [(0x3E#8 ++ g ++ d ++ a ++ b : BitVec 32)]
  | .vmaxI g d a b => [(0x3F#8 ++ g ++ d ++ a ++ b : BitVec 32)]
  | .vmaxN g d a b => [(0x40#8 ++ g ++ d ++ a ++ b : BitVec 32)]
  | .vabs g d a => [(0x41#8 ++ g ++ d ++ a ++ 0#7 : BitVec 32)]
  | .vclz g d a => [(0x42#8 ++ g ++ d ++ a ++ 0#7 : BitVec 32)]
  | .vpop g d a => [(0x43#8 ++ g ++ d ++ a ++ 0#7 : BitVec 32)]
  | .vbrev g d a => [(0x44#8 ++ g ++ d ++ a ++ 0#7 : BitVec 32)]
  | .vbfe g d a b => [(0x45#8 ++ g ++ d ++ a ++ b : BitVec 32)]
  | .vbfi g d a b => [(0x46#8 ++ g ++ d ++ a ++ b : BitVec 32)]
  | .vaddi g d a i => [(0x47#8 ++ g ++ d ++ a ++ i : BitVec 32)]
  | .vli g d i => [(0x48#8 ++ g ++ d ++ i : BitVec 32)]
  | .vmov g d a => [(0x49#8 ++ g ++ d ++ a ++ 0#7 : BitVec 32)]
  | .vcmp g p c a b => [(0x4A#8 ++ g ++ p ++ c ++ a ++ b : BitVec 32)]
  | .vsel s d a b => [(0x4B#8 ++ s ++ d ++ a ++ b : BitVec 32)]
  | .vlane g d => [(0x4C#8 ++ g ++ d ++ 0#14 : BitVec 32)]
  | .vshflIdx g d a b => [(0x4D#8 ++ g ++ d ++ a ++ b : BitVec 32)]
  | .vshflUp g d a b => [(0x4E#8 ++ g ++ d ++ a ++ b : BitVec 32)]
  | .vshflDown g d a b => [(0x4F#8 ++ g ++ d ++ a ++ b : BitVec 32)]
  | .vshflXor g d a b => [(0x50#8 ++ g ++ d ++ a ++ b : BitVec 32)]
  | .vballot g d p => [(0x51#8 ++ g ++ d ++ 0#4 ++ p ++ 0#7 : BitVec 32)]
  | .vvote g p f a => [(0x52#8 ++ g ++ p ++ f ++ 0#4 ++ a ++ 0#7 : BitVec 32)]
  | .vredadd g d a => [(0x53#8 ++ g ++ d ++ a ++ 0#7 : BitVec 32)]
  | .vredmin g d a u => [(0x54#8 ++ g ++ d ++ a ++ 0#6 ++ u : BitVec 32)]
  | .vredmax g d a u => [(0x55#8 ++ g ++ d ++ a ++ 0#6 ++ u : BitVec 32)]
  | .vscan g d a u x o => [(0x56#8 ++ g ++ d ++ a ++ 0#3 ++ u ++ x ++ o : BitVec 32)]
  | .pand g p a b => [(0x57#8 ++ g ++ p ++ 0#8 ++ a ++ 0#4 ++ b : BitVec 32)]
  | .por g p a b => [(0x58#8 ++ g ++ p ++ 0#8 ++ a ++ 0#4 ++ b : BitVec 32)]
  | .pxor g p a b => [(0x59#8 ++ g ++ p ++ 0#8 ++ a ++ 0#4 ++ b : BitVec 32)]
  | .pnot g p a => [(0x5A#8 ++ g ++ p ++ 0#8 ++ a ++ 0#7 : BitVec 32)]
  | .vmfsy g d h c n => [(0x5B#8 ++ g ++ d ++ h ++ c ++ n : BitVec 32)]
  | .vtime g d h => [(0x5C#8 ++ g ++ d ++ 0#13 ++ h : BitVec 32)]
  | .fadd g d a b => [(0x60#8 ++ g ++ d ++ a ++ b : BitVec 32)]
  | .fsub g d a b => [(0x61#8 ++ g ++ d ++ a ++ b : BitVec 32)]
  | .fmul g d a b => [(0x62#8 ++ g ++ d ++ a ++ b : BitVec 32)]
  | .ffma g d a b => [(0x63#8 ++ g ++ d ++ a ++ b : BitVec 32)]
  | .ffms g d a b => [(0x64#8 ++ g ++ d ++ a ++ b : BitVec 32)]
  | .fnma g d a b => [(0x65#8 ++ g ++ d ++ a ++ b : BitVec 32)]
  | .fmin g d a b => [(0x66#8 ++ g ++ d ++ a ++ b : BitVec 32)]
  | .fmax g d a b => [(0x67#8 ++ g ++ d ++ a ++ b : BitVec 32)]
  | .fabs g d a => [(0x68#8 ++ g ++ d ++ a ++ 0#7 : BitVec 32)]
  | .fneg g d a => [(0x69#8 ++ g ++ d ++ a ++ 0#7 : BitVec 32)]
  | .fcmp g p c a b => [(0x6A#8 ++ g ++ p ++ c ++ a ++ b : BitVec 32)]
  | .fclass g d a => [(0x6B#8 ++ g ++ d ++ a ++ 0#7 : BitVec 32)]
  | .fround g d a x => [(0x6C#8 ++ g ++ d ++ a ++ 0#6 ++ x : BitVec 32)]
  | .cvt g d a o n => [(0x6D#8 ++ g ++ d ++ a ++ o ++ n : BitVec 32)]
  | .cvtx g d a b => [(0x6E#8 ++ g ++ d ++ a ++ b : BitVec 32)]
  | .hadd2F16 g d a b => [(0x6F#8 ++ g ++ d ++ a ++ b : BitVec 32)]
  | .hmul2F16 g d a b => [(0x70#8 ++ g ++ d ++ a ++ b : BitVec 32)]
  | .hfma2F16 g d a b => [(0x71#8 ++ g ++ d ++ a ++ b : BitVec 32)]
  | .hadd2Bf16 g d a b => [(0x72#8 ++ g ++ d ++ a ++ b : BitVec 32)]
  | .hmul2Bf16 g d a b => [(0x73#8 ++ g ++ d ++ a ++ b : BitVec 32)]
  | .hfma2Bf16 g d a b => [(0x74#8 ++ g ++ d ++ a ++ b : BitVec 32)]
  | .dot4E4m3 g d a b => [(0x75#8 ++ g ++ d ++ a ++ b : BitVec 32)]
  | .dot4E5m2 g d a b => [(0x76#8 ++ g ++ d ++ a ++ b : BitVec 32)]
  | .dot2Bf16 g d a b => [(0x77#8 ++ g ++ d ++ a ++ b : BitVec 32)]
  | .idp4I8 g d a b => [(0x78#8 ++ g ++ d ++ a ++ b : BitVec 32)]
  | .frcp g d a => [(0x79#8 ++ g ++ d ++ a ++ 0#7 : BitVec 32)]
  | .frsq g d a => [(0x7A#8 ++ g ++ d ++ a ++ 0#7 : BitVec 32)]
  | .fsqrt g d a => [(0x7B#8 ++ g ++ d ++ a ++ 0#7 : BitVec 32)]
  | .fexp2 g d a => [(0x7C#8 ++ g ++ d ++ a ++ 0#7 : BitVec 32)]
  | .flog2 g d a => [(0x7D#8 ++ g ++ d ++ a ++ 0#7 : BitVec 32)]
  | .fsinp g d a => [(0x7E#8 ++ g ++ d ++ a ++ 0#7 : BitVec 32)]
  | .fcosp g d a => [(0x7F#8 ++ g ++ d ++ a ++ 0#7 : BitVec 32)]
  | .twid g d a b => [(0x80#8 ++ g ++ d ++ a ++ b : BitVec 32)]
  | .bfly2 g d a b => [(0x81#8 ++ g ++ d ++ a ++ b : BitVec 32)]
  | .cmul g d a b => [(0x82#8 ++ g ++ d ++ a ++ b : BitVec 32)]
  | .cmad g d a b => [(0x83#8 ++ g ++ d ++ a ++ b : BitVec 32)]
  | .fredadd g d a => [(0x84#8 ++ g ++ d ++ a ++ 0#7 : BitVec 32)]
  | .fredmax g d a => [(0x85#8 ++ g ++ d ++ a ++ 0#7 : BitVec 32)]
  | .fredmin g d a => [(0x86#8 ++ g ++ d ++ a ++ 0#7 : BitVec 32)]
  | .br c o => [(0x90#8 ++ c ++ o : BitVec 32)]
  | .bru c o => [(0x91#8 ++ c ++ o : BitVec 32)]
  | .brx g a => [(0x92#8 ++ g ++ 0#7 ++ a ++ 0#7 : BitVec 32)]
  | .join => [(0x93#8 ++ 0#24 : BitVec 32)]
  | .waitj p t => [(0x94#8 ++ p ++ 0#7 ++ t : BitVec 32)]
  | .call c o => [(0x95#8 ++ c ++ o : BitVec 32)]
  | .ret => [(0x96#8 ++ 0#24 : BitVec 32)]
  | .loop l c e => [(0x97#8 ++ l ++ c ++ e : BitVec 32)]
  | .loops l c s e => [(0x98#8 ++ l ++ c ++ s ++ e : BitVec 32)]
  | .rot b n => [(0x99#8 ++ 0#3 ++ b ++ 0#7 ++ n : BitVec 32)]
  | .lbrk g => [(0x9A#8 ++ g ++ 0#21 : BitVec 32)]
  | .lsave a => [(0x9B#8 ++ 0#10 ++ a ++ 0#7 : BitVec 32)]
  | .lrest a => [(0x9C#8 ++ 0#10 ++ a ++ 0#7 : BitVec 32)]
  | .dqpop g d => [(0x9D#8 ++ g ++ d ++ 0#14 : BitVec 32)]
  | .exit => [(0x9E#8 ++ 0#24 : BitVec 32)]
  | .yield => [(0x9F#8 ++ 0#24 : BitVec 32)]
  | .ldp g d a w m x s => [(0xA0#8 ++ g ++ d ++ a ++ w ++ m ++ x ++ s : BitVec 32)]
  | .stp g v a w q x c => [(0xA1#8 ++ g ++ v ++ a ++ w ++ q ++ x ++ c : BitVec 32)]
  | .atp g d a o q s => [(0xA2#8 ++ g ++ d ++ a ++ o ++ q ++ s : BitVec 32)]
  | .stg g v a w q c => [(0xA3#8 ++ g ++ v ++ a ++ w ++ q ++ c : BitVec 32)]
  | .atg g d a o q s => [(0xA4#8 ++ g ++ d ++ a ++ o ++ q ++ s : BitVec 32)]
  | .drainst g => [(0xA5#8 ++ g ++ 0#21 : BitVec 32)]
  | .fence g q s => [(0xA6#8 ++ g ++ 0#16 ++ q ++ s : BitVec 32)]
  | .invr g n a s => [(0xA7#8 ++ g ++ n ++ a ++ 0#5 ++ s : BitVec 32)]
  | .afence g => [(0xA8#8 ++ g ++ 0#21 : BitVec 32)]
  | .pfill g n a x => [(0xA9#8 ++ g ++ n ++ a ++ 0#4 ++ x ++ 0#2 : BitVec 32)]
  | .tcopy p a b => [(0xB0#8 ++ p ++ a ++ b ++ 0#9 : BitVec 32)]
  | .tcopym p a b => [(0xB1#8 ++ p ++ a ++ b ++ 0#9 : BitVec 32)]
  | .tfill p a b => [(0xB2#8 ++ p ++ a ++ b ++ 0#9 : BitVec 32)]
  | .tslot p a b => [(0xB3#8 ++ p ++ a ++ b ++ 0#9 : BitVec 32)]
  | .tstore p a b => [(0xB4#8 ++ p ++ a ++ b ++ 0#9 : BitVec 32)]
  | .tgather p a b => [(0xB5#8 ++ p ++ a ++ b ++ 0#9 : BitVec 32)]
  | .tscatter p a b => [(0xB6#8 ++ p ++ a ++ b ++ 0#9 : BitVec 32)]
  | .tstream p a b => [(0xB7#8 ++ p ++ a ++ b ++ 0#9 : BitVec 32)]
  | .twait g n => [(0xB8#8 ++ g ++ 0#12 ++ n : BitVec 32)]
  | .tquery g d s => [(0xB9#8 ++ g ++ d ++ 0#6 ++ s : BitVec 32)]
  | .mclaim p d n => [(0xC0#8 ++ p ++ d ++ n : BitVec 32)]
  | .mrel g a n => [(0xC1#8 ++ g ++ 0#7 ++ a ++ n : BitVec 32)]
  | .mma p a b t m c s => [(0xC2#8 ++ p ++ a ++ b ++ t ++ m ++ c ++ s : BitVec 32)]
  | .mfence g b => [(0xC3#8 ++ g ++ 0#15 ++ b : BitVec 32)]
  | .accld g d a m t => [(0xC4#8 ++ g ++ d ++ a ++ m ++ t : BitVec 32)]
  | .accst g v a m t => [(0xC5#8 ++ g ++ v ++ a ++ m ++ t : BitVec 32)]
  | .accz g m t => [(0xC6#8 ++ g ++ 0#14 ++ m ++ t : BitVec 32)]
  | .accwait g n => [(0xC7#8 ++ g ++ 0#7 ++ n : BitVec 32)]
  | .mquery g d n s => [(0xC8#8 ++ g ++ d ++ n ++ 0#6 ++ s : BitVec 32)]
  | .binit g a l f n => [(0xD0#8 ++ g ++ a ++ 0#7 ++ l ++ f ++ n : BitVec 32)]
  | .bjoin g n => [(0xD1#8 ++ g ++ 0#15 ++ n : BitVec 32)]
  | .bleave g n => [(0xD2#8 ++ g ++ 0#15 ++ n : BitVec 32)]
  | .barr g d n => [(0xD3#8 ++ g ++ d ++ 0#9 ++ n : BitVec 32)]
  | .bwait p a h => [(0xD4#8 ++ p ++ a ++ h ++ 0#9 : BitVec 32)]
  | .barrw p d n => [(0xD5#8 ++ p ++ d ++ 0#9 ++ n : BitVec 32)]
  | .btwait p a h t => [(0xD6#8 ++ p ++ a ++ h ++ t : BitVec 32)]
  | .bexpect g a b => [(0xD7#8 ++ g ++ a ++ b ++ 0#9 : BitVec 32)]
  | .bquery g d a h s => [(0xD8#8 ++ g ++ d ++ a ++ h ++ 0#5 ++ s : BitVec 32)]
  | .jenq p a b q => [(0xD9#8 ++ p ++ a ++ b ++ 0#3 ++ q : BitVec 32)]
  | .jspawn p a b => [(0xDA#8 ++ p ++ a ++ b ++ 0#9 : BitVec 32)]
  | .jdone g a => [(0xDB#8 ++ g ++ a ++ 0#15 : BitVec 32)]
  | .jyield g => [(0xDC#8 ++ g ++ 0#21 : BitVec 32)]
  | .waitw g a b => [(0xDD#8 ++ g ++ a ++ b ++ 0#9 : BitVec 32)]
  | .jself g d h s => [(0xDE#8 ++ g ++ d ++ 0#6 ++ h ++ 0#4 ++ s : BitVec 32)]
  | .msend p a b r x n => [(0xE0#8 ++ p ++ a ++ b ++ 0#1 ++ r ++ x ++ n : BitVec 32)]
  | .mrecv p a b j x n => [(0xE1#8 ++ p ++ a ++ b ++ 0#1 ++ j ++ x ++ n : BitVec 32)]
  | .mprobe p d a => [(0xE2#8 ++ p ++ d ++ a ++ 0#9 : BitVec 32)]
  | .mcancel p a => [(0xE3#8 ++ p ++ a ++ 0#15 : BitVec 32)]
  | .mwake p a b r x n => [(0xE4#8 ++ p ++ a ++ b ++ 0#1 ++ r ++ x ++ n : BitVec 32)]
  | .trap g a c => [(0xE8#8 ++ g ++ a ++ 0#6 ++ c : BitVec 32)]
  | .bkpt g a c => [(0xE9#8 ++ g ++ a ++ 0#6 ++ c : BitVec 32)]
  | .greplay p a f => [(0xEA#8 ++ p ++ a ++ 0#14 ++ f : BitVec 32)]
  | .gkill p a => [(0xEB#8 ++ p ++ a ++ 0#15 : BitVec 32)]
  | .gstate g a b k i => [(0xEC#8 ++ g ++ a ++ b ++ k ++ i : BitVec 32)]
  | .pgprobe p a b => [(0xED#8 ++ p ++ a ++ b ++ 0#9 : BitVec 32)]
  | .pgmig p a b x n => [(0xEE#8 ++ p ++ a ++ b ++ x ++ 0#2 ++ n : BitVec 32)]
  | .pgscrub g a => [(0xEF#8 ++ g ++ a ++ 0#15 : BitVec 32)]
  | .clause w l a b => [(0xF0#8 ++ w ++ l ++ a ++ b : BitVec 32)]
  | .lit p => [(0xF1#8 ++ p : BitVec 32)]
  | .mod n s r => [(0xF2#8 ++ 0#20 ++ n ++ s ++ r : BitVec 32)]
  | .prio l => [(0xF3#8 ++ 0#22 ++ l : BitVec 32)]
  | .definedHint w => [w]
  | .illegalEncoding w => [w]
  | .instructionFetchFill => []
  | .registerWrite _ _ => []
  | .coldReset => []
  | .recoveryImage _ => []
  | .attestationRequest _ => []
  | .ctxOpen _ _ => []
  | .ctxSuspend _ => []
  | .ctxResume _ => []
  | .ctxClose _ => []
  | .ctxUpdate _ _ => []
  | .suspendComplete _ => []
  | .zeroingComplete _ => []
  | .faultRecordAppend _ => []
  | .faultMailboxFree => []
  | .queueSubmit _ _ => []
  | .queuePause _ => []
  | .queueUnpause _ => []
  | .queueFlush _ => []
  | .acceptanceDraw => []
  | .jobAccept _ => []
  | .jspawnResolve _ => []
  | .dispatch => []
  | .placementMailboxGo _ => []
  | .coreZeroingComplete _ => []
  | .clusterLaunch _ => []
  | .budgetExhausted _ => []
  | .clusterSave _ => []
  | .idempotentDiscard _ => []
  | .blockRetire _ => []
  | .wakeWritePerform _ => []
  | .waitwCompare _ => []
  | .activeSetRefill _ _ => []
  | .activeSetLeave _ _ => []
  | .waitjTimeout _ _ _ => []
  | .poolPortAccess _ => []
  | .poolLoadReply _ => []
  | .remoteStoreAck _ => []
  | .serviceRequestArrive _ => []
  | .serviceReply _ => []
  | .homeStore _ => []
  | .storeAck _ => []
  | .recall _ => []
  | .forwardedRead _ => []
  | .visitorFill _ => []
  | .atomicAtHome _ => []
  | .globalAtomicReply _ => []
  | .drainOrder _ => []
  | .drainAck _ => []
  | .linkBufferStore _ _ _ => []
  | .linkBufferWriteback _ => []
  | .staleGenerationReturn _ => []
  | .storeFaultReport _ => []
  | .l2splitWrite _ _ => []
  | .l2splitDone _ => []
  | .pageWalk _ => []
  | .frameOwnerZeroing _ => []
  | .walkMailboxDone _ => []
  | .walkMailboxFault => []
  | .shootdown _ _ => []
  | .shootdownComplete => []
  | .restripeCheck _ => []
  | .restripePassEnd _ => []
  | .restripeFinalCopy _ => []
  | .restripeShootdownAck _ _ => []
  | .restripeAbort _ _ => []
  | .copyDataLand _ _ _ => []
  | .copyTransferFault _ _ _ => []
  | .copyCommandComplete _ _ => []
  | .mcidReplicaUpdate _ => []
  | .mcidRelease _ _ => []
  | .streamPrefetch _ _ => []
  | .mmaStart _ => []
  | .mmaComplete _ _ => []
  | .batchArrival _ _ => []
  | .accTransferComplete _ _ => []
  | .remoteBarrierOp _ => []
  | .barrierReply _ => []
  | .childArrival _ => []
  | .phaseNotice _ => []
  | .errorArrival _ => []
  | .absWaitPoll _ => []
  | .btwaitTimeout _ _ _ => []
  | .msgHeaderArrive _ => []
  | .msgPull _ => []
  | .msgDataLand _ => []
  | .msgCompletion _ => []
  | .mwakeAck _ => []
  | .linkEnable _ => []
  | .linkQuiesce _ => []
  | .linkDisable _ => []
  | .trainingSuccess _ => []
  | .trainingFailure _ => []
  | .linkQuiesced _ => []
  | .replayLimit _ => []
  | .crcFailure _ => []
  | .timeExchange _ _ _ _ _ => []
  | .dieResetStart _ => []
  | .dieResetContinue => []
  | .dbgStop _ => []
  | .dbgRelease _ => []
  | .dbgStep _ _ _ => []
  | .dbgDump _ _ _ => []
  | .dbgWrite _ _ _ => []
  | .stepTimeout => []
  | .stopArrive _ => []
  | .traceSample _ => []
  | .millpondUpdate _ => []
  | .clockCheck => []
  | .currentLimit _ => []
  | .correctedError _ _ _ => []
  | .selftestVerdict _ _ _ _ => []
  | .selftestAccept => []
  | .currentLimitEnd _ => []
  | .peerRequest _ _ _ _ _ => []
  | .afenceDieAck _ _ => []
  | .pgscrubScanDone _ => []
  | .devnumWrite _ => []

/-- The instruction this decoder reads from a table word: 32 bits, stored as the device stores them. -/
def decodeTableWord (nbits w : Nat) : Option Instr :=
  if nbits = 32 then
    match decode (bytesOfWord (BitVec.ofNat 32 w)) with
    | .ok (i, _) => some i
    | .error _ => none
  else none

end Sys2Proof
end

