-- ==== Sys2Proof/Config.lean ====
section
/-! DEFINITION. What one device fixes and the manual does not: free values. Each is opaque, with no body, so
that no proof can learn a value of it. -/
namespace Sys2Proof

/-- A fresh value wherever the manual states no value: applied to the counter State.free, which the step
advances (log entry 3). -/
opaque Config.freeValue : Nat → DWord

/-- The data a peer device returns for a read of its exported window: device number, address, and the
counter State.free (16 R387; the peer's memory is outside the package; log entry 4). -/
opaque Config.peerByte : Nat → Nat → Nat → Byte

/-- The set of its slice that a line falls in (01 R16: a slice has 4096 sets; the manual gives no index; log entry 119). -/
opaque Config.lineSet : Nat → BitVec 12

/-- The row of an HBM channel that holds a byte of it, as the index of a row under self-test numbers rows (18 R426; the
manual gives no such number; log entry 98). -/
opaque Config.hbmRow : Nat → BitVec 10

/-- The offset in the host-link register space of a page that a privileged context has mapped as its command page, by
context and physical address in the host tier (04 R88, 05 R116, 15 R366, 17 R405; log entry 83). -/
opaque Config.commandPage : Nat → Nat → Option Nat

/-- How many links lie between a fabric link and the time master (16 R399: the manual gives no measure; log entry 133). -/
opaque Config.masterHops : Nat → Nat

/-- The boot ROM's LMS over SHA-256 check of a firmware image (18 R430; log entry 5). -/
opaque Config.imageSigned : List Byte → Bool

/-- The SHA-256 hash of a firmware image in an attestation report (18 R431; log entry 5). -/
opaque Config.imageHash : List Byte → BitVec 256

/-- The identity fused at manufacture (18 R431; log entry 5). -/
opaque Config.identity : BitVec 256

/-- The one-time LMS signature of a report under a key index (18 R431; log entry 5). -/
opaque Config.lmsSign : Nat → List Byte → List Byte

end Sys2Proof
end

