-- ==== Sys2Proof/Machine/Table.lean ====
section
/-! DEFINITION. Finite maps from numbers to data in one canonical form: a list of pairs with strictly rising
keys. Every memory, register file and set of numbered objects of the state is one. -/
namespace Sys2Proof.Machine

/-- A map from numbers, as pairs with strictly rising keys. -/
abbrev Table (α : Type) := List (Nat × α)

/-- The entry of a key, if it is listed. -/
def tfind {α : Type} (k : Nat) : Table α → Option α
  | [] => none
  | (k', v) :: r => if k = k' then some v else tfind k r

/-- Put an entry, keeping the keys strictly rising. -/
def tput {α : Type} (k : Nat) (v : α) : Table α → Table α
  | [] => [(k, v)]
  | (k', v') :: r =>
    if k < k' then (k, v) :: (k', v') :: r
    else if k = k' then (k, v) :: r
    else (k', v') :: tput k v r

/-- Remove a key. -/
def tdel {α : Type} (k : Nat) : Table α → Table α
  | [] => []
  | (k', v) :: r => if k = k' then r else (k', v) :: tdel k r

/-- Read a total map: an unlisted key reads as the default. -/
def tgetD {α : Type} (d : α) (k : Nat) (t : Table α) : α := (tfind k t).getD d

/-- Write a total map: writing the default removes the entry, so that equal maps are equal lists. -/
def tputD {α : Type} [DecidableEq α] (d : α) (k : Nat) (v : α) (t : Table α) : Table α :=
  if v = d then tdel k t else tput k v t

/-- Change the entry of a key, if it is listed. -/
def tmod {α : Type} (k : Nat) (f : α → α) (t : Table α) : Table α :=
  match tfind k t with
  | some v => tput k (f v) t
  | none => t

/-- The keys are strictly rising and every one is at least the bound. -/
def Table.sortedFrom {α : Type} : Nat → Table α → Bool
  | _, [] => true
  | b, (k, _) :: r => b ≤ k && Table.sortedFrom (k + 1) r

/-- The canonical form of a total map: keys strictly rising, no entry equal to the default. -/
def Table.wf {α : Type} [DecidableEq α] (d : α) (t : Table α) : Bool :=
  Table.sortedFrom 0 t && t.all fun e => e.2 ≠ d

end Sys2Proof.Machine
end

