-- ==== Sys2Proof/Machine/State.lean ====
section
/-! DEFINITION. The state of one Ochar X4 package: every piece of state the manual names, as plain data
(INVENTORY.md lists them with their rules), and the machine right after a cold reset. -/
namespace Sys2Proof.Machine

/-! ## Threads, waits and the unit being issued (03 R77, 07 R162 to R195) -/

/-- A thread of a block: its front-end or one of its groups (10 R243). -/
inductive Who where
  | fe
  | grp (g : Nat)
  deriving DecidableEq, Repr

/-- A thread of the package, by the core its block lies on. -/
structure Thread where
  core : Nat
  who : Who
  deriving DecidableEq, Repr

/-- What issues: a thread, and for a group one of its splits (07 R164). -/
structure Agent where
  core : Nat
  who : Who
  split : Nat
  deriving DecidableEq, Repr

/-- The prefixes already issued of the current unit, and the PC of its first word (03 R77). -/
structure Pre where
  lit : Option (BitVec 24) := none
  mod : Option (BitVec 24) := none
  start : Option Word := none
  deriving DecidableEq, Repr

/-- An open clause: words left, its two flags, and whether its first long-latency operation is still to come
(03 R78). -/
structure Clause where
  left : Nat
  flagA : BitVec 4
  flagB : BitVec 4
  first : Bool
  deriving DecidableEq, Repr

/-- What a thread or split waits for after issue (07 R164, 10 R243). -/
inductive Wait where
  | none
  /-- The full-empty wait of an LDP, by its pool instruction (11 R276). -/
  | fullEmpty (inst : Nat)
  /-- A pool access that completes before the split issues again: LSAVE, LREST (07 R194). -/
  | poolInst (inst : Nat)
  /-- The reply of GSTATE, GREPLAY or GKILL (04 R110). -/
  | service (id : Nat)
  /-- The acknowledgement of a barrier operation on another core (14 R342). -/
  | barrierReply (id : Nat)
  /-- BWAIT, BTWAIT or BARRW: object, phase, predicate, the cycle at which a BTWAIT expires (14 R357), and the verdict that
  the notice of the phase's completion has brought (14 R346). -/
  | barrier (addr : Word) (phase : Word) (pd : BitVec 3) (expires : Option Nat) (told : Option Bool)
  /-- DQPOP: destination, the order in which it issued, and its completion flag (07 R172, R177). -/
  | dqpop (vd : Nat) (ticket : Nat) (flag : Option Nat)
  /-- WAITW, by its comparison (05 R145). -/
  | waitw (id : Nat)
  /-- WAITJ: predicate and the cycle at which it expires (07 R184). -/
  | waitj (pd : BitVec 3) (expires : Nat)
  /-- ATG: the group issues nothing until every lane is performed or has faulted (11 R283). -/
  | atg (inst : Nat)
  /-- The translation of a PGPROBE: address, predicate, first result register (15 R379). -/
  | walk (va : Nat) (pd : BitVec 3) (rb : Nat)
  /-- PGSCRUB (15 R381). -/
  | scrub (id : Nat)
  /-- AFENCE until every die has acknowledged (11 R294). -/
  | afence (id : Nat)
  deriving DecidableEq, Repr

/-- The run state of a thread: the states of 07 R162, with the state a stop keeps (07 R163). ready, active and
waiting are those of a group; a front-end is ready while it runs or waits (04 R453). -/
inductive Run where
  | ready
  | active
  | waiting
  | faulted
  | exited
  | killed
  deriving DecidableEq, Repr

/-- A record of the fault queue (04 R97), with the thread whose sequence number it sets (04 R101). -/
structure FaultRec where
  code : Byte
  kind : Byte
  seq : Word := 0
  gts : DWord := 0
  handle : Word := 0
  job : Word := 0
  restart : Word := 0
  pc : Word := 0
  addr : DWord := 0
  cindex : Word := 0
  member : Byte := 0
  skid : Byte := 0
  barrier : BitVec 16 := 0xFFFF
  lanes : Word := 0
  detail : Word := 0
  thread : Option Thread := Option.none
  fromService : Bool := false
  deriving DecidableEq, Repr

/-- A store-fault record (11 R287). mask: the bytes of its aligned word that it covers. -/
structure StoreFaultRec where
  pc : Word
  lanes : Word
  addr : DWord
  bytes : DWord
  code : Byte
  fm : BitVec 7
  skid : Byte
  count : Nat
  mask : Byte
  deriving DecidableEq, Repr

/-- A loop level (07 R188), in the fields of the save layout (04 R103). -/
structure LoopLevel where
  count : Word := 0
  start : Word := 0
  stop : Word := 0
  iter : Word := 0
  stages : Nat := 0
  wbase : Nat := 0
  wsize : Nat := 0
  woff : Nat := 0
  deriving DecidableEq, Repr

/-- A split (07 R178, 04 R103). -/
structure Split where
  pc : Word
  lanes : Word
  rstack : List Word := []
  levels : List LoopLevel := []
  armBase : Nat := 0
  armSize : Nat := 0
  /-- Predicates that carry the uniform property (07 R182). -/
  uniform : BitVec 8 := 1
  pre : Pre := {}
  clause : Option Clause := Option.none
  wait : Wait := Wait.none
  /-- The cycle at which the wait, or the stall that holds the split, began (07 R165), and the address of the last word of the unit that waits. -/
  since : Nat := 0
  unitEnd : Word := 0
  /-- The stall reason for which the split is held at issue (17 R418); 0 when it is not. -/
  held : Nat := 0
  /-- The cycle in which it was last held at issue. -/
  heldAt : Nat := 0
  /-- The flags for which a CLAUSE is held (03 R78). -/
  waitMask : BitVec 12 := 0
  /-- The cycle from which it may issue again after a transfer of control or a LOOP, and the stall reason of the cycles
  before it (07 R187, R189). -/
  busyUntil : Nat := 0
  busyFor : Nat := 0
  deriving DecidableEq, Repr

/-- An entry of a group's serial stack (07 R183). -/
structure SerialEntry where
  pc : Word
  owner : Nat
  lanes : Word
  running : Bool
  deriving DecidableEq, Repr

/-- A matrix batch that is closed and has not arrived (13 R330, R331). -/
structure Batch where
  num : BitVec 16
  bar : Nat
  deriving DecidableEq, Repr

/-- A group (07 R162, 04 R103). -/
structure Group where
  run : Run := .ready
  stopped : Bool := false
  age : Nat := 0
  /-- The cycle of its last admission to an active set (07 R165). -/
  admitted : Nat := 0
  prio : BitVec 2 := 0
  gen : BitVec 5 := 0
  fault : DWord := 0
  lastRec : Option FaultRec := Option.none
  fpflags : BitVec 5 := 0
  preds : Table Word := []
  flags : Table Nat := []
  /-- Decision-queue read index Pg (07 R175). -/
  pg : Word := 0
  /-- Tickets handed to DQPOPs of the group, so that they pop in issue order (07 R177). -/
  tickets : Nat := 0
  serial : List SerialEntry := []
  splits : Table Split := []
  /-- Stall counters 1 to 16 (17 R418). -/
  stalls : Table Word := []
  /-- Register words in the layout of 04 R104. -/
  regs : Table Word := []
  sfrq : List StoreFaultRec := []
  sfOvf : Bool := false
  /-- Instructions issued, counted for the skid of a fault (11 R289), and the cycle of the last (17 R418). -/
  issued : Nat := 0
  issuedAt : Option Nat := Option.none
  /-- The split that issued last (07 R164), and the cycles for which it has been able to issue and was not chosen (03
  R81). -/
  lastSplit : Nat := 0
  passed : Nat := 0
  /-- Issue count at the event of a debug stop (17 R412). -/
  stopMark : Nat := 0
  batch : BitVec 16 := 0
  lastBatch : BitVec 16 := 0
  closed : List Batch := []
  /-- Batches of which a command completed with SLOT (13 R332). -/
  badBatches : Table Byte := []
  mmaFault : Byte := 0
  /-- The acquire that holds the group's later memory instructions, by its pool or global instruction (07 R164). -/
  acquire : Option Nat := Option.none
  /-- Killed by GKILL, or its block was (06 R161). -/
  wasKilled : Bool := false
  /-- Instructions issued of units that a fault has given back (11 R289). -/
  undone : Nat := 0
  /-- Keys of the lines its global stores have written, for AFENCE (11 R294). -/
  stored : List Nat := []
  deriving DecidableEq, Repr

/-- A front-end (04 R453, 07 R174). held, heldAt: as in a split; idem: the idempotent entry that it is inside (06 R159); lastStart: the one whose START last
issued (04 R453). -/
structure FrontEnd where
  run : Run := .ready
  stopped : Bool := false
  pc : Word := 0
  gen : BitVec 5 := 0
  fault : DWord := 0
  lastRec : Option FaultRec := Option.none
  regs : Table DWord := []
  preds : BitVec 8 := 1
  flags : Table Nat := []
  rstack : List Word := []
  pre : Pre := {}
  clause : Option Clause := Option.none
  wait : Wait := Wait.none
  unitEnd : Word := 0
  held : Nat := 0
  heldAt : Nat := 0
  snapshot : Table DWord := []
  idem : Option Nat := Option.none
  lastStart : Option Nat := Option.none
  stalls : Table Word := []
  issued : Nat := 0
  issuedAt : Option Nat := Option.none
  stopMark : Nat := 0
  deriving DecidableEq, Repr

/-! ## The objects of a core -/

/-- A barrier object (14 R341). touched: an arrival or credit was made in the current phase (14 R349); arrived: an
arrival was (14 R345); heldBatches: batch arrivals held for the next phase, with whether a command of the batch faulted
(14 R356), which keep the batch with its group; leaving: groups whose leave waits for their batches (14 R344); errNow: a held batch that faulted has arrived
in this phase. -/
structure Barrier where
  lmask : DWord := 0
  larr : DWord := 0
  phase : Word := 0
  ephase : Word := 0
  eend : Word := 0
  expb : DWord := 0
  arrb : DWord := 0
  cmask : BitVec 16 := 0
  carr : BitVec 16 := 0
  watch : BitVec 16 := 0
  parent : BitVec 16 := 0xFFFF
  state : BitVec 8 := 0
  ecode : Byte := 0
  femem : Bool := false
  fearr : Bool := false
  fwd : Bool := false
  blkh : Word := 0
  touched : Bool := false
  arrived : Bool := false
  heldBatches : List (Nat × Bool) := []
  leaving : DWord := 0
  errNow : Bool := false
  deriving DecidableEq, Repr

/-- A grist slot: data, side band, header and state (02 R52 to R54, 13 R322). -/
structure Slot where
  header : Word := 0
  state : Nat := 0
  refs : Nat := 0
  filling : Bool := false
  data : Table Byte := []
  side : Table Byte := []
  deriving DecidableEq, Repr

/-- A leaf as a translation cache holds it (15 R362, R365). size: 0 64 KiB, 1 2 MiB, 2 1 GiB. -/
structure Leaf where
  pa : Nat
  place : Word
  size : Nat
  r : Bool
  w : Bool
  x : Bool
  dup : Bool
  state : BitVec 3
  /-- Address of the leaf's entry in page-table memory. -/
  entry : Nat
  deriving DecidableEq, Repr

/-- The mark of a release that the scope checker keeps (17 R419): its scope, the releasing core, and the cluster and the
context of the block that the core held. -/
structure ScopeTag where
  scope : BitVec 3
  core : Nat
  cluster : Nat
  ctx : Nat
  deriving DecidableEq, Repr

/-- A transfer of a copy command (12 R311): the next byte to move and the destinations that have taken it, the index
read for its row, the bytes read and not yet landed, the storage row gathered so far, and the fault that ended it (its
order among faults, code, address, row). -/
structure Transfer where
  member : Nat
  row : Nat := 0
  col : Nat := 0
  dest : Nat := 0
  idx : Option Nat := Option.none
  got : Option (List Byte) := Option.none
  rowBuf : List Byte := []
  ended : Bool := false
  fault : Option (Nat × Byte × DWord × Nat) := Option.none
  /-- The page of a read that has come back for a translation and is still to be sent again: its number and its bytes (10
  R267). -/
  resend : Option (Nat × Nat) := Option.none
  deriving DecidableEq, Repr

/-- A queued copy command: its opcode, its descriptor read once at issue (12 R298), its barrier and transfers. -/
structure CopyCmd where
  id : Nat
  op : Nat
  pc : Word
  src : DWord
  dst : DWord
  rows : Nat
  rowb : Nat
  gstride : Int
  fmt : Byte
  mask : BitVec 12
  pstride : Nat
  use : Byte
  acq : Bool
  rel : Bool
  scope : BitVec 2
  dead : Bool
  scat : Bool
  mcid : BitVec 4
  bar : BitVec 16
  issuedAt : Nat
  transfers : List Transfer
  /-- Lines whose use count this command has already counted (12 R314). -/
  counted : List Nat := []
  started : Bool := false
  /-- The release epoch that its release ended (10 R261). -/
  epoch : BitVec 16 := 0
  /-- The translation of the page it accesses now, with the first address of the page (15 R365). -/
  kept : Option (Nat × Leaf) := Option.none
  /-- The scope checker has written its record for this command (17 R419). -/
  checked : Bool := false
  deriving DecidableEq, Repr

/-- An active prefetch stream (12 R315). -/
structure Stream where
  src : DWord
  rows : Nat
  rowb : Nat
  gstride : Int
  use : Byte
  dead : Bool
  depth : Nat
  /-- Index of the next line to fetch, and of the highest line read by the engine's commands, plus one. -/
  next : Nat := 0
  read : Nat := 0
  /-- The translation of the page it fetches from now, with the first address of the page (15 R365). -/
  kept : Option (Nat × Leaf) := Option.none
  deriving DecidableEq, Repr

/-- The tensor copy engine of a block (12). -/
structure CopyEngine where
  cmds : List CopyCmd := []
  i4rsv : Word := 0
  lastf : Byte := 0
  streams : Table Stream := []
  /-- This core's replica of the multicast ids: true while DRAINING (12 R309). -/
  mcids : Table Bool := []
  deriving DecidableEq, Repr

/-- A queued matrix command (13 R326): what was recorded, the slots it holds references on, whether it was
marked at enqueue, and whether it has started. -/
structure MmaCmd where
  id : Nat
  pc : Word
  mode : BitVec 3
  aslot : Nat
  bslot : Nat
  tile : Nat
  acc : Bool
  sat : Bool
  group : Nat
  batch : BitVec 16
  lanes : Word
  marked : List Nat
  held : List Nat
  after : Nat
  started : Bool := false
  /-- The reason and slot of a command that completes with SLOT (13 R332). -/
  slotFault : Option (Nat × Nat) := Option.none
  deriving DecidableEq, Repr

/-- An ACCLD, ACCST or ACCZ in the transfer path (13 R336); kind 0, 1 or 2; words is the data of an ACCST by
lane * 32 + register. -/
structure AccXfer where
  id : Nat
  kind : Nat
  group : Nat
  mode : BitVec 3
  tile : Nat
  row : Nat
  n : Nat
  col : Nat
  lanes : Word
  dests : List Nat := []
  words : Table Word := []
  flag : Option Nat := Option.none
  deriving DecidableEq, Repr

/-- The fields of a kernel header (06 R148) and its idempotent table. -/
structure Header where
  groups : Nat := 1
  nu : Nat := 0
  na : Nat := 0
  ng : Nat := 0
  slots : Nat := 0
  tiles : Nat := 0
  barriers : Nat := 0
  pool : Nat := 0
  shapeW : Nat := 1
  shapeH : Nat := 1
  bond : Bool := false
  feEntry : Word := 0
  grpEntry : Word := 0
  codeStart : Nat := 0x40
  codeSize : Nat := 0
  dataOff : Nat := 0
  dataSize : Nat := 0
  idem : List (Word × Word) := []
  deriving DecidableEq, Repr

/-- A single step under way (17 R414): the thread, its generation as the step began, the cycle at which it times out, and
the PC and barrier object of what it has issued (17 R415). -/
structure Stepping where
  who : Who
  gen : BitVec 5
  expires : Nat
  pc : Word := 0
  object : BitVec 16 := 0xFFFF
  deriving DecidableEq, Repr

/-- What makes a trigger's condition true in a cycle (17 R416). -/
inductive TrigCause where
  | none
  | watch (i : Nat)
  | phase (i : Nat)
  | bkpt (arg : Nat)
  deriving DecidableEq, Repr

/-- A watchpoint that this cycle has hit, with what its record says of the access (17 R410, R415). -/
structure WatchHit where
  index : Nat
  handle : Word
  addr : DWord
  pc : Word
  detail : Word
  data : DWord
  deriving DecidableEq, Repr

/-- The block a core holds (06 R155). -/
structure Block where
  job : Nat
  cluster : Nat
  member : Nat
  ctx : Nat
  hdr : Header
  kernel : DWord
  launched : Bool := false
  fe : FrontEnd := {}
  groups : Table Group := []
  /-- Decision-queue entries by position, and the tail T (07 R175). -/
  dq : Table DWord := []
  dqTail : Word := 0
  /-- The cycle of the last push, whose entry a pop sees one cycle later (07 R176). -/
  dqPushed : Option Nat := Option.none
  barriers : Table Barrier := []
  /-- Register banks of the core that were mapped out as the block was placed, and those lost since (01 R14). -/
  banksOut : List Nat := []
  banksLost : List Nat := []
  /-- The group of each partition that issued last (07 R164). -/
  lastIssue : Table Nat := []
  /-- The cycle from which the special-function unit accepts again, and the partition that it accepted last (09 R237). -/
  sfuFree : Nat := 0
  sfuLast : Nat := 3
  copy : CopyEngine := {}
  mma : List MmaCmd := []
  xfers : List AccXfer := []
  watch : Table DWord := []
  trig : DWord := 0
  /-- The watchpoint and trigger registers as accesses and conditions of this cycle see them (17 R408, R416). -/
  watchNow : Table DWord := []
  trigNow : DWord := 0
  /-- What this cycle brings for the debug unit: watchpoints hit, causes of the trigger, and a sample that is due (17 R410,
  R417). -/
  hits : List WatchHit := []
  causes : List TrigCause := []
  sampleDue : Bool := false
  /-- GTS at the block's first instruction, and whether it has issued one (06 R161). -/
  firstGts : DWord := 0
  begun : Bool := false
  resident : Nat := 0
  saves : Nat := 0
  killed : Bool := false
  retired : Bool := false
  /-- A stop has been received and takes effect at each thread's unit boundary (17 R411, 05 R131). -/
  stopping : Bool := false
  /-- The stop record still to be written: the cause's handle, address, PC and GTS (17 R415). -/
  stopCause : Option (Word × DWord × Word × DWord) := Option.none
  /-- The thread a STEP has released (17 R414). -/
  stepping : Option Stepping := Option.none
  /-- The group the next trace sample visits, and the cycle of the last one or of the start of recording (17 R417). -/
  sampleNext : Nat := 0
  sampledAt : Nat := 0
  deriving DecidableEq, Repr

/-! ## Messages between cores (16 R388 to R398) -/

/-- An entry of the send queue shared by MSEND and MWAKE. -/
structure SendEntry where
  id : Nat
  wake : Bool
  pc : Word
  thread : Thread
  dstDev : Nat
  dstCore : Nat
  tag : Word
  addr : Word
  len : Nat
  va : DWord
  value : DWord
  rel : Bool
  bar : Option Nat
  after : Nat
  /-- 0 not sent, 1 header or write in flight, 2 in the destination's overflow queue or being pulled. -/
  phase : Nat := 0
  deriving DecidableEq, Repr

/-- A posted receive. -/
structure Recv where
  id : Nat
  anySrc : Bool
  dev : Nat
  core : Nat
  tag : Word
  /-- Bits [41:40] of its match word, which MPROBE and MCANCEL compare too (16 R394). -/
  rsv : BitVec 2 := 0
  addr : Word
  len : Nat
  bar : Option Nat
  job : Option Nat
  matched : Bool := false
  deriving DecidableEq, Repr

/-- A message header: in flight, in an overflow queue or matched. -/
structure MsgHeader where
  srcDev : Nat
  srcCore : Nat
  tag : Word
  len : Nat
  /-- The send entry of this device, when the source is this device. -/
  send : Nat
  ctx : Nat
  deriving DecidableEq, Repr

/-! ## Translations and pages (15) -/

/-- A translation-cache entry (15 R365). -/
structure TEntry where
  ctx : Nat
  va : Nat
  leaf : Leaf
  deriving DecidableEq, Repr

/-- A word of the registry (10 R256): owner code, owner-lost bit, release marks (owner code, epoch). -/
structure RegWord where
  owner : BitVec 3 := 0
  lost : Bool := false
  marks : List (BitVec 3 × BitVec 16) := []
  deriving DecidableEq, Repr

/-- A home line held by a slice (01 R17): data, dirty, use count and DEAD mark (12 R314), the mark of a leaf
with DUP set (11 R294), the scope checker's tag (17 R419), and the dirty granules a re-stripe records. -/
structure HomeLine where
  data : Line
  dirty : Bool := false
  use : Nat := 0
  dead : Bool := false
  dup : Bool := false
  tag : Option ScopeTag := Option.none
  /-- The way of its slice that holds it (01 R16, R17). -/
  way : Nat := 0
  deriving DecidableEq, Repr

/-- A visitor line of a die (10 R254): data, the words that are CLEAN and OWNED, the owned words that are
dirty, and each owned word's epoch. bad: the CLEAN words that an uncorrectable error has struck (18 R428); way: the way
of its slice that holds it (01 R16, R17). -/
structure VisitorLine where
  data : Line
  clean : Word := 0
  owned : Word := 0
  dirty : Word := 0
  epochs : Table (BitVec 16) := []
  dup : Bool := false
  use : Nat := 0
  dead : Bool := false
  bad : Word := 0
  way : Nat := 0
  deriving DecidableEq, Repr

/-- A waiter registered at a home slice by WAITW (05 R137). -/
structure Waiter where
  ctx : Nat
  key : Nat
  word : Nat
  thread : Thread
  split : Nat
  id : Nat
  deriving DecidableEq, Repr

/-- A die: its share of the L2, its registry and its translation cache (01 R16 to R20, 10 R254 to R262). -/
structure Die where
  admitted : Bool := true
  homeDown : Bool := false
  /-- The pages whose placement names the die are marked home-down (16 R402). -/
  marked : Bool := false
  vways : BitVec 4 := 4
  active : BitVec 4 := 4
  busy : Bool := false
  home : Table HomeLine := []
  /-- Registry words by line key * 32 + word. -/
  registry : Table RegWord := []
  /-- Order in which lines were registered, oldest first (10 R256). -/
  regOrder : List Nat := []
  visitor : Table VisitorLine := []
  epoch : BitVec 16 := 0
  waiters : List Waiter := []
  tcache : List TEntry := []
  /-- Ways out of service for a lasting fault (slice × 16 + way), and the slices whose registry runs with half its
  entries (18 R426). -/
  lastingWays : List Nat := []
  halved : List Nat := []
  /-- The over-current limit of 18 R423 is in force, and the tick at which it ends. -/
  limited : Bool := false
  limitEnd : Nat := 0
  deriving DecidableEq, Repr

/-- A core and what stays in it between blocks (01 R12, 04 R93). -/
structure CoreSt where
  pool : List Host.Cell := []
  /-- Granules whose full-empty bit is set (10 R250). -/
  full : Table Bool := []
  /-- Release scope and releasing core of a granule (17 R419). -/
  tags : Table ScopeTag := []
  slots : Table Slot := []
  /-- Tile words by ((sub-array * 16 + tile) * 64 + row) * 64 + column (13 R321). -/
  tiles : Table Word := []
  block : Option Block := Option.none
  lastCtx : Option Nat := Option.none
  zeroing : Bool := false
  removed : Bool := false
  removeAtRetire : Bool := false
  /-- Register banks mapped out, four to a partition (01 R14). -/
  banksOut : List Nat := []
  /-- Instruction-cache lines by virtual address / 128, with their context (06 R157). -/
  icache : Table Line := []
  icacheCtx : Option Nat := Option.none
  tcache : List TEntry := []
  sends : List SendEntry := []
  recvs : List Recv := []
  overflow : List MsgHeader := []
  deriving DecidableEq, Repr

/-! ## Contexts, queues and jobs (04, 05) -/

/-- The state of a context (04 R89). -/
inductive CtxState where
  | free
  | open_
  | active
  | suspending
  | suspended
  | faulted
  | closing
  deriving DecidableEq, Repr

/-- A context: its descriptor as last read (04 R86), its state and its fault unit's pending records. -/
structure Context where
  state : CtxState := .free
  ptroot : Nat := 0
  qmask : DWord := 0
  cores : Nat := 0
  jobs : Nat := 0
  eshare : Nat := 0
  mode : BitVec 3 := 0
  fqbase : DWord := 0
  fqlog : Nat := 0
  fsjob : DWord := 0
  fswake : DWord := 0
  savebase : DWord := 0
  profbase : DWord := 0
  profsize : DWord := 0
  pending : List FaultRec := []
  deriving DecidableEq, Repr

/-- The state of a hardware queue (05 R116, R117). -/
inductive QueueState where
  | free
  | open_
  | paused
  deriving DecidableEq, Repr

/-- A hardware queue (05 R116). -/
structure HwQueue where
  state : QueueState := .free
  owner : Nat := 0
  fifo : List DWord := []
  drops : Nat := 0
  lastCode : Byte := 0
  done : DWord := 0
  /-- PAUSE of CONTROL as last written (05 R116, R117). -/
  pause : Bool := false
  deriving DecidableEq, Repr

/-- A job record (05 R114) as the device keeps it. -/
structure JobRec where
  kernel : DWord := 0
  gx : Nat := 0
  gy : Nat := 0
  gz : Nat := 0
  shape : Byte := 0
  affin : Byte := 0
  corner : Byte := 0
  flags : Byte := 0
  twshare : Nat := 0
  deadline : DWord := 0
  budget : DWord := 0
  energy : Nat := 0
  params : List DWord := []
  rd : List (DWord × DWord) := []
  wr : List (DWord × DWord) := []
  doneAddr : DWord := 0
  wakeAddr : DWord := 0
  deriving DecidableEq, Repr

/-- The state of a job (05 R119); accepting and spawning precede acceptance (05 R118, R142). -/
inductive JobState where
  | spawning
  | accepting
  | waiting
  | ready
  | running
  | retired
  | failed
  deriving DecidableEq, Repr

/-- What a JSPAWN is still to write: its register (physical in a group), its predicate, and the split and lanes that
issued it (05 R142). -/
structure SpawnDest where
  reg : Nat
  pred : Nat
  split : Nat
  lanes : Word
  deriving DecidableEq, Repr

/-- A job (05 R115, R119, R134). -/
structure Job where
  num : Word
  ctx : Nat
  queue : Option Nat
  recAddr : DWord
  state : JobState
  record : JobRec := {}
  hdr : Header := {}
  w : Nat := 1
  h : Nat := 1
  preds : List Nat := []
  gateW : Bool := false
  gateM : Bool := false
  weight : Nat := 0
  root : Nat
  parent : Nat
  nextIndex : Nat := 0
  /-- The tree counter, failures and first code, and whether the tree has completed (root jobs, 05 R135). -/
  treeCount : Nat := 0
  nfail : Nat := 0
  firstFail : Byte := 0
  treeDone : Bool := false
  /-- Holds a sluice entry (05 R121). -/
  entry : Bool := true
  code : Byte := 0
  /-- The enqueuing or spawning thread, and the item number below which its earlier stores lie (05 R142). -/
  src : Option Thread := Option.none
  after : Nat := 0
  spawn : Option SpawnDest := Option.none
  /-- The record has been read, and the code with which that failed. -/
  fetched : Option (Option Byte) := Option.none
  /-- Weight returns of JDONEs that wait for the issuing thread's stores (05 R135). -/
  returns : List (Nat × Thread × Nat) := []
  /-- The weight that the job held as it failed, which returns once the stores that its blocks had then made have been
  acknowledged, and the item number below which these lie (05 R134, R135). -/
  owed : Nat := 0
  owedAfter : Nat := 0
  deriving DecidableEq, Repr

/-- Where a cluster stands: being set up, running, being pre-empted, saved, discarded, released. -/
inductive ClState where
  | placing
  | running
  | preempting
  | saved
  | discarded
  deriving DecidableEq, Repr

/-- A barrier operation on another core (14 R342). -/
inductive BarOp where
  | expect (bytes : DWord)
  | query (sel : BitVec 3) (half : Bool) (rd : BitVec 6)
  | read (phase : Word) (pd : BitVec 3) (expires : Option Nat) (inCluster : Bool)
  | link (child : BitVec 16)
  | unlink (child : BitVec 16)
  deriving DecidableEq, Repr

/-- A barrier operation in flight and its outcome: a value, or BARRIER_ERR. member is that of the issuer, spot the
address as its record shows it; read: a wait has read the object, which was not complete. -/
structure BarReq where
  id : Nat
  src : Thread
  split : Nat
  member : Nat
  spot : BitVec 16
  read : Bool := false
  dst : Nat
  index : Nat
  op : BarOp
  /-- The local object of a BINIT with LINK, and whether it frees (14 R354). -/
  loc : Nat := 0
  reply : Option (Option DWord) := Option.none
  via : Bool := false
  deriving DecidableEq, Repr

/-- What the device keeps of a saved block in its frame (04 R102 to R104): the block and the memories of its core. -/
structure SavedCore where
  member : Nat
  block : Block
  pool : List Host.Cell
  full : Table Bool
  slots : Table Slot
  tiles : Table Word
  sends : List SendEntry
  bars : List BarReq
  /-- The save slot of a saved block; none for a discarded one. -/
  frame : Option Nat
  deriving DecidableEq, Repr

/-- A cluster of a job (05 R123, R128, 06 R153). -/
structure Cluster where
  job : Nat
  index : Nat
  x : Nat
  y : Nat
  w : Nat
  h : Nat
  state : ClState
  /-- Cores whose zeroing is still to finish (04 R94). -/
  zeroing : List Nat := []
  /-- The register banks of each core that were mapped out as it was placed (01 R14). -/
  banks : Table (List Nat) := []
  budget : Option Nat := Option.none
  /-- Held by a debug stop, and the cycle of its event (17 R411, R412). -/
  stopped : Bool := false
  stopCycle : Nat := 0
  saved : List SavedCore := []
  /-- A wake write has reached a word a saved, parked block waits on (05 R138). -/
  woken : Bool := false
  parked : Bool := false
  /-- Multicast ids that are DRAINING (12 R309). -/
  draining : List (BitVec 4) := []
  deriving DecidableEq, Repr

/-- A choice posted to the placement mailbox (05 R124). -/
structure PlaceReq where
  job : Nat
  cluster : Option Nat
  deriving DecidableEq, Repr

/-- The scheduler (05). -/
structure Sched where
  queues : Table HwQueue := []
  /-- The queue drawn last (05 R118). -/
  lastDrawn : Nat := 63
  nextJob : Word := 1
  jobs : Table Job := []
  nextCluster : Nat := 1
  clusters : Table Cluster := []
  placeReq : Option PlaceReq := Option.none
  /-- Rectangles reserved by deadline pre-emptions: job and cores (05 R130). -/
  reserve : List (Nat × List Nat) := []
  deriving DecidableEq, Repr

/-! ## What is in flight -/

/-- What a pool access does at the port (10 R247, R250). -/
inductive PoolOp where
  | load (n : Nat)
  | loadFe (n : Nat) (clr : Bool)
  | store (n : Nat) (data : BitVec 128) (fill : Bool)
  | atomic (op : BitVec 4) (b : DWord) (b' : DWord)
  | fillRange (len : Nat) (set : Bool)
  deriving DecidableEq, Repr

/-- A pool access on its way to a port or waiting there (10 R247, R251). -/
structure PoolReq where
  id : Nat
  inst : Nat
  src : Thread
  dst : Nat
  off : Nat
  lane : Nat
  op : PoolOp
  pc : Word
  release : Option (BitVec 2) := Option.none
  acquire : Option (BitVec 2) := Option.none
  /-- The handle of its thread, which it carries (17 R415). -/
  handle : Word := 0
  /-- Has reached the port and waits for its granules to fill. -/
  arrived : Bool := false
  deriving DecidableEq, Repr

/-- What a pool instruction does with what it reads. -/
inductive PoolUse where
  | load (signed : Bool)
  | atomic
  | scalar (signed : Bool)
  | lrest
  | lsave
  | none
  deriving DecidableEq, Repr

/-- An instruction with pool accesses whose results or acknowledgements are pending (11 R276, R279, R280, 08 R202). -/
structure PoolInst where
  id : Nat
  src : Thread
  split : Nat
  use : PoolUse
  dests : List Nat
  nbytes : Nat
  lanes : Word
  uniform : Bool
  vals : Table (BitVec 128) := []
  /-- Accesses not yet performed, and stores performed and not yet acknowledged. -/
  left : Nat
  acks : Nat := 0
  flag : Option Nat := Option.none
  acquire : Bool := false
  pc : Word := 0
  /-- Landing entries taken (01 R28). -/
  entries : Nat := 0
  /-- The code and address of an access that ended in an error after issue (18 R428, 16 R385). -/
  ue : Option (Byte × Word) := Option.none
  /-- The scope checker has written its record for this instruction (17 R419). -/
  checked : Bool := false
  /-- The other dies that its requests go to, with their routes (01 R10). -/
  routes : List (Nat × Bool) := []
  deriving DecidableEq, Repr

/-- A request of GSTATE, GREPLAY or GKILL on its way (04 R110), and its reply. -/
structure Service where
  id : Nat
  src : Thread
  split : Nat
  pd : BitVec 3
  handle : Word
  /-- 0 GSTATE, 1 GREPLAY, 2 GKILL. -/
  kind : Nat
  sel : BitVec 9
  dst : Word
  reply : Option (Bool × List Byte) := Option.none
  /-- The route it takes between diagonal dies (01 R10). -/
  via : Bool := false
  deriving DecidableEq, Repr

/-- What a global access does at its word's home (10 R253). -/
inductive GlobalOp where
  | store
  | relStore (scope : BitVec 2)
  | wake
  | relWake (scope : BitVec 2)
  | atomic (op : BitVec 4) (b : DWord) (b' : DWord) (q : Bool) (scope : BitVec 2)
  | waitw (expected : DWord)
  deriving DecidableEq, Repr

/-- How far a global access has come. -/
inductive GStage where
  /-- Waits for the translation of its page. -/
  | translate
  /-- On its way to the home (a store, an atomic, a comparison) or as a registration of words already written in
  the visitor partition. -/
  | atHome
  /-- Performed; its acknowledgement or reply is on its way. -/
  | performed
  /-- Refused with a code. -/
  | faulted (code : Byte)
  deriving DecidableEq, Repr

/-- A write of a copy command: its command, transfer and row, the bytes it counts, and the core and index of its
barrier (12 R310). -/
structure CopyTag where
  cmd : Nat
  tr : Nat
  row : Nat
  bytes : Nat
  bar : Option (Nat × Nat)
  deriving DecidableEq, Repr

/-- A global access of at most one 128-byte line (11 R285), of the device's agents. -/
structure GlobalReq where
  id : Nat
  inst : Nat
  thread : Thread
  split : Nat
  die : Nat
  ctx : Nat
  pc : Word
  va : Nat
  op : GlobalOp
  /-- Bytes stored: (address in the line, lane, byte), lanes ascending. -/
  bytes : List (Nat × Nat × Byte) := []
  lane : Nat := 0
  fm : BitVec 7 := 0
  /-- Issue count of the group at the store (11 R289). -/
  issued : Nat := 0
  leaf : Option Leaf := Option.none
  /-- The size code of the page from which it has come back for a translation (10 R267). -/
  back : Option Nat := Option.none
  /-- The words are registered to the issuing die's visitor copy (10 R255). -/
  visitor : Bool := false
  stage : GStage := .translate
  /-- The code of each refused word of the line, where the first one's is not that of all (11 R287). -/
  codes : Table Byte := []
  /-- Recalls ordered for this access and not yet returned. -/
  recalls : Nat := 0
  drains : Nat := 0
  result : DWord := 0
  /-- A send entry that this wake write serves (16 R398). -/
  send : Option Nat := Option.none
  /-- The release epoch that its release ended (10 R261). -/
  epoch : BitVec 16 := 0
  /-- It is a write of a copy command. -/
  copy : Option CopyTag := Option.none
  /-- It reissues this store-fault record (04 R112). -/
  again : Option StoreFaultRec := Option.none
  /-- Its place in the order in which requests are sent, and the route it takes between diagonal dies (01 R10, R16). -/
  sent : Nat := 0
  via : Bool := false
  /-- It has reached its home (01 R16). -/
  arrived : Bool := false
  deriving DecidableEq, Repr

/-- An ATG whose lanes are being performed (11 R283). -/
structure AtgInst where
  id : Nat
  src : Thread
  split : Nat
  dests : List Nat
  lanes : Word
  size : Nat
  flag : Option Nat := Option.none
  left : Nat
  vals : Table DWord := []
  faults : Table (Byte × Nat) := []
  acquire : Option (BitVec 2) := Option.none
  /-- Every page has been translated, and the lanes have been sent. -/
  sent : Bool := false
  /-- The scope checker has written its record for this instruction (17 R419). -/
  checked : Bool := false
  deriving DecidableEq, Repr

/-- A recall ordered by a home (10 R257): the owner returns one word of a line. -/
structure RecallMsg where
  id : Nat
  home : Nat
  key : Nat
  word : Nat
  owner : BitVec 3
  req : Nat
  /-- The route it takes between diagonal dies (01 R10). -/
  via : Bool := false
  deriving DecidableEq, Repr

/-- A drain ordered by a home for an acquire (10 R262). done: the owner has written back; via: the route it takes between
diagonal dies (01 R10). -/
structure DrainMsg where
  id : Nat
  home : Nat
  via : Bool := false
  owner : BitVec 3
  epoch : BitVec 16
  req : Nat
  done : Bool := false
  deriving DecidableEq, Repr

/-- How a translation ended: a leaf, or the code of a fault (15 R363). -/
inductive WalkRes where
  | leaf (l : Leaf)
  | code (c : Byte)
  deriving DecidableEq, Repr

/-- A translation that missed its core's and its die's cache (15 R363 to R365). posted: it is in the walk
mailbox; zeroing: the frames of this leaf are being zeroed for their new owner (15 R364); res: its outcome, kept
until the access that asked takes it. -/
structure Walk where
  id : Nat
  core : Nat
  ctx : Nat
  va : Nat
  posted : Bool := false
  zeroing : Option Leaf := Option.none
  /-- Its asker takes the outcome itself: a fetch, a copy or a PGPROBE. -/
  keep : Bool := false
  /-- A leaf found whose placement word is unusable, which PGPROBE shows (15 R363). -/
  seen : Option Leaf := Option.none
  res : Option WalkRes := Option.none
  deriving DecidableEq, Repr

/-- A piece of a copy read that has left for a home or a visitor fill (10 R254, R257). -/
structure ReadReq where
  id : Nat
  core : Nat
  cmd : Nat
  tr : Nat
  die : Nat
  va : Nat
  n : Nat
  leaf : Leaf
  /-- A fill of the die's visitor line, or a read forwarded to the home or owner. -/
  fill : Bool
  acq : Bool
  drains : Nat := 0
  ordered : Bool := false
  via : Bool := false
  deriving DecidableEq, Repr

/-- An arrival or notice between the objects of a cluster (14 R346, R347). -/
structure BarMsg where
  id : Nat
  cluster : Nat
  /-- 0 normal arrival of a child, 1 error arrival of a child, 2 completion notice. -/
  kind : Nat
  fromMember : Nat
  toMember : Nat
  index : Nat
  phase : Word
  error : Bool
  code : Byte
  deriving DecidableEq, Repr

/-- A credit of bytes, or the code of a faulted command, on its way from a core's engine to a barrier of another core (01 R28, 12
R310, R311). -/
structure CreditMsg where
  id : Nat
  src : Nat
  core : Nat
  index : Nat
  bytes : Nat
  fault : Option Byte := Option.none
  deriving DecidableEq, Repr

/-- A remote claim or release of a multicast id on its way to a member's replica (12 R309). -/
structure McidMsg where
  id : Nat
  src : Nat
  core : Nat
  mcid : BitVec 4
  claim : Bool
  deriving DecidableEq, Repr

/-- A stop on its way to another member (17 R411). -/
structure StopMsg where
  id : Nat
  src : Nat
  core : Nat
  cause : Word × DWord × Word × DWord
  deriving DecidableEq, Repr

/-- A message stage in flight (16 R390 to R392): 0 header, 1 pull, 2 data, 3 completion, 4 at a peer. origin: the core of this
device from which a completion comes. -/
structure MsgFlight where
  id : Nat
  stage : Nat
  hdr : MsgHeader
  dstDev : Nat
  dstCore : Nat
  recv : Nat := 0
  data : List Byte := []
  code : Byte := 0
  origin : Option Nat := Option.none
  /-- The route it takes between diagonal dies (01 R10). -/
  via : Bool := false
  deriving DecidableEq, Repr

/-- A store that a link buffer holds registered (10 R259). -/
structure LinkWord where
  buf : Nat
  key : Nat
  home : Nat
  word : Nat
  data : Word
  deriving DecidableEq, Repr

/-- A PGSCRUB or AFENCE in progress. -/
structure ScanOp where
  id : Nat
  thread : Thread
  split : Nat
  ctx : Nat
  va : Nat
  dies : List Nat
  deriving DecidableEq, Repr

/-- Everything in flight between units. next numbers each item. -/
structure Flight where
  next : Nat := 1
  pool : List PoolReq := []
  poolInsts : List PoolInst := []
  services : List Service := []
  global : List GlobalReq := []
  atgs : List AtgInst := []
  recalls : List RecallMsg := []
  drains : List DrainMsg := []
  walks : List Walk := []
  reads : List ReadReq := []
  bars : List BarReq := []
  barMsgs : List BarMsg := []
  mcids : List McidMsg := []
  credits : List CreditMsg := []
  stops : List StopMsg := []
  msgs : List MsgFlight := []
  linkWords : List LinkWord := []
  scans : List ScanOp := []
  /-- Pages, by context and address, whose translation the step just taken needs from the walk mailbox (15 R363). -/
  misses : List (Nat × Nat) := []
  /-- The returned translations that the step just taken has used. -/
  taken : List (Nat × Nat) := []
  /-- Bytes that stores to a command page have brought to registers: offset of the register, and byte by byte (04 R88, 05
  R116). -/
  regWrites : List (Nat × List (Nat × Byte)) := []
  deriving DecidableEq, Repr

/-! ## Pages under re-striping, shootdowns (15 R366, R373 to R380) -/

/-- Who asked for a migration: a PGMIG (core, its block's cluster, barrier, and what the record of its failure says of the
thread), the retirement of a faulty unit, which the page mailbox names so, or the evacuation of a die reset. -/
inductive MigBy where
  | pgmig (core : Nat) (cluster : Nat) (bar : Option Nat) (record : FaultRec)
  | retire (unit : DWord)
  | evacuate
  deriving DecidableEq, Repr

/-- The page states a migration passes through (15 R373); queued: not yet checked. -/
inductive MigStage where
  | queued
  | copying
  | frozen
  | publishing
  deriving DecidableEq, Repr

/-- A request held by the restriper (15 R374, R375, R380). dirty: granules of 256 bytes written since they were
last copied; acks: translation caches that have acknowledged, cores 0 to 191 and dies 192 to 195; waiting: the
requests in flight under the old translation, by cache, at the shootdown. -/
structure Migration where
  id : Nat
  ctx : Nat
  va : Nat
  by_ : MigBy
  newPa : Nat
  newPlace : Word
  stage : MigStage := .queued
  old : Option Leaf := Option.none
  pass : Nat := 0
  dirty : Table Bool := []
  final : Bool := false
  acks : Table Bool := []
  waiting : Table (List Nat) := []
  /-- The cycle of the last write that an old home admitted, by die (15 R374). -/
  lastWrite : Table Nat := []
  deriving DecidableEq, Repr

/-- The shootdown register (15 R366) and the accesses its completion waits for. -/
structure Shootdown where
  word0 : DWord := 0
  word1 : DWord := 0
  status : BitVec 2 := 0
  waiting : List Nat := []
  deriving DecidableEq, Repr

/-- Owners of frames (65535 for none), the frames of retired pages, the first frames of MAPPED pages that a failed unit
holds, the restriper's queue, the shootdown register, and the pages that wait for the page mailbox: context, address,
unit (15 R364, R366, R377). -/
structure Pages where
  owners : Table Nat := []
  retired : Table Bool := []
  failing : Table Bool := []
  posts : List (Nat × Nat × DWord) := []
  queue : List Migration := []
  shoot : Shootdown := {}
  deriving DecidableEq, Repr

/-! ## Links, host interface, die reset (16) -/

/-- The states of a link (16 R383, R384). -/
inductive LinkState where
  | down
  | training
  | up
  | quiescing
  | quiesced
  | retraining
  | failed
  deriving DecidableEq, Repr

/-- A link object (16 R383, R384, R399): replayRun counts consecutive replays of one flit, attempts the failed
attempts, since the cycle at which training began. -/
structure LinkSt where
  state : LinkState := .down
  retrains : Nat := 0
  replays : Nat := 0
  width : Nat := 0
  lost : Nat := 0
  peer : Nat := 0
  tsync : Bool := false
  locked : Bool := false
  attempts : Nat := 0
  since : Nat := 0
  replayRun : Nat := 0
  deriving DecidableEq, Repr

/-- The host-link register space (16 R386) but for the registers that other structures hold. msix counts the
interrupts raised, by vector. -/
structure HostIf where
  devnum : Nat := 0
  tmaster : Bool := false
  irq : BitVec 6 := 0
  ctxCmd0 : DWord := 0
  ctxCmd1 : DWord := 0
  ctxStatus : BitVec 2 := 0
  fabric : Table Word := []
  faultRec : List Byte := []
  faultFull : Bool := false
  faultLost : Word := 0
  placeJob : Word := 0
  placeIndex : Word := 0
  placeCores : Nat := 0
  placeCorner : Byte := 0
  walkCtx : Nat := 0
  walkVa : DWord := 0
  walkFor : Option Nat := Option.none
  pageCtx : Nat := 0
  pageVa : DWord := 0
  pageUnit : DWord := 0
  reserveFirst : DWord := 0
  reserveCount : Nat := 0
  reserveTier : BitVec 2 := 0
  evacBase : DWord := 0
  evacCount : Nat := 0
  winBase : DWord := 0
  winSize : Nat := 0
  route : Table Byte := []
  msix : Table Nat := []
  deriving DecidableEq, Repr

/-- The die-reset sequencer (16 R400, R401). reg: DIE of the register; die: the die of the sequence. assisted: the sequence
runs host-assisted (04 R91); held: it waits for CMD 11b. lost: the owner-lost words saved at step 4. -/
structure DieReset where
  reg : BitVec 2 := 0
  die : BitVec 2 := 0
  step : Nat := 0
  busy : Bool := false
  assisted : Bool := false
  held : Bool := false
  lost : List Nat := []
  deriving DecidableEq, Repr

/-! ## Debug, power and management (17, 18) -/

/-- The debug block (17 R405 to R407). ring: records that wait to be written while their thread's block stops. -/
structure Dbg where
  dctl : DWord := 0
  drbase : DWord := 0
  drlog : BitVec 4 := 0
  drops : Word := 0
  word0 : DWord := 0
  word1 : DWord := 0
  status : BitVec 2 := 0
  result : DWord := 0
  /-- PROD of the ring has been written in this turn, and its words are still to take the marks of the release (17 R406). -/
  prodWritten : Bool := false
  /-- A DUMP that waits for the results of the block's engines: core, to the millhouse, address. -/
  dump : Option (Nat × Bool × DWord) := Option.none
  deriving DecidableEq, Repr

/-- A self-test: the unit under test, its verdict once it waits for the host's ACCEPT, and whether the device applies
the verdict itself (18 R426, R427). -/
structure SelfTest where
  unit : Byte
  die : BitVec 2
  idx : BitVec 16
  posted : Option (BitVec 2) := Option.none
  hw : Bool := true
  deriving DecidableEq, Repr

/-- The millpond, RAS log, self-tests and the millhouse (18). sent: what the millhouse has sent out over the
side-band, newest first. -/
structure Mgmt where
  level : Int := 50000
  updates : Nat := 0
  checked : Nat := 0
  pwrcfg : DWord := 0x0020000000320708
  corrected : Word := 0
  lasting : Word := 0
  tests : List SelfTest := []
  mailUnit : Byte := 0
  mailDie : BitVec 2 := 0
  mailIdx : BitVec 16 := 0
  mailVerdict : BitVec 2 := 0
  image : List Byte := []
  recovery : Bool := false
  keyIndex : Nat := 0
  sent : List (List Byte) := []
  /-- HBM stacks (2d+s) and second-tier channels (8d+c) out of service, and HBM channels mapped out. -/
  stacksOut : Table Bool := []
  tierOut : Table Bool := []
  chansOut : Table Bool := []
  deriving DecidableEq, Repr

/-! ## Time and the order of happenings -/

/-- The core clock and the time-stamp counter (01 R29, R30, 18 R422, 16 R399). frac: the part of a tick not yet
counted, in 1/fstep of a tick; slew: ticks still to add or withhold; slewed: ticks since the last was; exchanged: the tick of the
last exchange of time. -/
structure Clock where
  cycle : Nat := 0
  gts : DWord := 0
  frac : Nat := 0
  fstep : Nat := 68
  slew : Int := 0
  slewed : Nat := 0
  exchanged : Nat := 0
  deriving DecidableEq, Repr

/-- What happens next: a thread issues, a step of the table that is no instruction comes about, a slice gives up a
line (the replacement policy of the L2 is open), an array takes an uncorrectable error (18 R428: in memory or a home
line at a location, in a word of a die's visitor copy, in a word of a link buffer, in the metadata of a block), a credit
reaches the barrier of another core (12 R310), the millhouse sends power telemetry or RASLOG over the side-band (18 R429), or
the die-reset sequencer ends its present step (the time of a step is open, 16 R401). -/
inductive Act where
  | issue (who : Agent)
  | event (i : Instr)
  | evict (die : Nat) (visitor : Bool) (key : Nat)
  | upset (loc : Nat)
  | upsetCopy (die key word : Nat)
  | upsetBuffer (key word : Nat)
  | upsetMeta (block : Nat)
  | credit (id : Nat)
  | sideBand (ras : Bool)
  | resetStep
  deriving DecidableEq, Repr

/-- A turn: the cycles that pass before it, and what happens. -/
structure Turn where
  dt : Nat
  act : Act
  deriving DecidableEq, Repr

/-- One package. agenda is the model's own: the order in which the agents of the package and the outside world
act, which the manual leaves open; free counts the free values taken. cur names what issues. -/
structure State where
  clk : Clock := {}
  agenda : List Turn := []
  cur : Agent := ⟨0, .fe, 0⟩
  free : Nat := 0
  mode : DWord := 0x7F
  mem : List Host.Cell := []
  bad : Table Bool := []
  /-- Blocks of 512 bytes whose compression metadata has an uncorrectable error, by lineKey / 4 (15 R372). -/
  badMeta : Table Bool := []
  /-- Barrier objects, by core and index, that have received an operation in this cycle and are evaluated at its end (14
  R345). -/
  evals : List (Nat × Nat) := []
  /-- What this cycle has already done, where the manual orders the events of one cycle: a resource, and the highest rank
  done on it (05 R140, 13 R340, 14 R345, log entry 120). -/
  done : Table Nat := []
  cores : Table CoreSt := []
  dies : Table Die := []
  ctxs : Table Context := []
  sched : Sched := {}
  flight : Flight := {}
  pages : Pages := {}
  links : Table LinkSt := []
  host : HostIf := {}
  dreset : DieReset := {}
  dbg : Dbg := {}
  mgmt : Mgmt := {}
  deriving DecidableEq, Repr

/-- Why the machine stops with a fault. The manual's own faults are no stop: they are taken (04 R96). -/
inductive Fault where
  /-- Raised by the meaning of an encoded instruction when `cur` names no thread of a block: no core executes it.
  Safe: the machine has no such event. -/
  | noThread
  deriving DecidableEq, Repr

/-- Why an instruction has no outcome. -/
inductive Refusal where
  /-- Raised by the dispatch for an instruction whose meaning is not written yet. Safe. -/
  | notModelled (mnemonic : String)
  deriving DecidableEq, Repr

/-- Right after cold reset (16 R383, R386, 17 R405, 18 R421, R425): nothing resident, every owner 0xFFFF, the seams
in TRAINING, the fabric links DOWN. -/
def State.reset : State :=
  { links := [(0, { state := .training }), (1, { state := .training }), (2, { state := .training }),
      (3, { state := .training })] }

end Sys2Proof.Machine
end

