-- ==== Sys2Proof/Machine/Bytes.lean ====
section
/-! DEFINITION. Bytes, fields and integer ranges: little-endian words (00 R3), bit fields, sign extension and
saturation (08 R197). -/
namespace Sys2Proof.Machine

/-- The number whose little-endian bytes are given (00 R3). -/
def bytesNat : List Byte → Nat
  | [] => 0
  | b :: r => b.toNat + 256 * bytesNat r

/-- The n low bytes of a number, little-endian (00 R3). -/
def natBytes : Nat → Nat → List Byte
  | 0, _ => []
  | n + 1, x => BitVec.ofNat 8 x :: natBytes n (x / 256)

/-- Bits [hi:lo] of a number. -/
def bitsOf (x hi lo : Nat) : Nat := x / 2 ^ lo % 2 ^ (hi + 1 - lo)

/-- Bit i of a number. -/
def bitOf (x i : Nat) : Bool := x / 2 ^ i % 2 = 1

/-- The numbers below n whose bit is set, ascending. -/
def setBits {w : Nat} (n : Nat) (m : BitVec w) : List Nat := (List.range n).filter fun i => m.getLsbD i

/-- The lanes of a mask, ascending. -/
def lanesOf (m : Word) : List Nat := setBits 32 m

/-- The mask of a list of bit numbers. -/
def maskOf (w : Nat) : List Nat → BitVec w
  | [] => 0
  | i :: r => BitVec.ofNat w (2 ^ i) ||| maskOf w r

/-- Set or clear one bit. -/
def putBit {w : Nat} (m : BitVec w) (i : Nat) (v : Bool) : BitVec w :=
  if v then m ||| BitVec.ofNat w (2 ^ i) else m &&& ~~~ BitVec.ofNat w (2 ^ i)

/-- A 32-bit result sign-extended to 64 bits (08 R200). -/
def sext32 (w : Word) : DWord := w.signExtend 64

/-- Clamp to a signed range of w bits (08 R197). -/
def clampS (w : Nat) (x : Int) : Int := max (-(2 ^ (w - 1))) (min x (2 ^ (w - 1) - 1))

/-- Clamp to an unsigned range of w bits (08 R197). -/
def clampU (w : Nat) (x : Int) : Int := max 0 (min x (2 ^ w - 1))

/-- The index of the highest set bit plus one; 0 for zero, by fuel. -/
def bitLenAux : Nat → Nat → Nat
  | 0, _ => 0
  | f + 1, x => if x = 0 then 0 else bitLenAux f (x / 2) + 1

/-- The number of set bits among the n low ones. -/
def popCount (n x : Nat) : Nat := ((List.range n).filter fun i => bitOf x i).length

/-- The XOR of the 5-bit fields of a number (15 R370). -/
def fold5Aux : Nat → Nat → Nat
  | 0, _ => 0
  | f + 1, x => Nat.xor (x % 32) (fold5Aux f (x / 32))

/-- fold5 of 15 R370. -/
def fold5 (x : Nat) : Nat := fold5Aux 16 x

/-- x rounded down to a multiple of n. -/
def alignDown (x n : Nat) : Nat := x / n * n

/-- x is a multiple of n. -/
def aligned (x n : Nat) : Bool := x % n = 0

/-- Two byte ranges share a byte. -/
def overlap (a n b m : Nat) : Bool := a < b + m && b < a + n && 0 < n && 0 < m

/-- The first pair whose condition holds. -/
def firstOf {α : Type} : List (Bool × α) → Option α
  | [] => none
  | (true, a) :: _ => some a
  | (false, _) :: r => firstOf r

/-- Fold a state through a list. -/
def foldSt {σ α : Type} (f : σ → α → σ) (s : σ) : List α → σ
  | [] => s
  | a :: r => foldSt f (f s a) r

/-- Byte i of a line. -/
def lineByte (l : Line) (i : Nat) : Byte := l.extractLsb' (8 * i) 8

/-- Replace byte i of a line. -/
def lineSet (l : Line) (i : Nat) (b : Byte) : Line :=
  (l &&& ~~~ (BitVec.ofNat 1024 (255 * 2 ^ (8 * i)))) ||| BitVec.ofNat 1024 (b.toNat * 2 ^ (8 * i))

/-- Word i of a line. -/
def lineWord (l : Line) (i : Nat) : Word := l.extractLsb' (32 * i) 32

/-- A line from its bytes. -/
def lineOf (b : List Byte) : Line := BitVec.ofNat 1024 (bytesNat b)

end Sys2Proof.Machine
end

