-- ==== Sys2Proof/Machine/Access.lean ====
section
/-! DEFINITION. Reading and changing one component of the state: cores, blocks, threads, dies, contexts, jobs,
clusters; and the numbers 01 R8 and R11 give cores and dies. -/
namespace Sys2Proof.Machine

/-- The core of an identifier. -/
def getCore (s : State) (c : Nat) : CoreSt := tgetD {} c s.cores

/-- Change a core. -/
def modCore (s : State) (c : Nat) (f : CoreSt → CoreSt) : State :=
  { s with cores := tput c (f (getCore s c)) s.cores }

/-- The block a core holds. -/
def getBlk (s : State) (c : Nat) : Option Block := (getCore s c).block

/-- Change the block of a core, if it holds one. -/
def modBlk (s : State) (c : Nat) (f : Block → Block) : State :=
  modCore s c fun k => { k with block := k.block.map f }

/-- Change the front-end of a core's block. -/
def modFe (s : State) (c : Nat) (f : FrontEnd → FrontEnd) : State :=
  modBlk s c fun b => { b with fe := f b.fe }

/-- A group of a core's block. -/
def getGrp (s : State) (c g : Nat) : Option Group := (getBlk s c).bind fun b => tfind g b.groups

/-- Change a group, if it exists. -/
def modGrp (s : State) (c g : Nat) (f : Group → Group) : State :=
  modBlk s c fun b => { b with groups := tmod g f b.groups }

/-- Change a split, if it exists. -/
def modSpl (s : State) (c g k : Nat) (f : Split → Split) : State :=
  modGrp s c g fun r => { r with splits := tmod k f r.splits }

/-- A die. -/
def getDie (s : State) (d : Nat) : Die := tgetD {} d s.dies

/-- Change a die. -/
def modDie (s : State) (d : Nat) (f : Die → Die) : State := { s with dies := tput d (f (getDie s d)) s.dies }

/-- A context. -/
def getCtx (s : State) (n : Nat) : Context := tgetD {} n s.ctxs

/-- Change a context. -/
def modCtx (s : State) (n : Nat) (f : Context → Context) : State :=
  { s with ctxs := tput n (f (getCtx s n)) s.ctxs }

/-- Change a job. -/
def modJob (s : State) (n : Nat) (f : Job → Job) : State :=
  { s with sched := { s.sched with jobs := tmod n f s.sched.jobs } }

/-- A job. -/
def getJob (s : State) (n : Nat) : Option Job := tfind n s.sched.jobs

/-- A cluster. -/
def getCl (s : State) (n : Nat) : Option Cluster := tfind n s.sched.clusters

/-- Change a cluster. -/
def modCl (s : State) (n : Nat) (f : Cluster → Cluster) : State :=
  { s with sched := { s.sched with clusters := tmod n f s.sched.clusters } }

/-- A hardware queue. -/
def getQueue (s : State) (q : Nat) : HwQueue := tgetD {} q s.sched.queues

/-- Change a hardware queue. -/
def modQueue (s : State) (q : Nat) (f : HwQueue → HwQueue) : State :=
  { s with sched := { s.sched with queues := tput q (f (getQueue s q)) s.sched.queues } }

/-- A link. -/
def getLink (s : State) (l : Nat) : LinkSt := tgetD {} l s.links

/-- Change a link. -/
def modLink (s : State) (l : Nat) (f : LinkSt → LinkSt) : State :=
  { s with links := tput l (f (getLink s l)) s.links }

/-- Change what is in flight. -/
def modFlight (s : State) (f : Flight → Flight) : State := { s with flight := f s.flight }

/-- The number the next item in flight takes. -/
def nextId (s : State) : Nat := s.flight.next

/-- Take the next item number. -/
def bumpId (s : State) : State := modFlight s fun f => { f with next := f.next + 1 }

/-- A fresh free value (log entry 3). -/
def freshValue (s : State) : DWord := Config.freeValue s.free

/-- The state after a free value has been taken. -/
def bumpFree (s : State) : State := { s with free := s.free + 1 }

/-- The die of a core (00 R8). -/
def coreDie (c : Nat) : Nat := c / 48

/-- Package column of a core (01 R11). -/
def coreX (c : Nat) : Nat := c / 48 % 2 * 6 + c % 6

/-- Package row of a core (01 R11). -/
def coreY (c : Nat) : Nat := c / 48 / 2 * 8 + c % 48 / 6

/-- The core at package coordinates (00 R8, 01 R11). -/
def coreAt (x y : Nat) : Nat := (y / 8 * 2 + x / 6) * 48 + y % 8 * 6 + x % 6

/-- The core of member m of a cluster (06 R153). -/
def memberCore (cl : Cluster) (m : Nat) : Nat := coreAt (cl.x + m % cl.w) (cl.y + m / cl.w)

/-- The cores of a cluster, in member order. -/
def clusterCores (cl : Cluster) : List Nat := (List.range (cl.w * cl.h)).map (memberCore cl)

/-- The cluster of a core's block. -/
def coreCluster (s : State) (c : Nat) : Option Cluster := (getBlk s c).bind fun b => getCl s b.cluster

/-- A cluster is bonded when it covers two dies (06 R153). -/
def bonded (cl : Cluster) : Bool := cl.x / 6 ≠ (cl.x + cl.w - 1) / 6 || cl.y / 8 ≠ (cl.y + cl.h - 1) / 8

/-- The context of a core's block is privileged (04 R92). -/
def privileged (s : State) (c : Nat) : Bool :=
  match getBlk s c with
  | some b => (getCtx s b.ctx).mode.getLsbD 0
  | none => false

/-- The restart PC of a unit: its first word (03 R77). -/
def unitStart (p : Pre) (pc : Word) : Word := p.start.getD pc

/-- Put an interrupt on MSI-X (16 R386). -/
def raiseMsix (s : State) (v : Nat) : State :=
  { s with host := { s.host with msix := tput v (tgetD 0 v s.host.msix + 1) s.host.msix } }

/-- Set a bit of IRQCAUSE and raise vector 63 (16 R386). -/
def raiseIrq (s : State) (i : Nat) : State :=
  raiseMsix { s with host := { s.host with irq := s.host.irq ||| BitVec.ofNat 6 (2 ^ i) } } 63

/-- The generation count of a thread (04 R101). -/
def threadGen (b : Block) : Who → BitVec 5
  | .fe => b.fe.gen
  | .grp g => ((tfind g b.groups).map Group.gen).getD 0

/-- The handle of a thread (04 R101). -/
def handleOf (b : Block) (core : Nat) (who : Who) : Word :=
  let gen := threadGen b who
  let fe : BitVec 1 := match who with
    | .fe => 1
    | .grp _ => 0
  let g : BitVec 6 := match who with
    | .fe => 0
    | .grp g => BitVec.ofNat 6 g
  gen ++ fe ++ BitVec.ofNat 12 b.ctx ++ g ++ BitVec.ofNat 8 core

end Sys2Proof.Machine
end

