-- ==== Sys2Proof/Machine/Geometry.lean ====
section
/-! DEFINITION. The placement word and what it says of a byte: its location, its home die and its slice (15 R367 to
R371), and which words are unusable (15 R368). -/
namespace Sys2Proof.Machine

/-- GEN of a placement word. -/
def placeGen (p : Word) : Nat := bitsOf p.toNat 27 24
/-- USE. -/
def placeUse (p : Word) : Nat := bitsOf p.toNat 23 22
/-- HOME. -/
def placeHome (p : Word) : Nat := bitsOf p.toNat 21 20
/-- COMP (15 R372). -/
def placeComp (p : Word) : Bool := p.getLsbD 19
/-- GRAN. -/
def placeGran (p : Word) : Nat := bitsOf p.toNat 15 12
/-- CHAN. -/
def placeChan (p : Word) : Nat := bitsOf p.toNat 11 8
/-- TIER: 0 HBM, 1 second tier, 2 host, 3 peer. -/
def placeTier (p : Word) : Nat := bitsOf p.toNat 5 4
/-- The dies of DIE, ascending. -/
def placeDies (p : Word) : List Nat := setBits 4 p
/-- The stacks of STK, ascending (HBM), or one (second tier) (15 R369). -/
def placeStacks (p : Word) : List Nat := if placeTier p = 0 then setBits 2 (p >>> 6) else [0]
/-- The word without GEN: two words are the same when these are equal (15 R367). -/
def placeSame (p : Word) : Nat := p.toNat % 2 ^ 24 + p.toNat / 2 ^ 28 * 2 ^ 28
/-- The word with another GEN. -/
def placeWithGen (p : Word) (g : Nat) : Word := BitVec.ofNat 32 (placeSame p + g % 16 * 2 ^ 24)
/-- The placement of page tables, descriptors and the debug ring (15 R361, R371). -/
def geoQuad : Word := 0x000145CF

/-- The word that a visitor copy, not a home, serves on every die: the host and peer tiers (15 R370). -/
def placeRemote (p : Word) : Bool := 2 ≤ placeTier p

/-- The use count attached at fill (15 R367). -/
def placeUseCount (p : Word) : Nat :=
  match placeUse p with
  | 1 => 1
  | 2 => 2
  | 3 => 4
  | _ => 0

/-- Bytes of an HBM channel and of a second-tier channel (15 R368). -/
def channelBytes (tier : Nat) : Nat := if tier = 0 then 0x60000000 else 0x800000000

/-- Where a byte lies (15 R369). -/
structure Location where
  die : Nat
  stack : Nat
  channel : Nat
  byte : Nat
  deriving DecidableEq, Repr

/-- The location of physical address a under a placement word (15 R369). -/
def locate (p : Word) (a : Nat) : Location :=
  let g := 2 ^ (placeGran p + 8)
  let n := a / g
  let ds := placeDies p
  let ss := placeStacks p
  let c := 2 ^ placeChan p
  { die := ds.getD (n % ds.length) 0
    stack := ss.getD (n / ds.length % ss.length) 0
    channel := n / (ds.length * ss.length) % c
    byte := n / (ds.length * ss.length * c) * g + a % g }

/-- The physical address of a location under a placement word, if one of its bytes lies there (15 R369). -/
def delocate (p : Word) (l : Location) : Option Nat :=
  let g := 2 ^ (placeGran p + 8)
  let ds := placeDies p
  let ss := placeStacks p
  let c := 2 ^ placeChan p
  match (List.range ds.length).find? fun i => ds.getD i 0 = l.die, (List.range ss.length).find? fun i => ss.getD i 0 = l.stack with
  | some di, some si =>
    if l.channel < c then some ((((l.byte / g) * c + l.channel) * ss.length + si) * ds.length * g + di * g + l.byte % g)
    else none
  | _, _ => none

/-- The unit that holds a byte has been taken out of service (15 R377). -/
def unitOut (s : State) (p : Word) (a : Nat) : Bool :=
  let l := locate p a
  match placeTier p with
  | 0 => tgetD false (l.die * 2 + l.stack) s.mgmt.stacksOut || tgetD false ((l.die * 2 + l.stack) * 32 + l.channel) s.mgmt.chansOut
  | 1 => tgetD false (l.die * 8 + l.channel) s.mgmt.tierOut
  | _ => false

/-- A self-test of a unit is under way, or its verdict waits for the host: accesses to it wait (18 R426, R427). The numbers
of units are the model's (log entry 98). -/
def underTest (s : State) (unit die idx : Nat) : Bool :=
  s.mgmt.tests.any fun t => t.unit.toNat = unit && t.die.toNat = die && t.idx.toNat = idx

/-- A memory of a core is under test: 1 its pool, 2 its grist store, 3 its tile store (18 R426). -/
def coreTested (s : State) (unit core : Nat) : Bool := underTest s unit (core / 48) (core % 48)

/-- The memory behind a byte is under test (18 R426). -/
def memTested (s : State) (p : Word) (a : Nat) : Bool :=
  let l := locate p a
  match placeTier p with
  | 0 => underTest s 7 l.die l.stack || underTest s 8 l.die (l.stack * 32 + l.channel)
      || underTest s 6 l.die ((Config.hbmRow l.byte).toNat * 64 + l.stack * 32 + l.channel)
  | 1 => underTest s 9 l.die l.channel
  | _ => false

/-- The link whose seam module, or one of whose lanes, a unit names (16 R382, log entry 98). -/
def unitLink (unit : Byte) (idx : Nat) : Option Nat :=
  match unit.toNat with
  | 10 => some (idx / 16 % 4)
  | 11 => some (4 + idx / 8 % 12)
  | _ => none

/-- A module or a lane of a link is under test (18 R426). -/
def linkTested (s : State) (l : Nat) : Bool := s.mgmt.tests.any fun t => unitLink t.unit t.idx.toNat = some l

/-- The number under which State.mem lists a byte: the tiers, dies, stacks and channels one after another. -/
def locNum (p : Word) (a : Nat) : Nat :=
  let l := locate p a
  match placeTier p with
  | 0 => ((l.die * 2 + l.stack) * 32 + l.channel) * 0x60000000 + l.byte
  | 1 => 2 ^ 50 + (l.die * 8 + l.channel) * 0x800000000 + l.byte
  | 2 => 2 ^ 56 + a
  | _ => 2 ^ 60 + a

/-- The absolute address of a pool's byte, by which a record names it (01 R23, 20 R450, log entry 113). -/
def poolName (core off : Nat) : Nat := 2 ^ 31 + core * 2 ^ 19 + off % 2 ^ 19

/-- The number under which State.bad lists a word of a pool. -/
def poolNum (core off : Nat) : Nat := 2 ^ 61 + core * 2 ^ 19 + off

/-- The home die of a line (15 R370). -/
def homeDie (p : Word) (a : Nat) : Nat :=
  match placeHome p with
  | 1 => (placeDies p).getD (a / 128 % (placeDies p).length) 0
  | 2 => (placeDies p).getD 0 0
  | _ => (locate p (alignDown a 128)).die

/-- The home slice of a line (15 R370). -/
def homeSlice (a : Nat) : Nat := fold5 (a / 128)

/-- The key of a line in the L2 tables: its placement without GEN and its physical address. -/
def lineKey (p : Word) (a : Nat) : Nat := placeSame p * 2 ^ 48 + a / 128

/-- The placement word of a line's key. -/
def keyPlace (k : Nat) : Word := BitVec.ofNat 32 (k / 2 ^ 48)

/-- The physical address of a line's key. -/
def keyAddr (k : Nat) : Nat := k % 2 ^ 48 * 128

/-- The die is admitted (01 R15, 16 R401). -/
def dieAdmitted (s : State) (d : Nat) : Bool := (getDie s d).admitted

/-- The die answers HOME_DOWN (16 R400). -/
def dieHomeDown (s : State) (d : Nat) : Bool := (getDie s d).homeDown

/-- A channel the placement word uses is out of service (15 R368, 01 R22). -/
def channelOut (s : State) (p : Word) : Bool :=
  (placeDies p).any fun d => (List.range (2 ^ placeChan p)).any fun c =>
    if placeTier p = 0 then
      (placeStacks p).any fun st => tgetD false ((d * 2 + st) * 32 + c) s.mgmt.chansOut
    else tgetD false (d * 8 + c) s.mgmt.tierOut

/-- A stack or channel that the placement word uses is out of service (15 R368). -/
def placeUnitOut (s : State) (p : Word) : Bool :=
  !placeRemote p && ((placeTier p = 0
      && (placeDies p).any fun d => (placeStacks p).any fun st => tgetD false (d * 2 + st) s.mgmt.stacksOut) || channelOut s p)

/-- The checks of 15 R368 on the fields of a word. joined tells which dies count as admitted. -/
def placeMalformed (joined : Nat → Bool) (p : Word) : Bool :=
  if placeRemote p then bitsOf p.toNat 31 28 ≠ 0
  else (placeDies p).isEmpty || (placeDies p).any (fun d => !joined d)
    || (placeTier p = 0 && bitsOf p.toNat 7 6 = 0)
    || (if placeTier p = 0 then 5 < placeChan p else 3 < placeChan p)
    || 7 < placeGran p || placeHome p = 3 || bitsOf p.toNat 31 28 ≠ 0

/-- The checks of 15 R368 that need no address. -/
def placeBad (s : State) (joined : Nat → Bool) (p : Word) : Bool := placeMalformed joined p || placeUnitOut s p

/-- A location of the page lies beyond its channel's capacity (15 R368): the last granule is the highest. -/
def placeBeyond (p : Word) (pa size : Nat) : Bool :=
  !placeRemote p && channelBytes (placeTier p) ≤ (locate p (pa + size - 1)).byte

/-- The placement word is unusable for a page (15 R368). -/
def placeUnusable (s : State) (p : Word) (pa size : Nat) : Bool :=
  placeBad s (dieAdmitted s) p || placeBeyond p pa size

/-- A link is UP (16 R383). -/
def linkUp (s : State) (l : Nat) : Bool := (getLink s l).state = .up

/-- The horizontal seam of a die's row and the vertical seam of its column: S01, S23, S02, S13 are links 0 to 3 (16
R382). -/
def rowSeam (d : Nat) : Nat := d / 2
/-- The vertical seam of a die's column. -/
def colSeam (d : Nat) : Nat := 2 + d % 2

/-- The state of a link is one of a set. -/
def linkIn (s : State) (f : LinkState → Bool) (l : Nat) : Bool := f (getLink s l).state

/-- A new request may be sent on a link (16 R383). -/
def isUp : LinkState → Bool
  | .up => true
  | _ => false

/-- Requests already sent on a link go on (16 R383). -/
def carries : LinkState → Bool
  | .up => true
  | .quiescing => true
  | _ => false

/-- Requests already sent on a link are not lost: they go on or are held for replay (16 R383). -/
def keeps : LinkState → Bool
  | .up => true
  | .quiescing => true
  | .retraining => true
  | _ => false

/-- A link carries what has been sent on it: in its state, and with no part of it under test (16 R383, 18 R426). -/
def linkCarries (s : State) (l : Nat) : Bool := linkIn s carries l && !linkTested s l

/-- A route between two dies consists of links of a set (01 R10). -/
def routeOn (on : Nat → Bool) (a b : Nat) : Bool :=
  if a = b then true
  else if a / 2 = b / 2 then on (rowSeam a)
  else if a % 2 = b % 2 then on (colSeam a)
  else (on (rowSeam a) && on (colSeam b)) || (on (colSeam a) && on (rowSeam b))

/-- A route between two dies consists of links whose state is one of a set (01 R10). -/
def routeBy (s : State) (f : LinkState → Bool) (a b : Nat) : Bool := routeOn (linkIn s f) a b

/-- Two dies are diagonal neighbours, between which a request crosses two seams (01 R10). -/
def diagonal (a b : Nat) : Bool := a / 2 ≠ b / 2 && a % 2 ≠ b % 2

/-- The route that a request between two dies takes as it is sent, true for the vertical seam first: diagonal dies only,
where a seam of the other route is not UP (01 R10). -/
def viaOf (s : State) (a b : Nat) : Bool :=
  diagonal a b && !(linkUp s (rowSeam a) && linkUp s (colSeam b))

/-- A route between two dies is UP (01 R10). -/
def routeUp (s : State) (a b : Nat) : Bool := routeBy s isUp a b

/-- The fabric link that a byte of the route table names, if it is valid (16 R386). -/
def routeLink (e : Byte) : Option Nat := if e.getLsbD 7 && bitsOf e.toNat 3 0 < 12 then some (4 + bitsOf e.toNat 3 0) else none

/-- The fabric link that a byte of the route table names is UP (16 R386, R387). -/
def routeByteUp (s : State) (e : Byte) : Bool := (routeLink e).any (linkUp s)

/-- The route of a tier outside the device (16 R382, R387): the host link, or the fabric link the route table names
for a peer. -/
def remoteLink (s : State) (p : Word) (a : Nat) : Option Nat :=
  if placeTier p = 2 then some 16 else routeLink (tgetD 0 (a / 2 ^ 42 % 2 ^ 10) s.host.route)

/-- The route of a die to the home of an address consists of links of a set. -/
def homeRouteOn (s : State) (on : Nat → Bool) (die : Nat) (p : Word) (a : Nat) : Bool :=
  if placeRemote p then (remoteLink s p a).any on else routeOn on die (homeDie p a)

/-- The route of a die to the home of an address consists of links whose state is one of a set. -/
def homeRoute (s : State) (f : LinkState → Bool) (die : Nat) (p : Word) (a : Nat) : Bool := homeRouteOn s (linkIn s f) die p a

/-- What two dies exchange waits on a seam that is being retrained or is under test (16 R383, 18 R426). -/
def seamHeld (s : State) (a b : Nat) : Bool := routeBy s keeps a b && !routeOn (linkCarries s) a b

/-- A request to the home of an address waits on a link that is being retrained or is under test (16 R383, 18 R426). -/
def routeHeld (s : State) (die : Nat) (p : Word) (a : Nat) : Bool :=
  homeRoute s keeps die p a && !homeRouteOn s (linkCarries s) die p a

/-- Bytes of the HBM tier's frame space under GEO.QUAD. -/
def hbmFrames : Nat := 256 * 0x60000000

end Sys2Proof.Machine
end

