-- ==== Sys2Proof/Machine/Lines.lean ====
section
/-! DEFINITION. Memory behind the L2, home lines, the registry and the copies of other dies (01 R16 to R18, 10 R253
to R262): what a word holds now, and the device's own reads and writes. -/
namespace Sys2Proof.Machine

/-- Bytes of a page by its size code (15 R361). -/
def pageBytes (size : Nat) : Nat := 2 ^ (if size = 0 then 16 else if size = 1 then 21 else 30)

/-- A byte of memory: an unlisted one reads 0 (log entry 2). -/
def memByte (s : State) (n : Nat) : Byte := tgetD 0 n s.mem

/-- Write bytes of memory from a location on, in ascending order. -/
def memPut (s : State) (n : Nat) : List Byte → State
  | [] => s
  | b :: r => memPut { s with mem := tputD 0 n b s.mem } (n + 1) r

/-- Clear the errors of the words that n bytes from a location cover whole (18 R428). -/
def clearBad (s : State) (loc n : Nat) : State :=
  { s with bad := s.bad.filter fun e => !(loc ≤ e.1 * 4 && e.1 * 4 + 4 ≤ loc + n) }

/-- A word of these bytes has an uncorrectable error (18 R428). -/
def badIn (s : State) (loc n : Nat) : Bool := s.bad.any fun e => overlap (e.1 * 4) 4 loc n

/-- The bytes of a line as memory holds them; a peer device's are its own (16 R387, log entry 4). -/
def memLine (s : State) (p : Word) (a : Nat) : Line :=
  lineOf ((List.range 128).map fun i =>
    if placeTier p = 3 then Config.peerByte (a / 2 ^ 42 % 2 ^ 10) (alignDown a 128 % 2 ^ 42 + i) s.free
    else memByte s (locNum p (alignDown a 128) + i))

/-- The home line of an address, as its slice holds it or would fill it (15 R370). -/
def homeLine (s : State) (p : Word) (a : Nat) : HomeLine :=
  match tfind (lineKey p a) (getDie s (homeDie p a)).home with
  | some h => h
  | none => { data := memLine s p a, use := placeUseCount p }

/-- The line is held by its home slice. -/
def homeHeld (s : State) (p : Word) (a : Nat) : Bool :=
  (tfind (lineKey p a) (getDie s (homeDie p a)).home).isSome

/-- The block of 512 bytes of a compressed HBM page has lost its metadata (15 R372). -/
def metaBad (s : State) (p : Word) (a : Nat) : Bool :=
  placeTier p = 0 && placeComp p && tgetD false (lineKey p a / 4) s.badMeta

/-- Every access to a line meets an uncorrectable error, one that covers its words whole too: it misses on a unit out of
service (15 R377), or the metadata of its compressed block is lost (15 R372). -/
def lineBad (s : State) (p : Word) (a : Nat) : Bool :=
  (!placeRemote p && unitOut s p a && !homeHeld s p a) || metaBad s p a

/-- n bytes of a line meet an uncorrectable error: an upset word (18 R428), or one of the whole line. -/
def badAt (s : State) (p : Word) (a n : Nat) : Bool := badIn s (locNum p a) n || lineBad s p a

/-- What serves a line at its home is under test: the slice's registry, the way that holds the line, or else the memory
behind it (18 R426). -/
def homeTested (s : State) (p : Word) (a : Nat) : Bool :=
  let d := homeDie p a
  let n := homeSlice a
  !placeRemote p && (underTest s 5 d n || (match tfind (lineKey p a) (getDie s d).home with
    | some h => underTest s 4 d (n * 16 + h.way)
    | none => memTested s p a))

/-- The way that holds a visitor line is under test (18 R426). -/
def visitorTested (s : State) (d k : Nat) : Bool :=
  (tfind k (getDie s d).visitor).any fun v => underTest s 4 d (homeSlice (keyAddr k) * 16 + v.way)

/-! ## The ways of a slice (01 R16, R17, R19, R20) -/

/-- The visitor ways that a change of boundary under way asks for (01 R19). -/
def askedWays (d : Die) : Nat := max 2 (min 8 d.vways.toNat)

/-- The ways of a slice that may take a home line, or a visitor line: of that role, in service, and not changing their
role (01 R17, R20, 18 R426). -/
def roleWays (d : Die) (slice : Nat) (visitor : Bool) : List Nat :=
  (List.range 16).filter fun w =>
    decide (16 - d.active.toNat ≤ w) = visitor && (!d.busy || decide (16 - askedWays d ≤ w) = visitor)
      && !d.lastingWays.contains (slice * 16 + w)

/-- The lines of a list, key and way, that lie in one slice. -/
def inSlice (k : Nat) (l : List (Nat × Nat)) : List (Nat × Nat) :=
  l.filter fun e => homeSlice (keyAddr e.1) = homeSlice (keyAddr k)

/-- A free way for a line among those of its set. While the lines of the slice leave a way free in every set, that one
serves (which free way a line takes is open: log entry 119). -/
def freeWay (ways : List Nat) (k : Nat) (l : List (Nat × Nat)) : Option Nat :=
  let near := inSlice k l
  match ways.find? fun w => !near.any fun e => e.2 = w with
  | some w => some w
  | none =>
    let set := near.filter fun e => Config.lineSet e.1 = Config.lineSet k
    ways.find? fun w => !set.any fun e => e.2 = w

/-- The lines that hold the ways of a full set, one of which makes room. -/
def setLines (ways : List Nat) (k : Nat) (l : List (Nat × Nat)) : List (Nat × Nat) :=
  (inSlice k l).filter fun e => Config.lineSet e.1 = Config.lineSet k && ways.contains e.2

/-- The home lines of a die by key and way. -/
def homeWaysOf (d : Die) : List (Nat × Nat) := d.home.map fun e => (e.1, e.2.way)

/-- The ways that a home line of a key may take on its die. -/
def homeRole (s : State) (p : Word) (a : Nat) : List Nat := roleWays (getDie s (homeDie p a)) (homeSlice a) false

/-- A slice may not choose this home line for replacement: it is dirty and its memory is on a die under reset (16 R402). -/
def pinned (s : State) (d k : Nat) : Bool :=
  (tfind k (getDie s d).home).any fun h => h.dirty && dieHomeDown s (locate (keyPlace k) (keyAddr k)).die

/-- The home lines that may make room for a line (16 R402). -/
def homeVictims (s : State) (p : Word) (a : Nat) : List Nat :=
  let d := homeDie p a
  ((setLines (homeRole s p a) (lineKey p a) (homeWaysOf (getDie s d))).map Prod.fst).filter fun k => !pinned s d k

/-- The free way for a home line, if its set has one. -/
def homeFree (s : State) (p : Word) (a : Nat) : Option Nat :=
  freeWay (homeRole s p a) (lineKey p a) (homeWaysOf (getDie s (homeDie p a)))

/-- An allocation of the line finds every way of its set held by a line that may not be replaced (16 R402). -/
def setPinned (s : State) (p : Word) (a : Nat) : Bool :=
  !placeRemote p && !homeHeld s p a && (homeFree s p a).isNone && (homeVictims s p a).isEmpty

/-- Write a home line back to memory (15 R372 keeps the bytes). A word with an uncorrectable error keeps it (18 R428). -/
def writeBack (s : State) (k : Nat) (h : HomeLine) : State :=
  if h.dirty then memPut s (locNum (keyPlace k) (keyAddr k)) ((List.range 128).map (lineByte h.data)) else s

/-- A home slice gives a line up. -/
def evictHome (s : State) (d k : Nat) : State :=
  match tfind k (getDie s d).home with
  | some h => modDie (writeBack s k h) d fun x => { x with home := tdel k x.home }
  | none => s

/-- One of the lines of a list makes room; which one is open (01 R16, log entry 119). -/
def chosen (s : State) (l : List Nat) : Option Nat := l[(freshValue s).toNat % l.length]?

/-- Put a line into its home slice: in its way, in a free one of its set, or in that of a line that makes room. With
none of these the line is written to memory and not held. -/
def putHome (s : State) (p : Word) (a : Nat) (h : HomeLine) : State :=
  let put (s : State) (w : Nat) : State :=
    modDie s (homeDie p a) fun d => { d with home := tput (lineKey p a) { h with way := w } d.home }
  match tfind (lineKey p a) (getDie s (homeDie p a)).home with
  | some old => put s old.way
  | none => match homeFree s p a with
    | some w => put s w
    | none => match chosen s (homeVictims s p a) with
      | some k => put (evictHome (bumpFree s) (homeDie p a) k) (((tfind k (getDie s (homeDie p a)).home).map HomeLine.way).getD 0)
      | none => writeBack s (lineKey p a) h

/-- The key of a word in the registry. -/
def wordKey (p : Word) (a : Nat) : Nat := lineKey p a * 32 + a % 128 / 4

/-- The registry's entry for the word of an address (10 R256). -/
def regWord (s : State) (p : Word) (a : Nat) : RegWord := tgetD {} (wordKey p a) (getDie s (homeDie p a)).registry

/-- Change the registry's entry for a word; an entry that says nothing is not listed. -/
def modReg (s : State) (p : Word) (a : Nat) (f : RegWord → RegWord) : State :=
  modDie s (homeDie p a) fun d =>
    { d with registry := tputD {} (wordKey p a) (f (tgetD {} (wordKey p a) d.registry)) d.registry }

/-- The owner code of a die (10 R256). -/
def ownerOfDie (d : Nat) : BitVec 3 := BitVec.ofNat 3 (d + 1)

/-- The value the registered owner holds for a word: a die's visitor copy or a link buffer's (10 R257, R259). -/
def ownerWord (s : State) (owner : BitVec 3) (p : Word) (a : Nat) : Option Word :=
  if owner.toNat = 0 then none
  else if owner.toNat ≤ 4 then
    (tfind (lineKey p a) (getDie s (owner.toNat - 1)).visitor).map fun v => lineWord v.data (a % 128 / 4)
  else (s.flight.linkWords.find? fun w => w.buf + 5 = owner.toNat && w.key = lineKey p a && w.word = a % 128 / 4).map
    LinkWord.data

/-- The current value of the word of an address: its owner's copy when it is registered, else the home's. -/
def currentWord (s : State) (p : Word) (a : Nat) : Word :=
  if placeRemote p then lineWord (memLine s p a) (a % 128 / 4)
  else (ownerWord s (regWord s p a).owner p a).getD (lineWord (homeLine s p a).data (a % 128 / 4))

/-- The current value of a byte. -/
def currentByte (s : State) (p : Word) (a : Nat) : Byte := (currentWord s p a).extractLsb' (8 * (a % 4)) 8

/-- The bytes of n addresses from a physical address. -/
def physBytes (s : State) (p : Word) (a n : Nat) : List Byte := (List.range n).map fun i => currentByte s p (a + i)

/-- The page of a migration contains the address at its old placement (15 R374). -/
def migCovers (m : Migration) (p : Word) (a : Nat) : Bool :=
  match m.old with
  | some l => placeSame l.place = placeSame p && l.pa ≤ a && a < l.pa + pageBytes l.size
  | none => false

/-- From the ninth pass of a copy on, an old home admits writes to the page at half the copy rate of a granule of 256
bytes per clock: one in two cycles (15 R374, log entry 124). -/
def throttledAt (s : State) (p : Word) (a : Nat) : Bool :=
  s.pages.queue.any fun m => m.stage = .copying && 8 ≤ m.pass && migCovers m p a
    && (tfind (homeDie p a) m.lastWrite).any fun c => s.clk.cycle < c + 2

/-- A write at an old home marks its granule in the dirty bitmap of a page being copied (15 R374, R375). -/
def markDirty (s : State) (p : Word) (a : Nat) : State :=
  { s with pages := { s.pages with queue := s.pages.queue.map fun m =>
      if m.stage ≠ .queued && migCovers m p a then
        { m with dirty := tput ((a - (m.old.map Leaf.pa).getD 0) / 256) true m.dirty
                 lastWrite := tput (homeDie p a) s.clk.cycle m.lastWrite }
      else m } }

/-- A word that an owner returns or drains is written whole at its home: its error ends, the line is dirty, and a store has
been made to it (12 R314, 15 R374, 18 R428). -/
def putHomeWord (s : State) (p : Word) (a : Nat) (w : Word) : State :=
  let s := markDirty (clearBad s (locNum p (alignDown a 4)) 4) p a
  let h := homeLine s p a
  let i := a % 128 / 4
  let d := foldSt (fun l (j : Nat) => lineSet l (4 * i + j) (w.extractLsb' (8 * j) 8)) h.data (List.range 4)
  putHome s p a { h with data := d, dirty := true, use := 0, dead := false }

/-- A store to a line elsewhere ends the count and the DEAD mark of the line its home holds (12 R314). -/
def storedElsewhere (s : State) (p : Word) (a : Nat) : State :=
  match tfind (lineKey p a) (getDie s (homeDie p a)).home with
  | some h => if h.use = 0 && !h.dead then s else putHome s p a { h with use := 0, dead := false }
  | none => s

/-- The stores of a die to a word that its owned copy already shows are performed when the copy is returned or drained:
they take no part in a later registration (10 R255, R257). -/
def storesReturned (s : State) (die : Nat) (p : Word) (a : Nat) : State :=
  modFlight s fun f => { f with global := f.global.map fun r =>
    match r.leaf with
    | some l =>
      if r.visitor && r.die = die && lineKey l.place (l.pa + r.va % pageBytes l.size) = lineKey p a then
        { r with bytes := r.bytes.filter fun b => b.1 / 4 ≠ a % 128 / 4 }
      else r
    | none => r }

/-- The owner's copy of a word becomes CLEAN, or leaves the link buffer (10 R257, R259). -/
def ownerClean (s : State) (owner : BitVec 3) (p : Word) (a : Nat) : State :=
  let i := a % 128 / 4
  if owner.toNat = 0 then s
  else if owner.toNat ≤ 4 then
    let clean (v : VisitorLine) : VisitorLine :=
      { v with clean := putBit v.clean i (v.owned.getLsbD i || v.clean.getLsbD i), owned := putBit v.owned i false
               dirty := putBit v.dirty i false, epochs := tdel i v.epochs }
    modDie (storesReturned s (owner.toNat - 1) p a) (owner.toNat - 1) fun d =>
      { d with visitor := tmod (lineKey p a) clean d.visitor }
  else modFlight s fun f => { f with linkWords := f.linkWords.filter fun w =>
    !(w.buf + 5 = owner.toNat && w.key = lineKey p a && w.word = i) }

/-- No route leads between the home of an address and the die of an owner (01 R9, R10); a link buffer is part of the
device and is reached as its home is. -/
def ownerCut (s : State) (owner : BitVec 3) (p : Word) (a : Nat) : Bool :=
  0 < owner.toNat && owner.toNat ≤ 4 && !routeBy s keeps (homeDie p a) (owner.toNat - 1)

/-- What the home of an address and the die of an owner exchange waits on a seam (16 R383). -/
def ownerHeld (s : State) (owner : BitVec 3) (p : Word) (a : Nat) : Bool :=
  0 < owner.toNat && owner.toNat ≤ 4 && seamHeld s (homeDie p a) (owner.toNat - 1)

/-- A recall of one word: its owner returns the value, keeps a CLEAN copy, and the word is unregistered (10 R257).
An owner that has no copy, or that no route reaches, leaves the word owner-lost (10 R268, R269). -/
def recallWord (s : State) (p : Word) (a : Nat) : State :=
  let r := regWord s p a
  if r.owner = 0 then s
  else match if ownerCut s r.owner p a then none else ownerWord s r.owner p a with
    | some w => modReg (ownerClean (putHomeWord s p a w) r.owner p a) p a fun r => { r with owner := 0 }
    | none => modReg s p a fun r => { r with owner := 0, lost := true }

/-- One byte written at its home after a recall (10 R253, R258): a store ends the line's count and DEAD mark (12
R314). A write to the host tier goes to the memory there; one to
a peer leaves the package (10 R259). -/
def homePutByte (s : State) (p : Word) (a : Nat) (b : Byte) : State :=
  if placeTier p = 2 then markDirty { s with mem := tputD 0 (locNum p a) b s.mem } p a
  else if placeTier p = 3 then markDirty s p a
  else
    let s := markDirty (recallWord s p a) p a
    let h := homeLine s p a
    putHome s p a { h with data := lineSet h.data (a % 128) b, dirty := true, use := 0, dead := false }

/-- Bytes written at their homes, ascending. -/
def putPhys (s : State) (p : Word) (a : Nat) : List Byte → State
  | [] => s
  | b :: r => putPhys (homePutByte s p a b) p (a + 1) r

/-- A store that covers the word of an address whole ends its error and its owner-lost bit (10 R268, 18 R428). -/
def clearWord (s : State) (p : Word) (a : Nat) : State :=
  let s := clearBad s (locNum p a) 4
  if placeRemote p || !(regWord s p a).lost then s else modReg s p a fun r => { r with lost := false }

/-- Bytes written at their homes; the error of a word they cover whole is cleared (10 R268, 18 R428, log entry 12). -/
def physPut (s : State) (p : Word) (a : Nat) (bs : List Byte) : State :=
  let w := (List.range ((bs.length + 3) / 4 + 1)).filter fun i =>
    let x := (a + 3) / 4 * 4 + 4 * i
    x + 4 ≤ a + bs.length
  putPhys (foldSt (fun s i => clearWord s p ((a + 3) / 4 * 4 + 4 * i)) s w) p a bs

/-- The words of a visitor line that are registered to its die drain to their home and become CLEAN (10 R262); a word
whose home is under reset or out of reach becomes owner-lost (10 R269). -/
def drainLine (s : State) (d k : Nat) (which : Nat → Bool) : State :=
  match tfind k (getDie s d).visitor with
  | some v => foldSt (fun s (i : Nat) =>
      let p := keyPlace k
      let a := keyAddr k + 4 * i
      if v.owned.getLsbD i && which i && (regWord s p a).owner = ownerOfDie d then
        if dieHomeDown s (homeDie p a) || ownerCut s (ownerOfDie d) p a then
          modReg s p a fun r => { r with owner := 0, lost := true }
        else
          let s := if v.dirty.getLsbD i then putHomeWord s p a (lineWord v.data i) else s
          modReg (ownerClean s (ownerOfDie d) p a) p a fun r => { r with owner := 0 }
      else s) s (List.range 32)
  | none => s

/-- A slice gives a visitor line up: its registered dirty words drain to the home first (01 R20). -/
def evictVisitor (s : State) (d k : Nat) : State :=
  modDie (drainLine s d k fun _ => true) d fun x => { x with visitor := tdel k x.visitor }

end Sys2Proof.Machine
end

