-- ==== Sys2Proof/Machine/Walk.lean ====
section
/-! DEFINITION. Page tables, owners of frames and translation caches (15 R361 to R366), the fault codes of 04 R95,
and the device's own accesses at virtual addresses. -/
namespace Sys2Proof.Machine

/-! ## Fault codes (04 R95) -/

def cILLEGAL : Byte := 0x01
def cSHAPE : Byte := 0x02
def cUNIFORMITY : Byte := 0x03
def cLOOP_NEST : Byte := 0x04
def cDIVERGENCE : Byte := 0x05
def cPOOL_ADDR : Byte := 0x06
def cTRANSLATION : Byte := 0x07
def cPERMISSION : Byte := 0x08
def cPLACEMENT : Byte := 0x09
def cHOME_DOWN : Byte := 0x0A
def cOWNER_LOST : Byte := 0x0B
def cDATA_UNCORRECTABLE : Byte := 0x0C
def cSLOT : Byte := 0x0D
def cBUDGET : Byte := 0x0E
def cOVERFLOW : Byte := 0x0F
def cBARRIER_ERR : Byte := 0x10
def cREG_RANGE : Byte := 0x11
def cPRIVILEGE : Byte := 0x12
def cWATCH : Byte := 0x13
def cBREAK : Byte := 0x14
def cTRAP : Byte := 0x15
def cMISALIGN : Byte := 0x16
def cLINK_DOWN : Byte := 0x17
def cCALL_DEPTH : Byte := 0x18
def cLAUNCH_REGS : Byte := 0x19

/-! ## Walks -/

/-- The 16-byte entry of a table at a frame address of the HBM tier (15 R361). -/
def tableEntry (s : State) (base idx : Nat) : Nat := bytesNat (physBytes s geoQuad (base + 16 * idx) 16)

/-- A reserved bit of an entry is set (15 R362). -/
def entryReserved (e : Nat) (leaf : Bool) : Bool :=
  bitsOf e 95 67 ≠ 0 || bitsOf e 63 52 ≠ 0 || bitsOf e 11 8 ≠ 0 || bitsOf e 6 5 ≠ 0
    || (!leaf && (bitsOf e 127 96 ≠ 0 || bitsOf e 66 64 ≠ 0))

/-- The leaf an entry holds (15 R362). -/
def leafOf (e at_ size : Nat) : Leaf :=
  { pa := bitsOf e 51 12 * 4096, place := BitVec.ofNat 32 (bitsOf e 127 96), size := size
    r := bitOf e 2, w := bitOf e 3, x := bitOf e 4, dup := bitOf e 7
    state := BitVec.ofNat 3 (bitsOf e 66 64), entry := at_ }

/-- The entry of a leaf, 16 bytes (15 R362). -/
def leafEntry (l : Leaf) : List Byte :=
  let f (b : Bool) (i : Nat) : Nat := if b then 2 ^ i else 0
  natBytes 16 (3 + f l.r 2 + f l.w 3 + f l.x 4 + f l.dup 7 + l.pa / 4096 * 2 ^ 12 + l.state.toNat * 2 ^ 64
    + l.place.toNat * 2 ^ 96)

/-- The die counts as admitted for a page that exists: a die under a warm reset answers for itself (log entry 20). -/
def dieServes (s : State) (d : Nat) : Bool :=
  dieAdmitted s d || dieHomeDown s d || (s.dreset.busy && s.dreset.die.toNat = d)

/-- The number of the 64 KiB frame part of a tier. -/
def framePart (tier pa : Nat) : Nat := tier * 2 ^ 40 + pa / 65536

/-- A frame holds a MAPPED page that a failed unit has caught: it stays in use until the page has moved (15 R377). -/
def failingFrame (s : State) (p : Word) (pa : Nat) : Bool := tgetD false (framePart (placeTier p) pa) s.pages.failing

/-- A frame of n bytes has a part that was retired: it is never placed again (15 R377). -/
def retiredFrame (s : State) (p : Word) (pa n : Nat) : Bool :=
  !placeRemote p && (List.range (n / 65536)).any fun i => tgetD false (framePart (placeTier p) (pa + 65536 * i)) s.pages.retired

/-- The checks on a leaf found by a walk or returned by the host: the code, PLACEMENT for an unusable word (15 R363,
R368). A RETIRED page answers as one (15 R373, log entry 21); a MAPPED page that a failed unit has caught is found, and its
accesses to the unit report DATA_UNCORRECTABLE (15 R377); a frame that was retired is unusable (log entry 137). -/
def leafCheck (s : State) (l : Leaf) : WalkRes :=
  if !aligned l.pa (pageBytes l.size) then .code cTRANSLATION
  else if l.state = 4 then .leaf l
  else if placeMalformed (dieServes s) l.place || (placeUnitOut s l.place && !failingFrame s l.place l.pa)
      || placeBeyond l.place l.pa (pageBytes l.size) || retiredFrame s l.place l.pa (pageBytes l.size)
  then .code cPLACEMENT
  else .leaf l

/-- The leaf a table holds for an address, whatever its placement word. -/
def rawFrom (s : State) (va base : Nat) : List (Nat × Nat × Nat × Nat) → Option Leaf
  | [] => none
  | (lv, sh, n, size) :: r =>
    let idx := va / 2 ^ sh % 2 ^ n
    let e := tableEntry s base idx
    let leaf := bitOf e 1
    if !bitOf e 0 || entryReserved e leaf || (lv = 4 && leaf) || (lv = 1 && !leaf) then none
    else if leaf then
      let l := leafOf e (base + 16 * idx) size
      if aligned l.pa (pageBytes l.size) then some l else none
    else rawFrom s va (bitsOf e 51 12 * 4096) r

/-- A walk from a level downward: (level, lowest bit, index bits, size code of its leaves) (15 R361, R363). -/
def walkFrom (s : State) (va base : Nat) : List (Nat × Nat × Nat × Nat) → WalkRes
  | [] => .code cTRANSLATION
  | (lv, sh, n, size) :: r =>
    let idx := va / 2 ^ sh % 2 ^ n
    let e := tableEntry s base idx
    let leaf := bitOf e 1
    if !bitOf e 0 || entryReserved e leaf || (lv = 4 && leaf) || (lv = 1 && !leaf) then .code cTRANSLATION
    else if leaf then leafCheck s (leafOf e (base + 16 * idx) size)
    else walkFrom s va (bitsOf e 51 12 * 4096) r

/-- The levels of a page table (15 R361). -/
def tableLevels : List (Nat × Nat × Nat × Nat) := [(4, 43, 13, 3), (3, 30, 13, 2), (2, 21, 9, 1), (1, 16, 5, 0)]

/-- A walk of a context's table (15 R363). -/
def walkPage (s : State) (ctx va : Nat) : WalkRes :=
  if 2 ^ 56 ≤ va then .code cTRANSLATION else walkFrom s va (getCtx s ctx).ptroot tableLevels

/-- The leaf of a context's page, whatever its placement word (15 R379). -/
def rawLeaf (s : State) (ctx va : Nat) : Option Leaf :=
  if 2 ^ 56 ≤ va then none else rawFrom s va (getCtx s ctx).ptroot tableLevels

/-- The first address of the page of a leaf. -/
def pageBase (l : Leaf) (va : Nat) : Nat := alignDown va (pageBytes l.size)

/-- The physical address of a virtual one. -/
def physAddr (l : Leaf) (va : Nat) : Nat := l.pa + va % pageBytes l.size

/-! ## Owners of frames (15 R364) -/

/-- The owner of a part: 0xFFFF for none. -/
def frameOwner (s : State) (tier pa : Nat) : Nat := tgetD 0xFFFF (framePart tier pa) s.pages.owners

/-- Write an owner. -/
def setOwner (s : State) (tier pa ctx : Nat) : State :=
  { s with pages := { s.pages with owners := tputD 0xFFFF (framePart tier pa) ctx s.pages.owners } }

/-- The parts of a leaf's frame. -/
def leafParts (l : Leaf) : List Nat := (List.range (pageBytes l.size / 65536)).map fun i => l.pa + 65536 * i

/-- The parts of a leaf's frame that the walking context does not own (15 R364). -/
def foreignParts (s : State) (ctx : Nat) (l : Leaf) : List Nat :=
  if placeRemote l.place || (getCtx s ctx).mode.getLsbD 0 then []
  else (leafParts l).filter fun pa => frameOwner s (placeTier l.place) pa ≠ ctx

/-- A line's key lies in a 64 KiB part of a tier. -/
def keyInPart (tier pa k : Nat) : Bool := placeTier (keyPlace k) = tier && keyAddr k / 65536 = pa / 65536

/-- Zero a part of a frame: its memory, and its home lines, visitor lines and registry words on every die (15 R364,
04 R93). -/
def zeroPart (s : State) (p : Word) (pa : Nat) : State :=
  let t := placeTier p
  let gone := (List.range 256).map fun i => locNum p (alignDown pa 65536 + 256 * i)
  { s with
    mem := s.mem.filter fun c => !gone.any fun b => b ≤ c.1 && c.1 < b + 256
    bad := s.bad.filter fun c => !gone.any fun b => b ≤ c.1 * 4 && c.1 * 4 < b + 256
    dies := s.dies.map fun d => (d.1, { d.2 with
      home := d.2.home.filter fun e => !keyInPart t pa e.1
      visitor := d.2.visitor.filter fun e => !keyInPart t pa e.1
      registry := d.2.registry.filter fun e => !keyInPart t pa (e.1 / 32)
      regOrder := d.2.regOrder.filter fun k => !keyInPart t pa k })
    flight := { s.flight with linkWords := s.flight.linkWords.filter fun w => !keyInPart t pa w.key } }

/-- Zero the parts of a frame that belong to another owner and write the new owner (15 R364). -/
def takeFrames (s : State) (ctx : Nat) (l : Leaf) : State :=
  foldSt (fun s pa => setOwner (zeroPart s l.place pa) (placeTier l.place) pa ctx) s (foreignParts s ctx l)

/-! ## Translation caches (15 R365) -/

/-- The entry serves the address. -/
def tcovers (ctx va : Nat) (e : TEntry) : Bool := e.ctx = ctx && e.va = pageBase e.leaf va

/-- A hit in the cache of the core or of its die. -/
def cachedLeaf (s : State) (core ctx va : Nat) : Option Leaf :=
  match (getCore s core).tcache.find? (tcovers ctx va) with
  | some e => some e.leaf
  | none => ((getDie s (coreDie core)).tcache.find? (tcovers ctx va)).map TEntry.leaf

/-- Enter a translation into the core's 64-entry and the die's 4096-entry cache (log entry 13: the oldest leaves); the
device itself (core 192) keeps none. -/
def cacheLeaf (s : State) (core ctx va : Nat) (l : Leaf) : State :=
  if 192 ≤ core then s else
  let e : TEntry := { ctx := ctx, va := pageBase l va, leaf := l }
  let put (n : Nat) (c : List TEntry) := (e :: c.filter fun x => !(x.ctx = ctx && x.va = e.va)).take n
  modDie (modCore s core fun k => { k with tcache := put 64 k.tcache }) (coreDie core) fun d =>
    { d with tcache := put 4096 d.tcache }

/-- A leaf lacks the right an access needs (15 R363), or its page is RETIRED (15 R373). -/
def leafRight (l : Leaf) (r w x : Bool) : Option Byte :=
  if l.state = 4 then some cDATA_UNCORRECTABLE
  else if (r && !l.r) || (w && !l.w) || (x && !l.x) then some cPERMISSION else none

/-- PLACEMENT is reported as TRANSLATION to all but a copy and PGPROBE (15 R363). -/
def asTranslation (c : Byte) : Byte := if c = cPLACEMENT then cTRANSLATION else c

/-! ## The device's own accesses -/

/-- Two addresses lie in one 64 KiB piece. -/
def samePiece (a b : Nat) : Bool := a / 65536 = b / 65536

/-- A walk that has ended for a unit that takes its outcome itself. -/
def walkDone (core ctx va : Nat) (w : Walk) : Bool :=
  w.core = core && w.ctx = ctx && samePiece w.va va && w.keep && w.res.isSome

/-- Who asks for a walk on the device's own behalf. -/
def deviceCore : Nat := 192

/-- The device walks the tables itself: WALK is set, and no walk of the page that began with WALK = 0 is under way, which
ends as it began (04 R91). -/
def devWalks (s : State) (ctx va : Nat) : Bool :=
  s.mode.getLsbD 1 && !s.flight.walks.any fun w => w.core = deviceCore && w.ctx = ctx && samePiece w.va va && w.keep

/-- A translation for the device itself: by a walk, or with WALK = 0 as the walk mailbox has returned it; a page it has
not returned is noted (15 R363, 04 R91). -/
def devTranslate (s : State) (ctx va : Nat) : State × WalkRes :=
  if 2 ^ 56 ≤ va then (s, .code cTRANSLATION)
  else if devWalks s ctx va then (s, walkPage s ctx va)
  else match (s.flight.walks.find? (walkDone deviceCore ctx va)).bind Walk.res with
    | some r => (modFlight s fun f => { f with taken := (ctx, va) :: f.taken }, r)
    | none => (modFlight s fun f => { f with misses := f.misses ++ [(ctx, va)] }, .code cTRANSLATION)

/-- Translate for the device at once (15 R361 to R364). -/
def devLeaf (s : State) (ctx va : Nat) (w : Bool) : State × WalkRes :=
  match devTranslate s ctx va with
  | (s, .code c) => (s, .code (asTranslation c))
  | (s, .leaf l) => match leafRight l (!w) w false with
    | some c => (s, .code c)
    | none =>
      let a := physAddr l va
      if !placeRemote l.place && dieHomeDown s (homeDie l.place a) then (s, .code cHOME_DOWN)
      else (takeFrames s ctx l, .leaf l)

/-- Read n bytes at a virtual address: the bytes, or a code. -/
def devRead (s : State) (ctx : Nat) : Nat → Nat → State × (List Byte ⊕ Byte)
  | _, 0 => (s, .inl [])
  | va, n + 1 =>
    match devLeaf s ctx va false with
    | (s, .code c) => (s, .inr c)
    | (s, .leaf l) =>
      let a := physAddr l va
      if badAt s l.place a 1 then (s, .inr cDATA_UNCORRECTABLE)
      else match devRead s ctx (va + 1) n with
        | (s, .inl r) => (s, .inl (currentByte s l.place a :: r))
        | (s, .inr c) => (s, .inr c)

/-- The pieces of n bytes from an address that lie in blocks of b bytes, ascending: first address and length. -/
def piecesOf (b va n : Nat) : List (Nat × Nat) :=
  (List.range ((va + n + b - 1) / b - va / b)).map fun i =>
    let lo := max va ((va / b + i) * b)
    (lo, min (va + n) ((va / b + i + 1) * b) - lo)

/-- The code with which a write of n bytes at a virtual address fails, if any. -/
def devWriteCode (s : State) (ctx va n : Nat) : State × Option Byte :=
  foldSt (fun r e => match r.2 with
    | some _ => r
    | none => match devLeaf r.1 ctx e.1 true with
      | (t, .code c) => (t, some c)
      | (_, .leaf _) => (r.1, none)) (s, none) (piecesOf 128 va n)

/-- Write bytes at a virtual address: true, or nothing is written because one of them cannot be. -/
def devWrite (s : State) (ctx va : Nat) (bs : List Byte) : State × Bool :=
  match devWriteCode s ctx va bs.length with
  | (s, some _) => (s, false)
  | (s, none) => (foldSt (fun s e => match devLeaf s ctx e.1 true with
    | (s, .leaf l) => physPut s l.place (physAddr l e.1) ((bs.drop (e.1 - va)).take e.2)
    | (s, .code _) => s) s (piecesOf 4 va bs.length), true)

end Sys2Proof.Machine
end

