-- ==== Sys2Proof/Machine/Debug.lean ====
section
/-! DEFINITION. Debug records and the ring that takes them (17 R406, R415), trace triggers (17 R416, R417), and the
stops of a cluster (17 R411). -/
namespace Sys2Proof.Machine

/-- The PC of a thread: a front-end's, or that of a group's highest-numbered split (17 R417). -/
def threadPc (b : Block) : Who → Word
  | .fe => b.fe.pc
  | .grp g => (((tfind g b.groups).bind fun r => r.splits.getLast?).map fun e => e.2.pc).getD 0

/-- The bytes of a debug record (17 R415). -/
def debugBytes (s : State) (core : Nat) (b : Block) (kind code : Byte) (f06 : BitVec 16) (gts : DWord) (handle : Word)
    (addr : DWord) (pc detail : Word) (data : DWord) (skids : List Byte) : List Byte :=
  let idx := ((getCl s b.cluster).map Cluster.index).getD 0
  natBytes 4 (128 + 4 * b.hdr.barriers) ++ [kind, code] ++ natBytes 2 f06.toNat ++ natBytes 8 gts.toNat
    ++ natBytes 4 b.job ++ natBytes 4 idx
    ++ [BitVec.ofNat 8 b.member, BitVec.ofNat 8 core, BitVec.ofNat 8 b.hdr.groups, BitVec.ofNat 8 b.hdr.barriers]
    ++ natBytes 4 handle.toNat ++ natBytes 8 addr.toNat ++ natBytes 4 pc.toNat ++ natBytes 4 detail.toNat
    ++ natBytes 8 data.toNat ++ natBytes 4 b.ctx ++ natBytes 4 0
    ++ (List.range 64).map (fun i => skids.getD i 0)
    ++ (List.range b.hdr.barriers).flatMap fun i => natBytes 4 (tgetD {} i b.barriers).phase.toNat

/-- The placement under which the debug ring is written, if there is a ring (17 R405, R406). -/
def ringPlace (s : State) : Option Word :=
  if s.dbg.drlog.toNat < 4 || 12 < s.dbg.drlog.toNat then none
  else match bitsOf s.dbg.drbase.toNat 53 52 with
    | 0 => some geoQuad
    | 2 => some 0x00000020
    | _ => none

/-- Append a record to the debug ring, or count it in DROPS (17 R406). -/
def ringAppend (s : State) (bytes : List Byte) : State :=
  let drop (s : State) : State :=
    { s with dbg := { s.dbg with drops := if s.dbg.drops = 0xFFFFFFFF then s.dbg.drops else s.dbg.drops + 1 } }
  match ringPlace s with
  | none => drop s
  | some p =>
    let base := bitsOf s.dbg.drbase.toNat 51 0
    let prod := bytesNat (physBytes s p base 4)
    let cons := bytesNat (physBytes s p (base + 4) 4)
    let n := 2 ^ s.dbg.drlog.toNat
    if (prod + 2 ^ 32 - cons) % 2 ^ 32 = n then drop s
    else
      let s := physPut s p (base + 64 + 512 * (prod % n)) bytes
      let s := raiseMsix (physPut s p base (natBytes 4 (prod + 1))) 62
      { s with dbg := { s.dbg with prodWritten := true } }

/-- A condition code with its argument holds in a cycle, by the causes that the cycle has brought (17 R416). -/
def trigHolds (trig : DWord) (code arg : Nat) (causes : List TrigCause) : Bool :=
  match code with
  | 1 => true
  | 2 => causes.contains (.watch arg)
  | 3 => causes.contains (.phase (bitsOf trig.toNat 51 46))
  | 4 => causes.contains (.bkpt arg)
  | _ => false

/-- The start condition of a trigger holds (17 R416). -/
def trigStarts (t : DWord) (cs : List TrigCause) : Bool := trigHolds t (bitsOf t.toNat 43 40) (bitsOf t.toNat 39 37) cs

/-- The stop condition of a trigger holds (17 R416). -/
def trigStops (t : DWord) (cs : List TrigCause) : Bool := trigHolds t (bitsOf t.toNat 31 28) (bitsOf t.toNat 27 25) cs

/-- The trigger is to record in the cycle after this one: when both conditions hold, stop wins (17 R417). -/
def trigGoes (t : DWord) (cs : List TrigCause) : Bool :=
  t.getLsbD 63 && !trigStops t cs && (t.getLsbD 0 || trigStarts t cs)

/-- A sample of this cycle is recorded: not when both conditions hold in it (17 R417). -/
def samples (b : Block) : Bool := b.sampleDue && !(trigStarts b.trigNow b.causes && trigStops b.trigNow b.causes)

/-- A cycle ends for a block's debug unit: REC changes, and what was written to its registers takes effect (17 R408, R416,
R417). -/
def debugGoes (cyc : Nat) (b : Block) : Block :=
  let go := trigGoes b.trigNow b.causes
  let t := putBit b.trig 0 (go && b.trig.getLsbD 63)
  { b with
    trig := t, trigNow := t, watchNow := b.watch, hits := [], causes := [], sampleDue := false
    sampledAt := if go && !b.trigNow.getLsbD 0 then cyc else b.sampledAt }

/-- A trigger sees a cause in this cycle (17 R416). -/
def trigEvent (s : State) (core : Nat) (cause : TrigCause) : State :=
  modBlk s core fun b => { b with causes := cause :: b.causes }

/-- A split or a front-end stands at a unit boundary (03 R77). -/
def atBoundary (p : Pre) : Bool := p.start.isNone

/-- The group stands at unit boundaries in every split. -/
def grpAtBoundary (g : Group) : Bool := g.splits.all fun e => atBoundary e.2.pre

/-- Stop the threads that stand at a unit boundary; the others stop when they reach it (17 R411). -/
def stopThreads (b : Block) : Block :=
  { b with
    fe := if atBoundary b.fe.pre && b.fe.run ≠ .exited && b.fe.run ≠ .killed then { b.fe with stopped := true } else b.fe
    groups := b.groups.map fun e =>
      if grpAtBoundary e.2 && e.2.run ≠ .exited && e.2.run ≠ .killed then
        (e.1, { e.2 with stopped := true })
      else e }

/-- Every thread of the block has stopped, exited or been killed. -/
def allStopped (b : Block) : Bool :=
  (b.fe.stopped || b.fe.run = .exited || b.fe.run = .killed)
    && b.groups.all fun e => e.2.stopped || e.2.run = .exited || e.2.run = .killed

/-- The skid of a group in a stop record (17 R412). -/
def stopSkid (b : Block) (g : Nat) : Byte :=
  match tfind g b.groups with
  | some r => if r.run = .exited || r.run = .killed then 0xFF else BitVec.ofNat 8 (min 254 (r.issued - r.stopMark))
  | none => 0xFF

/-- Write the stop record of a block whose last thread has stopped (17 R411, R415). -/
def stopRecord (s : State) (core : Nat) : State :=
  match getBlk s core with
  | some b => match b.stopCause with
    | some (h, addr, pc, gts) =>
      if allStopped b then
        modBlk (ringAppend s (debugBytes s core b 3 0 0xFFFF gts h addr pc 0 0 ((List.range 64).map (stopSkid b))))
          core fun b => { b with stopCause := none }
      else s
    | none => s
  | none => s

/-- A block receives a stop, also one that a pre-emption or a FAULTED context stops already; its stop record follows what
else the turn writes (17 R411). -/
def receiveStop (s : State) (core : Nat) (cause : Word × DWord × Word × DWord) : State :=
  modBlk s core fun b => stopThreads { b with stopping := true, stopCause := some cause }

/-- Count the skid of every group of a block from here on (17 R412). -/
def markSkids (b : Block) : Block :=
  { b with groups := b.groups.map fun e => (e.1, { e.2 with stopMark := e.2.issued }) }

/-- Send a stop to the other members of the cluster (17 R411). -/
def sendStops (s : State) (core : Nat) (cl : Cluster) (cause : Word × DWord × Word × DWord) : State :=
  foldSt (fun s c => if c = core then s else
    bumpId (modFlight s fun f => { f with stops := f.stops ++ [{ id := nextId s, src := core, core := c, cause := cause }] }))
    s (clusterCores cl)

/-- A stop arises on a core: the cluster is held, and the stop goes to every member (17 R411). A cluster that is
already stopped starts no new stop (17 R410). -/
def startStop (s : State) (core : Nat) (handle : Word) (addr : DWord) (pc : Word) : State :=
  match getBlk s core, coreCluster s core with
  | some b, some cl =>
    if cl.stopped then s
    else
      let cause := (handle, addr, pc, s.clk.gts)
      let s := modCl s b.cluster fun c => { c with stopped := true, stopCycle := s.clk.cycle }
      let s := foldSt (fun s c => modBlk s c markSkids) s (clusterCores cl)
      sendStops (receiveStop s core cause) core cl cause
  | _, _ => s

/-- The range of a watchpoint: first byte and bytes (17 R408). -/
def watchRange (w : DWord) : Nat × Nat :=
  let t := ((List.range 53).takeWhile fun i => w.getLsbD (i + 3)).length
  let n := 8 * 2 ^ t
  (alignDown (bitsOf w.toNat 55 0) n, n)

/-- The access kinds of a debug record (17 R415): 0 read, 1 write, 2 atomic, 3 copy read, 4 copy write. -/
def watchMatches (w : DWord) (glob : Bool) (kind addr n : Nat) : Bool :=
  w.getLsbD 63 && w.getLsbD 62 = glob
    && (match kind with
      | 0 => w.getLsbD 61
      | 3 => w.getLsbD 61
      | 1 => w.getLsbD 60
      | 4 => w.getLsbD 60
      | _ => w.getLsbD 59)
    && (let r := watchRange w
        if glob then overlap r.1 r.2 addr n else overlap (r.1 % 2 ^ 19) r.2 addr n)

/-- The address a record names for a watched access (17 R415, 20 R450). -/
def watchAddr (core : Nat) (glob : Bool) (addr : Nat) : DWord := BitVec.ofNat 64 (if glob then addr else poolName core addr)

/-- Put a hit among those of its cycle, in ascending index; the first of each watchpoint stays (17 R410, log entry 116). -/
def insertHit (h : WatchHit) : List WatchHit → List WatchHit
  | [] => [h]
  | x :: l => if h.index < x.index then h :: x :: l else if h.index = x.index then x :: l else x :: insertHit h l

/-- Watchpoint i of a core is hit: an event of its trigger, and unless its ACT is 01b a record and a stop at the end of the
cycle (17 R408, R410). -/
def watchHit (s : State) (core i : Nat) (glob : Bool) (kind addr src : Nat) (handle pc : Word) (data : DWord) : State :=
  let h : WatchHit := { index := i, handle := handle, addr := watchAddr core glob addr, pc := pc
                        detail := BitVec.ofNat 32 (src + kind * 256), data := data }
  modBlk (trigEvent s core (.watch i)) core fun b =>
    if bitsOf (tgetD 0 i b.watchNow).toNat 57 56 = 1 then b else { b with hits := insertHit h b.hits }

/-- Check the watchpoints of a core against the accesses of one cycle, each with its address and data: a hit for each
watchpoint, for the first access that it matches (17 R409, R410, log entry 116). -/
def watchChecks (s : State) (core : Nat) (glob : Bool) (kind n src : Nat) (handle pc : Word) (l : List (Nat × DWord)) : State :=
  match getBlk s core with
  | some b => foldSt (fun s i =>
      match l.find? fun e => watchMatches (tgetD 0 i b.watchNow) glob kind e.1 n with
      | some e => watchHit s core i glob kind e.1 src handle pc e.2
      | none => s) s (List.range 8)
  | none => s

/-- Check the watchpoints of a core against one access (17 R409). -/
def watchCheck (s : State) (core : Nat) (glob : Bool) (kind addr n src : Nat) (handle pc : Word) (data : DWord) :
    State :=
  watchChecks s core glob kind n src handle pc [(addr, data)]

/-- The record of a watchpoint hit (17 R415). -/
def hitRecord (s : State) (core : Nat) (h : WatchHit) : State :=
  match getBlk s core with
  | some b => ringAppend s
      (debugBytes s core b 0 cWATCH (BitVec.ofNat 16 h.index) s.clk.gts h.handle h.addr h.pc h.detail h.data [])
  | none => s

/-- The hits of a cycle on a core: the records in ascending index, each with its stop (17 R410, R411). -/
def recordHits (s : State) (core : Nat) : State :=
  match getBlk s core with
  | some b => foldSt (fun s h => startStop (hitRecord s core h) core h.handle h.addr h.pc) s b.hits
  | none => s

/-- A block is about to leave its core: the hits of this cycle are recorded (17 R410). -/
def flushHits (s : State) (core : Nat) : State :=
  match getBlk s core with
  | some b => modBlk (foldSt (fun s h => hitRecord s core h) s b.hits) core fun b => { b with hits := [] }
  | none => s

end Sys2Proof.Machine
end

