-- ==== Sys2Proof/Machine/BarrierUnit.lean ====
section
/-! DEFINITION. The barrier unit of a core: evaluating an object, completing a phase, error phases, and blocking on
faulted members (14 R343 to R350). -/
namespace Sys2Proof.Machine

/-- The object of a core, if its block declares it. -/
def getBar (s : State) (core i : Nat) : Option Barrier :=
  (getBlk s core).bind fun b => if i < b.hdr.barriers then some (tgetD {} i b.barriers) else none

/-- Change an object. -/
def modBar (s : State) (core i : Nat) (f : Barrier → Barrier) : State :=
  modBlk s core fun b => { b with barriers := tput i (f (tgetD {} i b.barriers)) b.barriers }

/-- Phase n is complete (14 R348). -/
def phaseDone (o : Barrier) (n : Word) : Bool := let d := (o.phase - n).toNat; 1 ≤ d && d ≤ 2 ^ 31

/-- Phase n was an error phase (14 R348). -/
def phaseErr (o : Barrier) (n : Word) : Bool :=
  if o.state = 2 then (n - o.ephase).toNat < 2 ^ 31 else (n - o.ephase).toNat < (o.eend - o.ephase).toNat

/-- The conditions of 14 R345 other than the arrivals of local members. -/
def othersMet (o : Barrier) : Bool :=
  o.carr &&& o.cmask = o.cmask && o.expb.toNat ≤ o.arrb.toNat && (o.arrived || 0 < o.expb.toNat)

/-- Every local member has arrived (14 R345). -/
def localMet (o : Barrier) : Bool := o.larr &&& o.lmask = o.lmask && o.fearr = o.femem

/-- The members that have not arrived, the front-end last. -/
def missing (o : Barrier) : List Who :=
  ((setBits 64 (o.lmask &&& ~~~ o.larr)).map Who.grp) ++ (if o.femem && !o.fearr then [Who.fe] else [])

/-- A thread of the block is FAULTED, or would be after a stop (07 R163). -/
def isFaulted (b : Block) : Who → Bool
  | .fe => b.fe.run = .faulted
  | .grp g => ((tfind g b.groups).map fun r => decide (r.run = .faulted)).getD false

/-- The member index and core of a barrier's neighbour in the cluster. -/
def clusterMember (s : State) (core m : Nat) : Option Nat :=
  (coreCluster s core).bind fun cl => if m < cl.w * cl.h then some (memberCore cl m) else none

/-- The member index of a core's block. -/
def memberOf (s : State) (core : Nat) : Nat := ((getBlk s core).map Block.member).getD 0

/-- Send a message between objects of a cluster (14 R346, R347). -/
def sendBar (s : State) (core kind toMember index : Nat) (phase : Word) (err : Bool) (code : Byte) : State :=
  match getBlk s core with
  | some b => bumpId (modFlight s fun f => { f with barMsgs := f.barMsgs ++
      [{ id := nextId s, cluster := b.cluster, kind := kind, fromMember := b.member, toMember := toMember,
         index := index, phase := phase, error := err, code := code }] })
  | none => s

/-- A remote wait, of a member of this cluster, on the object (14 R352). -/
def waitsOn (core i : Nat) (r : BarReq) : Bool :=
  r.dst = core && r.index = i && r.reply.isNone && (match r.op with
    | .read _ _ _ inCl => inCl
    | _ => false)

/-- The t cycles of a BTWAIT have passed: completion in the cycle in which they end still wins (14 R357). -/
def expired (cyc : Nat) (e : Option Nat) : Bool := e.any fun x => x < cyc

/-- A wait of a thread of the block for phase n of its object i takes the notice of its completion (14 R346), which for a
BTWAIT that has expired comes too late (14 R357). -/
def tellWait (cyc i : Nat) (n : Word) (ok : Bool) : Wait → Wait
  | .barrier a m p e t => .barrier a m p e (if a.toNat = i && m = n && t.isNone then some (ok && !expired cyc e) else t)
  | w => w

/-- A thread of the block waits for a phase of object i that is not complete. -/
def localWait (i : Nat) : Wait → Bool
  | .barrier a _ _ _ t => a.toNat = i && t.isNone
  | _ => false

/-- The objects of the block for which a thread of it waits. -/
def waitsOf (b : Block) (who : Who) : List Nat :=
  (List.range b.hdr.barriers).filter fun i => match who with
    | .fe => localWait i b.fe.wait
    | .grp g => (tfind g b.groups).any fun r => r.splits.any fun x => localWait i x.2.wait

/-- The notice of a completed phase goes to every thread that waits locally (14 R346). -/
def tellLocal (s : State) (core i : Nat) (n : Word) (ok : Bool) : State :=
  modBlk s core fun b => { b with
    fe := { b.fe with wait := tellWait s.clk.cycle i n ok b.fe.wait }
    groups := b.groups.map fun g => (g.1, { g.2 with
      splits := g.2.splits.map fun x => (x.1, { x.2 with wait := tellWait s.clk.cycle i n ok x.2.wait }) }) }

/-- Threads of the block wait for a phase of its object i. -/
def waitsHere (b : Block) (i : Nat) : Bool :=
  localWait i b.fe.wait || b.groups.any fun g => g.2.splits.any fun x => localWait i x.2.wait

/-- Notices of a completed phase to the members that wait (kind 2) and to the children (kind 3), naming the object
whose phase completed (14 R346). -/
def sendNotices (s : State) (core i : Nat) (n : Word) (err : Bool) (code : Byte) : State :=
  match getBar s core i with
  | none => s
  | some o =>
    let s := tellLocal s core i n (!err)
    let s := foldSt (fun s m => if m = memberOf s core then s else sendBar s core 2 m i n err code) s (setBits 16 o.watch)
    foldSt (fun s m => sendBar s core 3 m i n err code) s (setBits 16 o.cmask)

/-- Held batch arrivals of a list that are made in a phase, and those that stay held: one of each group (14 R356). -/
def madeArrivals : List (Nat × Bool) → List (Nat × Bool) × List (Nat × Bool)
  | [] => ([], [])
  | x :: r =>
    let m := madeArrivals r
    (x :: m.1.filter (·.1 ≠ x.1), m.1.filter (·.1 = x.1) ++ m.2)

/-- The phase completes: the counts move on, the bytes beyond EXPB carry, and an error phase drops its deficit (14
R346, R347). Batch arrivals held for a group that had arrived are made in the next phase (14 R356). -/
def closePhase (o : Barrier) (err : Bool) : Barrier :=
  let carry := if o.expb.toNat ≤ o.arrb.toNat then o.arrb - o.expb else 0
  let held := madeArrivals o.heldBatches
  { o with
    phase := o.phase + 1, fearr := false, carr := 0, arrb := carry, expb := 0
    fwd := false, touched := !held.1.isEmpty, arrived := !held.1.isEmpty
    larr := maskOf 64 (held.1.map Prod.fst), heldBatches := held.2, errNow := held.1.any Prod.snd
    eend := if err then o.phase + 1 else o.eend
    blkh := if o.state = 3 then 0 else o.blkh
    state := if o.state = 3 then 1 else o.state }

/-- The members of the cluster that have threads waiting on an object whose phase is not complete (14 R341, R352). -/
def watchers (s : State) (core i : Nat) (o : Barrier) : BitVec 16 :=
  maskOf 16 ((if (getBlk s core).any fun b => waitsHere b i then [memberOf s core] else [])
    ++ s.flight.bars.filterMap fun r =>
      if waitsOn core i r && r.read && (match r.op with
        | .read n _ _ _ => !phaseDone o n
        | _ => false) then some r.member else none)

/-- Set WATCH of an object to the members that wait (14 R341). -/
def setWatch (s : State) (core i : Nat) : State :=
  match getBar s core i with
  | some o => modBar s core i fun x => { x with watch := watchers s core i o }
  | none => s

/-- The arrival of a group's oldest closed batch has been made (13 R331, R338). -/
def takeBatch (r : Group) : Group :=
  match r.closed with
  | x :: rest => { r with closed := rest, lastBatch := x.num, badBatches := tdel x.num.toNat r.badBatches }
  | [] => r

/-- Complete phase n of an object and tell who waits (14 R346); the batch arrivals it held are made in the next phase (14
R356). -/
def completePhase (s : State) (core i : Nat) (err : Bool) : State :=
  match getBar s core i with
  | none => s
  | some o =>
    let s := sendNotices s core i o.phase err o.ecode
    let o' := closePhase o err
    let s := foldSt (fun s x => modGrp s core x.1 takeBatch) s (madeArrivals o.heldBatches).1
    trigEvent (modBar s core i fun _ => { o' with watch := watchers s core i o' }) core (.phase i)

/-- Take an object into BLOCKED_ON_REPLAYABLE: BLKH and a debug record (14 R350). -/
def blockObject (s : State) (core i : Nat) (o : Barrier) : State :=
  match getBlk s core, missing o with
  | some b, who :: _ =>
    let h := handleOf b core who
    let s := modBar s core i fun o => { o with state := 3, blkh := h }
    match getBlk s core with
    | some b => ringAppend s (debugBytes s core b 2 0 (BitVec.ofNat 16 (b.member * 256 + i)) s.clk.gts h 0
        (threadPc b who) 0 0 [])
    | none => s
  | _, _ => s

/-- An agent fault, or a child's error arrival, at an object: its current phase is an error phase (14 R347). -/
def faultObject (s : State) (core i : Nat) (code : Byte) : State :=
  match getBar s core i with
  | none => s
  | some o =>
    if o.state = 0 then s
    else
      let s := modBar s core i fun o =>
        if o.state = 2 then { o with errNow := false }
        else { o with ecode := code, ephase := o.phase, eend := o.phase, state := 2, blkh := 0, errNow := false }
      if o.parent = 0xFFFF then completePhase s core i true
      else sendBar (modBar s core i fun o => { o with fwd := true }) core 1 (o.parent.toNat / 256)
        (o.parent.toNat % 256) o.phase true code

/-- A thread leaves an object: its arrival in the current phase is withdrawn (14 R344). -/
def leaveObject (o : Barrier) : Who → Barrier
  | .fe => { o with femem := false, fearr := false }
  | .grp g => { o with lmask := putBit o.lmask g false, larr := putBit o.larr g false, leaving := putBit o.leaving g false }

/-- A batch of the thread that is bound to the object has not made its arrival (13 R331, 14 R344). -/
def boundBatch (b : Block) (i : Nat) : Who → Bool
  | .fe => false
  | .grp g => ((tfind g b.groups).map fun r => r.closed.any fun x => x.bar = i).getD false

/-- The leaves that waited for batches take effect once those have arrived (14 R344). -/
def settleLeaves (s : State) (core i : Nat) : State :=
  match getBlk s core, getBar s core i with
  | some b, some o =>
    if o.leaving = 0 then s
    else modBar s core i fun _ => (setBits 64 o.leaving).foldl (fun o g =>
      if boundBatch b i (.grp g) then o else leaveObject o (.grp g)) o
  | _, _ => s

/-- Evaluate an object: complete its phase, forward its arrival to its parent, or block it (14 R345, R346, R349). -/
def evalOnce (s : State) (core i : Nat) : State :=
  let s := settleLeaves s core i
  match getBar s core i, getBlk s core with
  | some o, some b =>
    if o.state = 0 then s
    else if o.errNow then faultObject s core i cSLOT
    else if othersMet o && localMet o then
      if o.parent = 0xFFFF then completePhase s core i (o.state = 2)
      else if o.fwd then s
      else sendBar (modBar s core i fun o => { o with fwd := true }) core 0 (o.parent.toNat / 256)
        (o.parent.toNat % 256) o.phase false 0
    else if o.state = 1 && othersMet o && (missing o).all (isFaulted b) then blockObject s core i o
    else s
  | _, _ => s

/-- Evaluate an object: held batch arrivals may complete the next phases too. -/
def evalNow (s : State) (core i : Nat) : State :=
  foldSt (fun s _ => evalOnce s core i) s
    (List.range (((getBar s core i).map fun o => o.heldBatches.length).getD 0 + 2))

/-- An object has received an operation: it is evaluated after those of the cycle (14 R345). -/
def evalBarrier (s : State) (core i : Nat) : State :=
  if s.evals.contains (core, i) then s else { s with evals := s.evals ++ [(core, i)] }

/-- The objects that have received operations in the cycle are evaluated (14 R345). -/
def runEvals (s : State) : State := foldSt (fun s e => evalNow s e.1 e.2) { s with evals := [] } s.evals

/-- An agent fault is reported to an object (14 R347). -/
def agentFault (s : State) (core i : Nat) (code : Byte) : State := evalBarrier (faultObject s core i code) core i

/-- Evaluate every object of a core. -/
def evalAll (s : State) (core : Nat) : State :=
  match getBlk s core with
  | some b => foldSt (fun s i => evalBarrier s core i) s (List.range b.hdr.barriers)
  | none => s

/-- A blocked object returns to ARMED (14 R349). -/
def unblock (o : Barrier) : Barrier := if o.state = 3 then { o with state := 1, blkh := 0 } else o

/-- Unblock the objects a condition picks, and evaluate every object of the core again (14 R349). -/
def reevaluate (s : State) (core : Nat) (p : Barrier → Bool) : State :=
  match getBlk s core with
  | some b => evalAll (foldSt (fun s i => modBar s core i fun o => if p o then unblock o else o) s
      (List.range b.hdr.barriers)) core
  | none => s

/-- Credit bytes to an object; an IDLE object, or one no longer there, discards them (14 R349). -/
def creditBytes (s : State) (core i : Nat) (n : Nat) : State :=
  match getBar s core i with
  | some o =>
    if o.state = 0 then s
    else evalBarrier (modBar s core i fun o => { o with arrb := o.arrb + BitVec.ofNat 64 n, touched := true }) core i
  | none => s

/-- Bytes are credited, or a fault is reported, to an object of a core by a copy command of another: its own core's at once,
another's by a message that the cluster crossbar delivers in order (01 R28, 12 R310, R311). No message is sent for no byte. -/
def sendCredit (s : State) (src core i n : Nat) (fault : Option Byte) : State :=
  match fault with
  | some k => if src = core then agentFault s core i k else post
  | none => if n = 0 then s else if src = core then creditBytes s core i n else post
where
  post : State := bumpId (modFlight s fun f => { f with credits := f.credits ++
    [{ id := nextId s, src := src, core := core, index := i, bytes := n, fault := fault }] })

/-- A thread leaves an object; where a batch bound to it is still to arrive, the leave takes effect after that arrival
(14 R344). -/
def leaveOne (s : State) (core i : Nat) (b : Block) (who : Who) : State :=
  if boundBatch b i who then
    match who with
    | .grp g => modBar s core i fun o => if o.lmask.getLsbD g then { o with leaving := putBit o.leaving g true } else o
    | .fe => s
  else modBar s core i fun o => leaveObject o who

/-- A thread leaves every object it has joined, as if by BLEAVE (14 R344). -/
def leaveAll (s : State) (core : Nat) (who : Who) : State :=
  match getBlk s core with
  | some b => evalAll (foldSt (fun s i => leaveOne s core i b who) s (List.range b.hdr.barriers)) core
  | none => s

/-- The thread is a member of the object. -/
def isMember (o : Barrier) : Who → Bool
  | .fe => o.femem
  | .grp g => o.lmask.getLsbD g

end Sys2Proof.Machine
end

