-- ==== Sys2Proof/Machine/Ops.lean ====
section
/-! DEFINITION. Shared operations: who issues, taking a fault and its record (03 R73, 04 R96, R97, R101, R108), issue
and retirement of a unit (03 R77, R78, 07 R190), and the outcome of an instruction. -/
namespace Sys2Proof.Machine

/-! ## Taking a fault -/

/-- A precise fault as an instruction raises it: code, address, barrier, agent detail, lanes, and whether the thread
restarts after the unit (TRAP, 17 R420). -/
structure Flt where
  code : Byte
  addr : DWord := 0
  bar : BitVec 16 := 0xFFFF
  detail : Word := 0
  next : Bool := false
  deriving DecidableEq, Repr

/-- Queue a record at the context's fault unit, with the tick of its detection (04 R97, R98). -/
def queueRecord (s : State) (ctx : Nat) (r : FaultRec) : State :=
  modCtx s ctx fun c => { c with pending := c.pending ++ [{ r with gts := s.clk.gts }] }

/-- The record's fields that the block and thread give (04 R97). -/
def blockRecord (s : State) (core : Nat) (b : Block) (who : Who) (code kind : Byte) : FaultRec :=
  { code := code, kind := kind, gts := s.clk.gts, handle := handleOf b core who, job := BitVec.ofNat 32 b.job
    cindex := BitVec.ofNat 32 ((getCl s b.cluster).map Cluster.index |>.getD 0), member := BitVec.ofNat 8 b.member
    fromService := (getJob s b.job).any fun j => j.recAddr = (getCtx s b.ctx).fsjob && j.recAddr ≠ 0 }

/-- Queue a record of kind A. The manual gives such a record no restart PC: the field holds a free value (log entry
25). Faults of the work of a killed block are discarded (04 R113). -/
def agentRecord (s : State) (ctx : Nat) (r : FaultRec) : State :=
  if (getBlk s (bitsOf r.handle.toNat 7 0)).any Block.killed then s
  else queueRecord (bumpFree s) ctx { r with kind := 2, restart := (freshValue s).truncate 32 }

/-- SY.FAULT (04 R108). -/
def faultWord (pc : Word) (gen : BitVec 5) (split : Nat) (code : Byte) : DWord :=
  pc ++ (0 : BitVec 11) ++ gen ++ (0 : BitVec 6) ++ BitVec.ofNat 2 split ++ code

/-- A split goes back to the first word of its unit, without an open clause (03 R77, R78, log entry 50). -/
def toUnitStart (x : Split) : Split := { x with pc := unitStart x.pre x.pc, pre := {}, clause := none, held := 0, waitMask := 0 }

/-- The prefixes that a group's splits have issued of units they have not finished (03 R77). -/
def openPrefixes (r : Group) : Nat :=
  r.splits.foldl (fun n e => n + (match e.2.pre.start with
    | some p => (e.2.pc - p).toNat / 4
    | none => 0)) 0

/-- Taking a fault, of a group: FAULTED, GEN + 1, SY.FAULT, one record in the context's fault queue (04 R96, 07
R163). kind 0 is precise and 1 imprecise; restart is where the split resumes. A stopped group keeps its stop. -/
def groupFault (s : State) (core g k : Nat) (kind : Byte) (code : Byte) (pc restart : Word) (addr : DWord)
    (bar : BitVec 16) (detail : Word) (skid : Byte) : State :=
  match getGrp s core g with
  | none => s
  | some r =>
    let gen := r.gen + 1
    let s := modGrp s core g fun r =>
      { r with run := .faulted, gen := gen, fault := faultWord pc gen k code, undone := openPrefixes r
               splits := r.splits.map fun e => (e.1, toUnitStart e.2) }
    let s := modSpl s core g k fun x => { x with pc := restart }
    match getBlk s core with
    | none => s
    | some b =>
      let lanes := ((r.splits.find? fun e => e.1 = k).map fun e => e.2.lanes).getD 0
      let rec_ := { blockRecord s core b (.grp g) code kind with
        restart := restart, pc := pc, addr := addr, lanes := lanes, detail := detail, skid := skid
        barrier := bar, thread := some ⟨core, .grp g⟩ }
      let s := modGrp s core g fun r => { r with lastRec := some rec_ }
      reevaluate (queueRecord s b.ctx rec_) core fun o => isMember o (.grp g)

/-- A precise fault of an instruction that had issued and waited gives back its unit: the boundary is before it (11 R289). -/
def giveBack (s : State) (core g : Nat) (first last : Word) : State :=
  modGrp s core g fun r => { r with undone := r.undone + (last - first).toNat / 4 + 1 }

/-- Taking a fault, of a front-end (04 R96). -/
def feFault (s : State) (core : Nat) (f : Flt) : State :=
  match getBlk s core with
  | none => s
  | some b =>
    let pc := b.fe.pc
    let restart := if f.next then pc + 4 else unitStart b.fe.pre pc
    let gen := b.fe.gen + 1
    let s := modFe s core fun e =>
      { e with run := .faulted, gen := gen, fault := faultWord pc gen 0 f.code, pc := restart, pre := {}
               clause := none, held := 0 }
    match getBlk s core with
    | none => s
    | some b =>
      let rec_ := { blockRecord s core b .fe f.code 0 with
        restart := restart, pc := pc, addr := f.addr, detail := f.detail, barrier := f.bar, thread := some ⟨core, .fe⟩ }
      let s := modFe s core fun e => { e with lastRec := some rec_ }
      reevaluate (queueRecord s b.ctx rec_) core fun o => isMember o .fe

/-! ## Who issues -/

/-- The issuing split of a group: core, group and split numbers, and its block, group and split as they stand. -/
structure GC where
  core : Nat
  g : Nat
  k : Nat
  blk : Block
  grp : Group
  spl : Split

/-- The issuing front-end: its core and block as they stand. -/
structure FC where
  core : Nat
  blk : Block

/-- The split that issues. -/
def groupCtx (s : State) : Option GC :=
  match s.cur.who with
  | .fe => none
  | .grp g =>
    match getBlk s s.cur.core with
    | none => none
    | some b =>
      match tfind g b.groups with
      | none => none
      | some r =>
        match tfind s.cur.split r.splits with
        | none => none
        | some x => some { core := s.cur.core, g := g, k := s.cur.split, blk := b, grp := r, spl := x }

/-- The front-end that issues. -/
def feCtx (s : State) : Option FC :=
  match s.cur.who with
  | .fe => (getBlk s s.cur.core).map fun b => { core := s.cur.core, blk := b }
  | .grp _ => none

/-! ## What an instruction does once it is checked -/

/-- The effect of an instruction. -/
inductive Eff where
  /-- Effect complete: the thread goes on after the unit, and loop back edges fire (07 R190). -/
  | retire (s : State)
  /-- Control moved: the PC is as the state has it (03 R78: a clause ends). -/
  | jump (s : State)
  /-- Issued, and waits after issue: the PC stays at the unit (07 R164). -/
  | wait (s : State)
  /-- Held at issue for a stall reason of 17 R418. -/
  | hold (reason : Nat)
  /-- A precise fault (03 R73). -/
  | fault (f : Flt)
  /-- The state is already whole: a fault taken on an earlier store (10 R260). -/
  | whole (s : State)

/-- The first fault of a list of checks, in the order of 03 R73; otherwise the effect. -/
def chk (l : List (Bool × Byte)) (e : Eff) : Eff :=
  match firstOf l with
  | some c => .fault { code := c }
  | none => e

/-- The lowest of the stall reasons that hold, or the effect (07 R166). -/
def heldBy (l : List (Bool × Nat)) (e : Eff) : Eff :=
  match ((l.filter Prod.fst).map Prod.snd).min? with
  | some n => .hold n
  | none => e

/-- One word of an open clause has issued (03 R78). -/
def clauseTick : Option Clause → Option Clause
  | some c => if c.left ≤ 1 then none else some { c with left := c.left - 1 }
  | none => none

/-! ## Loop back edges (07 R190) -/

/-- Replace a split of a group. -/
def setSpl (r : Group) (k : Nat) (x : Split) : Group := { r with splits := tput k x r.splits }

/-- The serial entries of split k that the exit of a loop absorbs (07 R190). -/
def absorbs (k : Nat) (pc : Word) (e : SerialEntry) : Bool := e.owner = k && !e.running && e.pc = pc

/-- Leave the innermost level: pop it, go to its end + 4, absorb the split's pending entries there (07 R190). -/
def popLevel (r : Group) (k : Nat) (x : Split) (lv : LoopLevel) : Group × Split :=
  let pc := lv.stop + 4
  let inn := r.serial.filter (absorbs k pc)
  let x' := { x with
    pc := pc, levels := x.levels.dropLast, armBase := 0, armSize := 0, clause := none
    lanes := inn.foldl (fun m e => m ||| e.lanes) x.lanes
    uniform := if inn.isEmpty then x.uniform else 1 }
  ({ r with serial := r.serial.filter fun e => !absorbs k pc e }, x')

/-- The back edge of the innermost level, and of an enclosing level with the same end (07 R190). The fuel is the
number of levels. -/
def backEdge : Nat → Group → Nat → Split → Group × Split
  | 0, r, _, x => (r, x)
  | n + 1, r, k, x =>
    match x.levels.getLast? with
    | none => (r, x)
    | some lv =>
      let t := lv.iter + 1
      if lv.iter.toNat + 1 < lv.count.toNat + lv.stages - 1 then
        let o := if lv.wsize = 0 then 0 else (lv.woff + 1) % lv.wsize
        (r, { x with pc := lv.start, clause := none, levels := x.levels.dropLast ++ [{ lv with iter := t, woff := o }] })
      else
        let (r, x) := popLevel r k x lv
        match x.levels.getLast? with
        | some up => if up.stop = lv.stop then backEdge n r k x else (r, x)
        | none => (r, x)

/-- A unit from its first word to its last retires: the next PC, through the back edge when the unit holds the
innermost level's end (07 R190, 03 R77). -/
def unitRetire (r : Group) (k : Nat) (x : Split) (first last : Word) : Group :=
  let x := { x with pc := last + 4 }
  match x.levels.getLast? with
  | some lv =>
    if first.toNat ≤ lv.stop.toNat && lv.stop.toNat ≤ last.toNat then
      let (r, x) := backEdge 5 r k x
      setSpl r k x
    else setSpl r k x
  | none => setSpl r k x

/-- The word has issued: counts, the clause, the prefixes (03 R77, R78). -/
def issuedSplit (x : Split) : Split :=
  { x with clause := clauseTick x.clause, pre := {}, held := 0, waitMask := 0, wait := .none }

/-- The issuing split's unit retires, in a state that may have changed since it issued. -/
def retireGrp (s : State) (c : GC) : State :=
  modGrp s c.core c.g fun r =>
    match tfind c.k r.splits with
    | some x => unitRetire { r with issued := r.issued + 1 } c.k (issuedSplit x) (unitStart c.spl.pre c.spl.pc) c.spl.pc
    | none => { r with issued := r.issued + 1 }

/-- The group issues nothing for n cycles, counted for a stall reason (07 R187). -/
def busyGrp (s : State) (c : GC) (n : Nat) : State :=
  modGrp s c.core c.g fun r =>
    { r with splits := r.splits.map fun e => (e.1, { e.2 with busyUntil := s.clk.cycle + n + 1, busyFor := 3 }) }

/-- The issuing split has moved control itself: its clause ends. 03 R78 names a taken branch, call or return, a loop back
edge, an LBRK departure and a trap; a JOIN that switches, an EXIT that takes a serial entry and a LOOP that is skipped are
such transfers too (log entry 117). -/
def jumpGrp (s : State) (c : GC) : State :=
  modGrp s c.core c.g fun r =>
    { r with issued := r.issued + 1
             splits := tmod c.k (fun x => { issuedSplit x with clause := none }) r.splits }

/-- The issuing split waits after issue at its unit (07 R164). -/
def waitGrp (s : State) (c : GC) : State :=
  modGrp s c.core c.g fun r =>
    { r with issued := r.issued + 1
             splits := tmod c.k (fun x => { issuedSplit x with
               wait := x.wait, since := s.clk.cycle, unitEnd := c.spl.pc
               pc := unitStart c.spl.pre c.spl.pc }) r.splits }

/-- A precise fault of the issuing split (03 R73, R77). -/
def faultGrp (s : State) (c : GC) (f : Flt) : State :=
  groupFault s c.core c.g c.k 0 f.code c.spl.pc (if f.next then c.spl.pc + 4 else unitStart c.spl.pre c.spl.pc)
    f.addr f.bar f.detail 0

/-- What becomes of an instruction of a group. -/
def endGrp (s : State) (c : GC) : Eff → State
  | .retire t => retireGrp t c
  | .jump t => jumpGrp t c
  | .wait t => waitGrp t c
  | .hold n => modSpl s c.core c.g c.k fun x =>
      { x with held := n, heldAt := s.clk.cycle, since := if x.held = n then x.since else s.clk.cycle }
  | .fault f => faultGrp s c f
  | .whole t => t

/-- The word of a front-end has issued, and it goes on. -/
def retireFe (s : State) (c : FC) : State :=
  modFe s c.core fun e =>
    { e with clause := clauseTick e.clause, pre := {}, held := 0, wait := .none, issued := e.issued + 1
             pc := c.blk.fe.pc + 4 }

/-- The front-end has moved control itself. -/
def jumpFe (s : State) (c : FC) : State :=
  modFe s c.core fun e =>
    { e with clause := none, pre := {}, held := 0, wait := .none, issued := e.issued + 1 }

/-- The front-end waits after issue. -/
def waitFe (s : State) (c : FC) : State :=
  modFe s c.core fun e =>
    { e with clause := clauseTick e.clause, pre := {}, held := 0, issued := e.issued + 1
             unitEnd := c.blk.fe.pc, pc := unitStart c.blk.fe.pre c.blk.fe.pc }

/-- What becomes of an instruction of the front-end. -/
def endFe (s : State) (c : FC) : Eff → State
  | .retire t => retireFe t c
  | .jump t => jumpFe t c
  | .wait t => waitFe t c
  | .hold n => modFe s c.core fun e => { e with held := n, heldAt := s.clk.cycle }
  | .fault f => feFault s c.core f
  | .whole t => t

/-! ## Instructions -/

/-- An instruction that may be of a front-end, of a group, or of both; a thread of the other kind raises ILLEGAL (03
R71), and so does a LIT where the instruction has no field for it (03 R77). -/
def instr (s : State) (lit : Bool) (grp : Option (GC → Eff)) (fe : Option (FC → Eff)) :
    Host.Outcome State Fault Refusal :=
  match groupCtx s with
  | some c =>
    match grp with
    | some f => .next (endGrp s c (chk [(c.spl.pre.lit.isSome && !lit, cILLEGAL)] (f c)))
    | none => .next (faultGrp s c { code := cILLEGAL })
  | none =>
    match feCtx s with
    | some c =>
      match fe with
      | some f => .next (endFe s c (chk [(c.blk.fe.pre.lit.isSome && !lit, cILLEGAL)] (f c)))
      | none => .next (feFault s c.core { code := cILLEGAL })
    | none => .fault .noThread

/-- An instruction of groups only (03 R71). -/
def grpInstr (s : State) (lit : Bool) (f : GC → Eff) : Host.Outcome State Fault Refusal := instr s lit (some f) none

/-- An instruction of the front-end only (03 R71). -/
def feInstr (s : State) (lit : Bool) (f : FC → Eff) : Host.Outcome State Fault Refusal := instr s lit none (some f)

/-- A step of the device: it comes about when it is due, and otherwise nothing does. -/
def event (s : State) (due : Bool) (t : State) : Host.Outcome State Fault Refusal :=
  if due then .next t else .next s

end Sys2Proof.Machine
end

