-- ==== Sys2Proof/Machine/Operands.lean ====
section
/-! DEFINITION. Operand forms: vector registers with their shapes and rotating windows (07 R167 to R170, R192),
predicates (03 R69, 07 R191), scalar registers (03 R68), immediates and LIT (03 R76), guards (03 R70, R72). -/
namespace Sys2Proof.Machine

/-! ## Shapes -/

/-- The shapes of 07 R167. -/
inductive Shape where
  | uniform
  | affine
  | general
  deriving DecidableEq, Repr

/-- The order uniform < affine < general. -/
def shapeRank : Shape → Nat
  | .uniform => 0
  | .affine => 1
  | .general => 2

/-- The more general of two shapes. -/
def shapeMax (a b : Shape) : Shape := if shapeRank a ≤ shapeRank b then b else a

/-- The registers a kernel declares (06 R148). -/
def declared (h : Header) : Nat := h.nu + h.na + h.ng

/-- Words of the register allocation of one group (06 R150). -/
def groupCost (h : Header) : Nat := (h.nu + 2 * h.na + 32 * h.ng + 127) / 128 * 128

/-- The tag of a register (07 R167). -/
def tagOf (h : Header) (n : Nat) : Shape :=
  if n < h.nu then .uniform else if n < h.nu + h.na then .affine else .general

/-- The physical register behind a name: rotated inside the window of an active level (07 R192). -/
def physReg (x : Split) (n : Nat) : Nat :=
  match x.levels.find? fun lv => 0 < lv.wsize && lv.wbase ≤ n && n < lv.wbase + lv.wsize with
  | some lv => lv.wbase + (n - lv.wbase + lv.wsize - lv.woff % lv.wsize) % lv.wsize
  | none => n

/-- A register of a group as the lane reads it (07 R167, save layout of 04 R104). -/
def regLane (h : Header) (regs : Table Word) (n i : Nat) : Word :=
  if n < h.nu then tgetD 0 n regs
  else if n < h.nu + h.na then
    let j := h.nu + 2 * (n - h.nu)
    tgetD 0 j regs + BitVec.ofNat 32 i * tgetD 0 (j + 1) regs
  else tgetD 0 (h.nu + 2 * h.na + 32 * (n - h.nu - h.na) + i) regs

/-- Write a register in the lanes of a list: a uniform or affine register once for the group, from lanes 0 and 1 (07
R169, R170). -/
def putReg (h : Header) (regs : Table Word) (n : Nat) (lanes : List Nat) (f : Nat → Word) : Table Word :=
  if lanes.isEmpty then regs
  else if n < h.nu then tputD 0 n (f 0) regs
  else if n < h.nu + h.na then
    let j := h.nu + 2 * (n - h.nu)
    tputD 0 (j + 1) (f 1 - f 0) (tputD 0 j (f 0) regs)
  else foldSt (fun t i => tputD 0 (h.nu + 2 * h.na + 32 * (n - h.nu - h.na) + i) (f i) t) regs lanes

/-- reg(v, i) of the issuing split. -/
def vreg (c : GC) (n i : Nat) : Word := regLane c.blk.hdr c.grp.regs (physReg c.spl n) i

/-- The tag of a register named by the issuing split. -/
def vtag (c : GC) (n : Nat) : Shape := tagOf c.blk.hdr (physReg c.spl n)

/-- The registers n to n + k - 1 do not all lie in the declared range (03 R68). -/
def outOfRange (c : GC) (n k : Nat) : Bool := declared c.blk.hdr < n + k

/-- Write a register of the issuing split in some lanes. -/
def writeReg (s : State) (c : GC) (n : Nat) (lanes : List Nat) (f : Nat → Word) : State :=
  modGrp s c.core c.g fun r => { r with regs := putReg c.blk.hdr r.regs (physReg c.spl n) lanes f }

/-- The 64-bit value of a pair of registers in a lane. -/
def vpair (c : GC) (n i : Nat) : DWord := vreg c (n + 1) i ++ vreg c n i

/-! ## Predicates -/

/-- The pipelined level of a split (07 R189). -/
def stagedLevel (x : Split) : Option LoopLevel := x.levels.find? fun lv => 1 < lv.stages

/-- Stage predicate k in an iteration (07 R191). -/
def stagePred (lv : LoopLevel) (k : Nat) : Bool :=
  k < lv.stages && k ≤ lv.iter.toNat && lv.iter.toNat < lv.count.toNat + k

/-- A predicate as a mask over the lanes (03 R69, 07 R191). -/
def predMask (r : Group) (x : Split) (p : Nat) : Word :=
  if p = 0 then 0xFFFFFFFF
  else match (if 4 ≤ p then stagedLevel x else none) with
    | some lv => if stagePred lv (p - 4) then 0xFFFFFFFF else 0
    | none => tgetD 0 p r.preds

/-- A predicate of the issuing split. -/
def pmask (c : GC) (p : Nat) : Word := predMask c.grp c.spl p

/-- A write to the predicate raises SHAPE: a stage predicate of a pipelined level (07 R191). -/
def predStaged (c : GC) (p : Nat) : Bool := 4 ≤ p && (stagedLevel c.spl).isSome

/-- Put the bits of a predicate in some lanes (03 R69). -/
def putPred (r : Group) (p : Nat) (lanes vals : Word) : Group :=
  if p = 0 then r else { r with preds := tputD 0 p ((tgetD 0 p r.preds &&& ~~~ lanes) ||| (vals &&& lanes)) r.preds }

/-- Write a predicate of a group. -/
def writePred (s : State) (core g p : Nat) (lanes vals : Word) : State := modGrp s core g fun r => putPred r p lanes vals

/-- Whether the last write of a predicate leaves it the uniform property of 07 R182. -/
def setUniform (s : State) (c : GC) (p : Nat) (v : Bool) : State :=
  if p = 0 then s else modSpl s c.core c.g c.k fun x => { x with uniform := putBit x.uniform p v }

/-- The predicate carries the uniform property (07 R182). As a source of PAND, POR, PXOR or PNOT, p0 counts as carrying it: 08 R219
names sources that have the property, and p0 holds in every lane (log entry 148). -/
def isUniformPred (c : GC) (p : Nat) : Bool := p = 0 || c.spl.uniform.getLsbD p

/-- The active lanes of an instruction under a guard, as a mask (03 R70). -/
def guarded (c : GC) (p : Nat) : Word := c.spl.lanes &&& pmask c p

/-- The active lanes under a guard. -/
def activeLanes (c : GC) (p : Nat) : List Nat := lanesOf (guarded c p)

/-- A predicate disagrees among the lanes of the split (07 R182). -/
def predMixed (c : GC) (p : Nat) : Bool := guarded c p ≠ 0 && guarded c p ≠ c.spl.lanes

/-- The front-end's predicate (03 R69). -/
def fpred (c : FC) (p : Nat) : Bool := p = 0 || c.blk.fe.preds.getLsbD p

/-- Write a front-end predicate. -/
def writeFpred (s : State) (core p : Nat) (v : Bool) : State :=
  if p = 0 then s else modFe s core fun e => { e with preds := putBit e.preds p v }

/-! ## Scalar registers -/

/-- s[n]; s0 reads as zero (03 R68). -/
def sregOf (e : FrontEnd) (n : Nat) : DWord := if n = 0 then 0 else tgetD 0 n e.regs

/-- s[n] of the issuing front-end. -/
def sreg (c : FC) (n : Nat) : DWord := sregOf c.blk.fe n

/-- Write s[n]; a write to s0 is discarded (03 R68). -/
def writeS (s : State) (core n : Nat) (v : DWord) : State :=
  if n = 0 then s else modFe s core fun e => { e with regs := tputD 0 n v e.regs }

/-! ## Immediates (03 R76) -/

/-- The payload of the unit's LIT. -/
def grpLit (c : GC) : Option (BitVec 24) := c.spl.pre.lit
/-- The payload of the unit's LIT. -/
def feLit (c : FC) : Option (BitVec 24) := c.blk.fe.pre.lit
/-- The payload of the unit's MOD; absent, every field is zero (03 R80). -/
def grpMod (c : GC) : BitVec 24 := c.spl.pre.mod.getD 0
/-- The payload of the unit's MOD. -/
def feMod (c : FC) : BitVec 24 := c.blk.fe.pre.mod.getD 0

/-- imm7 (FI). -/
def imm7 (l : Option (BitVec 24)) (i : BitVec 7) : Word :=
  match l with
  | none => i.signExtend 32
  | some p => (p ++ i).signExtend 32

/-- imm14 (FL). -/
def imm14 (l : Option (BitVec 24)) (i : BitVec 14) : Word :=
  match l with
  | none => i.signExtend 32
  | some p => (p ++ i).truncate 32

/-- imm18 (FSI). -/
def imm18 (l : Option (BitVec 24)) (i : BitVec 18) : DWord :=
  match l with
  | none => i.signExtend 64
  | some p => (p ++ i).signExtend 64

/-- imm9 (FE). -/
def imm9 (l : Option (BitVec 24)) (i : BitVec 9) : Word :=
  match l with
  | none => i.zeroExtend 32
  | some p => (p ++ i).truncate 32

/-- The offset a LIT adds to an FM address in pool space. -/
def poolOffset (l : Option (BitVec 24)) : Word := (l.getD 0).signExtend 32

/-- The offset a LIT adds to an FM address in global space. -/
def globalOffset (l : Option (BitVec 24)) : DWord := (l.getD 0).signExtend 64

/-- A branch target: PC + 4 × offset (03 R63, R76). -/
def branchTo {w : Nat} (pc : Word) (o : BitVec w) : Word := pc + 4 * o.signExtend 32

end Sys2Proof.Machine
end

