-- ==== Sys2Proof/Machine/Flags.lean ====
section
/-! DEFINITION. Flags: the exception flags of a group (02 R45), completion flags and clauses (03 R78, 07 R172), and
the scoreboard (07 R173). -/
namespace Sys2Proof.Machine

/-- OR flags into SY.FPFLAGS (02 R45). -/
def raiseFlags (s : State) (core g : Nat) (f : BitVec 5) : State :=
  modGrp s core g fun r => { r with fpflags := r.fpflags ||| f }

/-! ## Completion flags -/

/-- The flag the next long-latency operation of a clause increments (03 R78). -/
def clauseFlag : Option Clause → Option Nat
  | none => none
  | some c =>
    let a := c.flagA.toNat
    let b := c.flagB.toNat
    let f := if c.first then a else if 12 ≤ b then a else b
    if 12 ≤ f then none else some f

/-- The flag stands at 63, so that the operation is held (03 R78). -/
def flagFull (t : Table Nat) (c : Option Clause) : Bool :=
  match clauseFlag c with
  | some f => 63 ≤ tgetD 0 f t
  | none => false

/-- A flag of a CLAUSE's WAIT mask does not read zero (03 R78). -/
def flagsUp (t : Table Nat) (w : BitVec 12) : Bool := (setBits 12 w).any fun n => 0 < tgetD 0 n t

/-- A split that was held for clause flags is so still: a CLAUSE by the flags of its mask, an operation by a full flag (03
R78, 07 R163). -/
def clauseHeld (t : Table Nat) (x : Split) : Bool := x.held = 1 && (flagsUp t x.waitMask || flagFull t x.clause)

/-- A long-latency operation has taken its flag. -/
def clauseUsed : Option Clause → Option Clause
  | some c => some { c with first := false }
  | none => none

/-- Count a long-latency operation of the issuing split in its flag. -/
def takeFlag (s : State) (c : GC) : State :=
  let s := modSpl s c.core c.g c.k fun x => { x with clause := clauseUsed x.clause }
  match clauseFlag c.spl.clause with
  | some f => modGrp s c.core c.g fun r => { r with flags := tput f (tgetD 0 f r.flags + 1) r.flags }
  | none => s

/-- Count a long-latency operation of the front-end in its flag. -/
def takeFlagFe (s : State) (c : FC) : State :=
  modFe s c.core fun e =>
    { e with clause := clauseUsed e.clause
             flags := match clauseFlag c.blk.fe.clause with
               | some f => tput f (tgetD 0 f e.flags + 1) e.flags
               | none => e.flags }

/-- An operation decrements its flag when it completes or faults (03 R78). -/
def dropFlag (s : State) (t : Thread) (f : Option Nat) : State :=
  match f with
  | none => s
  | some f =>
    match t.who with
    | .fe => modFe s t.core fun e => { e with flags := tputD 0 f (tgetD 0 f e.flags - 1) e.flags }
    | .grp g => modGrp s t.core g fun r => { r with flags := tputD 0 f (tgetD 0 f r.flags - 1) r.flags }

/-! ## The scoreboard -/

/-- The JSPAWN of a thread whose weight test has not been made (05 R142). -/
def spawnOf (s : State) (t : Thread) : Option SpawnDest :=
  (s.sched.jobs.findSome? fun e => if e.2.state = .spawning && e.2.src = some t then e.2.spawn else none)

/-- The vector registers of a group that long-latency operations are still to write (07 R173). -/
def pendingRegs (s : State) (core g : Nat) : List Nat :=
  let t : Thread := ⟨core, .grp g⟩
  (s.flight.poolInsts.flatMap fun i => if i.src = t then i.dests else [])
    ++ (s.flight.atgs.flatMap fun i => if i.src = t then i.dests else [])
    ++ (match getBlk s core with
        | some b => b.xfers.flatMap fun x => if x.group = g then x.dests else []
        | none => [])
    ++ (match getGrp s core g with
        | some r => r.splits.flatMap fun e => match e.2.wait with
          | .dqpop vd _ _ => [physReg e.2 vd, physReg e.2 (vd + 1)]
          | _ => []
        | none => [])
    ++ (match spawnOf s t with
        | some d => [d.reg]
        | none => [])

/-- The words of a group's allocation that hold a register: the first, and how many (04 R104). -/
def regSpan (h : Header) (n : Nat) : Nat × Nat :=
  if n < h.nu then (n, 1)
  else if n < h.nu + h.na then (h.nu + 2 * (n - h.nu), 2)
  else (h.nu + 2 * h.na + 32 * (n - h.nu - h.na), 32)

/-- The bank of a core that holds a word of a group's allocation: a partition's groups are laid one after the other over the
banks it had when the block was placed (01 R13, log entry 52). -/
def bankOf (b : Block) (g w : Nat) : Nat :=
  let there := ((List.range 4).map (4 * (g % 4) + ·)).filter fun k => !b.banksOut.contains k
  there.getD ((g / 4 * groupCost b.hdr + w) / 4096) 16

/-- A register lies in a bank that is under test: an access to it waits (18 R426). -/
def regTested (s : State) (c : GC) (n : Nat) : Bool :=
  let w := regSpan c.blk.hdr (physReg c.spl n)
  !s.mgmt.tests.isEmpty && (List.range w.2).any fun j =>
    underTest s 0 (c.core / 48) (c.core % 48 * 16 + bankOf c.blk c.g (w.1 + j))

/-- An instruction that names one of these registers is held (07 R173), by a write under way or a test of its bank. -/
def regsPending (s : State) (c : GC) (ns : List Nat) : Bool :=
  let p := pendingRegs s c.core c.g
  ns.any fun n => p.contains (physReg c.spl n) || regTested s c n

/-- The scalar registers an SLDP or a pending JSPAWN write is still to write (03 R78, 05 R142). -/
def pendingS (s : State) (core : Nat) : List Nat :=
  (s.flight.poolInsts.flatMap fun i => if i.src = ⟨core, .fe⟩ then i.dests else [])
    ++ (match spawnOf s ⟨core, .fe⟩ with
        | some d => [d.reg]
        | none => [])

/-- An instruction of the front-end that names one of these registers is held. -/
def sregsPending (s : State) (c : FC) (ns : List Nat) : Bool := ns.any fun n => n ≠ 0 && (pendingS s c.core).contains n

/-- A group's memory instructions are held while an acquire of it is outstanding (07 R164). -/
def acquireHolds (c : GC) : Bool := c.grp.acquire.isSome

/-- The long-latency operation of the issuing split is held at its clause's full flag (03 R78). -/
def fullHolds (c : GC) : Bool := flagFull c.grp.flags c.spl.clause

/-- A memory instruction is held by the scoreboard, or by an acquire of the group; a full flag that would hold it too
counts as well (07 R164, R166, R173). -/
def memHold (s : State) (c : GC) (long : Bool) (ns : List Nat) (e : Eff) : Eff :=
  let pend := regsPending s c ns
  if pend || acquireHolds c then heldBy [(long && fullHolds c, 1), (pend, 2), (acquireHolds c, 14)] e else e

end Sys2Proof.Machine
end

