-- ==== Sys2Proof/Machine/Scalar.lean ====
section
/-! DEFINITION. Front-end scalar instructions (08 R199 to R206, 07 R176): arithmetic, comparison, immediates and
control. SLDP, SSTP and the system registers are in Memory and System. -/
namespace Sys2Proof.Machine

/-- The value a scalar operation writes under W: a 32-bit result sign-extended, or the 64-bit one (08 R200). -/
def wsel (w : BitVec 1) (r64 : DWord) (r32 : Word) : DWord := if w = 1 then sext32 r32 else r64

/-- The low word of a register. -/
def low (x : DWord) : Word := x.truncate 32

/-- An exact result wrapped, or clamped when the unit's MOD saturates (08 R197): sat is SAT, un is RMODE = 01b;
exact results are given for signed and for unsigned operands. -/
def satTo (w : Nat) (sat un : Bool) (sgn uns : Int) : Int :=
  if sat then (if un then clampU w uns else clampS w sgn) else sgn

/-- The unit's MOD saturates. -/
def modSat (m : BitVec 24) : Bool := m.getLsbD 2
/-- RMODE of a MOD. -/
def modRm (m : BitVec 24) : BitVec 2 := m.extractLsb' 0 2
/-- NSF8 of a MOD. -/
def modNsf8 (m : BitVec 24) : Bool := m.getLsbD 3
/-- The kind of integer saturation is unsigned (08 R197). -/
def modUns (m : BitVec 24) : Bool := modRm m = 1

/-- An operation on two scalar registers whose exact result wraps or saturates (08 R197, R200). -/
def scalarSat (m : BitVec 24) (w : BitVec 1) (f : Int → Int → Int) (a b : DWord) : DWord :=
  if w = 1 then
    sext32 (BitVec.ofInt 32 (satTo 32 (modSat m) (modUns m) (f (low a).toInt (low b).toInt)
      (f (low a).toNat (low b).toNat)))
  else BitVec.ofInt 64 (satTo 64 (modSat m) (modUns m) (f a.toInt b.toInt) (f a.toNat b.toNat))

/-- A front-end instruction that writes s[d] from registers it reads (08 R196, R198). -/
def scalarOp (s : State) (lit : Bool) (reads : List Nat) (d : Nat) (f : FC → DWord) :
    Host.Outcome State Fault Refusal :=
  feInstr s lit fun c =>
    if sregsPending s c (d :: reads) then .hold 2 else .retire (writeS s c.core d (f c))

/-- SADD (08 R200). -/
def execSadd (d a b : BitVec 6) (w : BitVec 1) (s : State) : Host.Outcome State Fault Refusal :=
  scalarOp s false [a.toNat, b.toNat] d.toNat fun c =>
    scalarSat (feMod c) w (· + ·) (sreg c a.toNat) (sreg c b.toNat)

/-- SSUB (08 R200). -/
def execSsub (d a b : BitVec 6) (w : BitVec 1) (s : State) : Host.Outcome State Fault Refusal :=
  scalarOp s false [a.toNat, b.toNat] d.toNat fun c =>
    scalarSat (feMod c) w (· - ·) (sreg c a.toNat) (sreg c b.toNat)

/-- SMUL (08 R200). -/
def execSmul (d a b : BitVec 6) (w : BitVec 1) (s : State) : Host.Outcome State Fault Refusal :=
  scalarOp s false [a.toNat, b.toNat] d.toNat fun c =>
    scalarSat (feMod c) w (· * ·) (sreg c a.toNat) (sreg c b.toNat)

/-- The high half of a product (08 R200). -/
def mulHigh (w u : BitVec 1) (a b : DWord) : DWord :=
  if w = 1 then
    let p : Int := if u = 1 then (low a).toNat * (low b).toNat else (low a).toInt * (low b).toInt
    sext32 (BitVec.ofInt 32 (p / 2 ^ 32))
  else
    let p : Int := if u = 1 then a.toNat * b.toNat else a.toInt * b.toInt
    BitVec.ofInt 64 (p / 2 ^ 64)

/-- SMULH (08 R200). -/
def execSmulh (d a b : BitVec 6) (w u : BitVec 1) (s : State) : Host.Outcome State Fault Refusal :=
  scalarOp s false [a.toNat, b.toNat] d.toNat fun c => mulHigh w u (sreg c a.toNat) (sreg c b.toNat)

/-- SAND (08 R200). -/
def execSand (d a b : BitVec 6) (w : BitVec 1) (s : State) : Host.Outcome State Fault Refusal :=
  scalarOp s false [a.toNat, b.toNat] d.toNat fun c =>
    let r := sreg c a.toNat &&& sreg c b.toNat
    wsel w r (low r)

/-- SOR (08 R200). -/
def execSor (d a b : BitVec 6) (w : BitVec 1) (s : State) : Host.Outcome State Fault Refusal :=
  scalarOp s false [a.toNat, b.toNat] d.toNat fun c =>
    let r := sreg c a.toNat ||| sreg c b.toNat
    wsel w r (low r)

/-- SXOR (08 R200). -/
def execSxor (d a b : BitVec 6) (w : BitVec 1) (s : State) : Host.Outcome State Fault Refusal :=
  scalarOp s false [a.toNat, b.toNat] d.toNat fun c =>
    let r := sreg c a.toNat ^^^ sreg c b.toNat
    wsel w r (low r)

/-- The amount of a scalar shift: (B + imm5) mod 2^64 (08 R200). -/
def shiftAmount (b : DWord) (i : BitVec 5) : Nat := (b + i.zeroExtend 64).toNat

/-- SSHL (08 R200). -/
def execSshl (d a b : BitVec 6) (w : BitVec 1) (i : BitVec 5) (s : State) : Host.Outcome State Fault Refusal :=
  scalarOp s false [a.toNat, b.toNat] d.toNat fun c =>
    let n := shiftAmount (sreg c b.toNat) i
    let x := sreg c a.toNat
    wsel w (if 64 ≤ n then 0 else x <<< n) (if 32 ≤ n then 0 else low x <<< n)

/-- SSHR (08 R200). -/
def execSshr (d a b : BitVec 6) (w : BitVec 1) (i : BitVec 5) (s : State) : Host.Outcome State Fault Refusal :=
  scalarOp s false [a.toNat, b.toNat] d.toNat fun c =>
    let n := shiftAmount (sreg c b.toNat) i
    let x := sreg c a.toNat
    wsel w (if 64 ≤ n then 0 else x >>> n) (if 32 ≤ n then 0 else low x >>> n)

/-- SSAR (08 R200). -/
def execSsar (d a b : BitVec 6) (w : BitVec 1) (i : BitVec 5) (s : State) : Host.Outcome State Fault Refusal :=
  scalarOp s false [a.toNat, b.toNat] d.toNat fun c =>
    let n := shiftAmount (sreg c b.toNat) i
    let x := sreg c a.toNat
    wsel w (x.sshiftRight (min n 63)) ((low x).sshiftRight (min n 31))

/-- The lesser or greater of two scalars (08 R200). -/
def scalarPick (big : Bool) (w u : BitVec 1) (a b : DWord) : DWord :=
  let lt : Bool := if w = 1 then (if u = 1 then (low a).ult (low b) else (low a).slt (low b))
    else (if u = 1 then a.ult b else a.slt b)
  let r := if lt = big then b else a
  wsel w r (low r)

/-- SMIN (08 R200). -/
def execSmin (d a b : BitVec 6) (w u : BitVec 1) (s : State) : Host.Outcome State Fault Refusal :=
  scalarOp s false [a.toNat, b.toNat] d.toNat fun c => scalarPick false w u (sreg c a.toNat) (sreg c b.toNat)

/-- SMAX (08 R200). -/
def execSmax (d a b : BitVec 6) (w u : BitVec 1) (s : State) : Host.Outcome State Fault Refusal :=
  scalarOp s false [a.toNat, b.toNat] d.toNat fun c => scalarPick true w u (sreg c a.toNat) (sreg c b.toNat)

/-- The integer conditions of 03 R67. -/
def intCond {w : Nat} (c : Nat) (a b : BitVec w) : Bool :=
  match c with
  | 0 => a == b
  | 1 => a != b
  | 2 => a.slt b
  | 3 => a.sle b
  | 4 => b.slt a
  | 5 => b.sle a
  | 6 => a.ult b
  | 7 => a.ule b
  | 8 => b.ult a
  | _ => b.ule a

/-- SCMP (08 R199, R200). -/
def execScmp (p : BitVec 3) (a b : BitVec 6) (w : BitVec 1) (k : BitVec 4) (s : State) :
    Host.Outcome State Fault Refusal :=
  feInstr s false fun c =>
    chk [(9 < k.toNat, cILLEGAL)] <|
    if sregsPending s c [a.toNat, b.toNat] then .hold 2
    else
      let x := sreg c a.toNat
      let y := sreg c b.toNat
      .retire (writeFpred s c.core p.toNat (if w = 1 then intCond k.toNat (low x) (low y) else intCond k.toNat x y))

/-- SSEL (08 R200). -/
def execSsel (d a b : BitVec 6) (p : BitVec 3) (s : State) : Host.Outcome State Fault Refusal :=
  scalarOp s false [a.toNat, b.toNat] d.toNat fun c => if fpred c p.toNat then sreg c a.toNat else sreg c b.toNat

/-- SCLZ (08 R200). -/
def execSclz (d a : BitVec 6) (w : BitVec 1) (s : State) : Host.Outcome State Fault Refusal :=
  scalarOp s false [a.toNat] d.toNat fun c =>
    let x := sreg c a.toNat
    if w = 1 then BitVec.ofNat 64 (32 - bitLenAux 32 (low x).toNat) else BitVec.ofNat 64 (64 - bitLenAux 64 x.toNat)

/-- SPOP (08 R200). -/
def execSpop (d a : BitVec 6) (w : BitVec 1) (s : State) : Host.Outcome State Fault Refusal :=
  scalarOp s false [a.toNat] d.toNat fun c =>
    let x := sreg c a.toNat
    BitVec.ofNat 64 (if w = 1 then popCount 32 (low x).toNat else popCount 64 x.toNat)

/-- SADDI (08 R201). -/
def execSaddi (d : BitVec 6) (i : BitVec 18) (s : State) : Host.Outcome State Fault Refusal :=
  scalarOp s true [] d.toNat fun c => scalarSat (feMod c) 0 (· + ·) (sreg c d.toNat) (imm18 (feLit c) i)

/-- SLI (08 R201). -/
def execSli (d : BitVec 6) (i : BitVec 18) (s : State) : Host.Outcome State Fault Refusal :=
  scalarOp s true [] d.toNat fun c => imm18 (feLit c) i

/-- SLIH (08 R201). -/
def execSlih (d : BitVec 6) (i : BitVec 18) (s : State) : Host.Outcome State Fault Refusal :=
  scalarOp s true [] d.toNat fun c => low (imm18 (feLit c) i) ++ low (sreg c d.toNat)

/-- Move the front-end's PC. -/
def fePc (s : State) (c : FC) (pc : Word) : State := modFe s c.core fun e => { e with pc := pc }

/-- SJ (08 R203). -/
def execSj (o : BitVec 18) (s : State) : Host.Outcome State Fault Refusal :=
  feInstr s false fun c => .jump (fePc s c (branchTo c.blk.fe.pc o))

/-- SBZ (08 R203). -/
def execSbz (a : BitVec 6) (o : BitVec 18) (s : State) : Host.Outcome State Fault Refusal :=
  feInstr s false fun c =>
    if sregsPending s c [a.toNat] then .hold 2
    else if sreg c a.toNat = 0 then .jump (fePc s c (branchTo c.blk.fe.pc o)) else .retire s

/-- SBNZ (08 R203). -/
def execSbnz (a : BitVec 6) (o : BitVec 18) (s : State) : Host.Outcome State Fault Refusal :=
  feInstr s false fun c =>
    if sregsPending s c [a.toNat] then .hold 2
    else if sreg c a.toNat = 0 then .retire s else .jump (fePc s c (branchTo c.blk.fe.pc o))

/-- SCALL (08 R203). The return stack lists the oldest entry first. -/
def execScall (o : BitVec 18) (s : State) : Host.Outcome State Fault Refusal :=
  feInstr s false fun c =>
    chk [(8 ≤ c.blk.fe.rstack.length, cCALL_DEPTH)] <|
    .jump (modFe s c.core fun e =>
      { e with rstack := c.blk.fe.rstack ++ [c.blk.fe.pc + 4], pc := branchTo c.blk.fe.pc o })

/-- SRET (08 R203). -/
def execSret (s : State) : Host.Outcome State Fault Refusal :=
  feInstr s false fun c =>
    let t := c.blk.fe.rstack.getLast?.getD 0
    chk [(c.blk.fe.rstack.isEmpty, cCALL_DEPTH), (t.toNat % 4 ≠ 0, cMISALIGN)] <|
    .jump (modFe s c.core fun e => { e with rstack := c.blk.fe.rstack.dropLast, pc := t })

/-- STIME (08 R204). -/
def execStime (d : BitVec 6) (s : State) : Host.Outcome State Fault Refusal :=
  scalarOp s false [] d.toNat fun _ => s.clk.gts

/-- SEXIT (08 R206); it waits for the weight test of a JSPAWN (05 R142). -/
def execSexit (s : State) : Host.Outcome State Fault Refusal :=
  feInstr s false fun c =>
    if (spawnOf s ⟨c.core, .fe⟩).isSome then .hold 2 else
    .jump (leaveAll (modFe s c.core fun e => { e with run := .exited }) c.core .fe)

/-! ## The decision queue (07 R175 to R177) -/

/-- The read indexes of the live groups, as distances below the tail (07 R175). -/
def queueUsed (b : Block) : Nat :=
  b.groups.foldl (fun m e =>
    if e.2.run = .exited || e.2.run = .killed then m else max m (b.dqTail - e.2.pg).toNat) 0

/-- DQPUSH (07 R176). -/
def execDqpush (p : BitVec 3) (a : BitVec 6) (s : State) : Host.Outcome State Fault Refusal :=
  feInstr s false fun c =>
    if sregsPending s c [a.toNat] then .hold 2
    else if queueUsed c.blk = 128 then .retire (writeFpred s c.core p.toNat false)
    else
      let s := modBlk s c.core fun b =>
        { b with
          dq := tputD 0 (b.dqTail.toNat % 128) (sreg c a.toNat) b.dq, dqTail := b.dqTail + 1
          dqPushed := some s.clk.cycle }
      .retire (writeFpred s c.core p.toNat true)

/-- Everything SWAIT waits for with ALL: loads that have not written, stores that have not been acknowledged (08
R205). -/
def fePoolIdle (s : State) (core : Nat) : Bool :=
  !(s.flight.poolInsts.any fun i => i.src = ⟨core, .fe⟩) && !(s.flight.pool.any fun r => r.src = ⟨core, .fe⟩)

/-- SWAIT (08 R205). Its wait counts as one for clause flags, or for the pool (17 R418, log entry 136). -/
def execSwait (m : BitVec 18) (s : State) : Host.Outcome State Fault Refusal :=
  feInstr s true fun c =>
    let v := imm18 (feLit c) m
    if (setBits 12 v).any fun n => 0 < tgetD 0 n c.blk.fe.flags then .hold 1
    else if v.getLsbD 17 && !fePoolIdle s c.core then .hold 7
    else .retire s

end Sys2Proof.Machine
end

