-- ==== Sys2Proof/Machine/Vector.lean ====
section
/-! DEFINITION. Vector integer, predicate and lane instructions (08 R207 to R219). -/
namespace Sys2Proof.Machine

/-! ## Result shapes (07 R168) -/

/-- Uniform when every operand is, general otherwise. -/
def shapeUG (ss : List Shape) : Shape := if ss.all (· = .uniform) then .uniform else .general

/-- The operand's own shape, or the more general of several. -/
def shapeTop (ss : List Shape) : Shape := ss.foldl shapeMax .uniform

/-- VADD, VSUB, VADDI: no operand general gives the more general shape. -/
def shapeSum (ss : List Shape) : Shape := shapeTop ss

/-- VMUL of affine by uniform, either order, is affine. -/
def shapeMul : List Shape → Shape
  | [.uniform, .uniform] => .uniform
  | [.affine, .uniform] => .affine
  | [.uniform, .affine] => .affine
  | _ => .general

/-- VSHL of affine by uniform is affine. -/
def shapeShl : List Shape → Shape
  | [.uniform, .uniform] => .uniform
  | [.affine, .uniform] => .affine
  | _ => .general

/-- A shape that an entry states. -/
def shapeIs (x : Shape) (_ : List Shape) : Shape := x

/-- The registers and the shape a vector instruction needs: n consecutive destinations from d, sources (first, how
many), checked in the order of 03 R73. -/
def vecChecks (c : GC) (dests : List (Nat × Nat)) (srcs : List (Nat × Nat)) (res : Shape) : List (Bool × Byte) :=
  [((dests ++ srcs).any fun r => outOfRange c r.1 r.2, cREG_RANGE),
   (dests.any fun r => (List.range r.2).any fun j => shapeRank (vtag c (r.1 + j)) < shapeRank res, cSHAPE)]

/-- The names of registers given as first and how many. -/
def regNames (rs : List (Nat × Nat)) : List Nat := rs.flatMap fun r => (List.range r.2).map fun j => r.1 + j

/-- A word of a register lay in a bank that has been lost (01 R14). -/
def regLost (c : GC) (n : Nat) : Bool :=
  let w := regSpan c.blk.hdr (physReg c.spl n)
  (List.range w.2).any fun j => c.blk.banksLost.contains (bankOf c.blk c.g (w.1 + j))

/-- An instruction with active lanes faults at the access to a register in a lost bank (01 R14, 03 R73). -/
def bankCheck (c : GC) (g : Nat) (ns : List Nat) : Bool × Byte :=
  (!c.blk.banksLost.isEmpty && guarded c g ≠ 0 && ns.any (regLost c), cDATA_UNCORRECTABLE)

/-- A vector instruction of one destination: guard, destination, sources, result shape from the sources' shapes, the
value of each lane and the exception flags it raises (07 R168 to R170, 02 R45). -/
def vecOp (s : State) (lit : Bool) (g d : Nat) (srcs : List Nat) (rule : GC → List Shape → Shape)
    (f : GC → Nat → Word × BitVec 5) : Host.Outcome State Fault Refusal :=
  grpInstr s lit fun c =>
    let rs := srcs.map fun r => (r, 1)
    if regsPending s c (d :: srcs) then .hold 2
    else
      chk (vecChecks c [(d, 1)] rs (rule c (srcs.map (vtag c))) ++ [bankCheck c g (d :: srcs)]) <|
      let act := activeLanes c g
      let s := writeReg s c d act fun i => (f c i).1
      .retire (raiseFlags s c.core c.g (act.foldl (fun x i => x ||| (f c i).2) 0))

/-- An integer vector instruction (08 R196: no flags). -/
def intOp (s : State) (g d : Nat) (srcs : List Nat) (rule : GC → List Shape → Shape) (f : GC → Nat → Word) :
    Host.Outcome State Fault Refusal :=
  vecOp s false g d srcs rule fun c i => (f c i, 0)

/-- Uniform or general. -/
def ruleUG (_ : GC) (ss : List Shape) : Shape := shapeUG ss

/-- The rule of an instruction that may saturate: an affine result becomes general (08 R197). -/
def ruleSat (r : List Shape → Shape) (c : GC) (ss : List Shape) : Shape :=
  if modSat (grpMod c) then shapeUG ss else r ss

/-- An exact lane result wrapped or clamped (08 R197). -/
def laneSat (c : GC) (sgn uns : Int) : Word :=
  BitVec.ofInt 32 (satTo 32 (modSat (grpMod c)) (modUns (grpMod c)) sgn uns)

/-- VADD (08 R208). -/
def execVadd (g : BitVec 3) (d a b : BitVec 7) (s : State) : Host.Outcome State Fault Refusal :=
  intOp s g.toNat d.toNat [a.toNat, b.toNat] (ruleSat shapeSum) fun c i =>
    let x := vreg c a.toNat i
    let y := vreg c b.toNat i
    laneSat c (x.toInt + y.toInt) (x.toNat + y.toNat)

/-- VSUB (08 R208). -/
def execVsub (g : BitVec 3) (d a b : BitVec 7) (s : State) : Host.Outcome State Fault Refusal :=
  intOp s g.toNat d.toNat [a.toNat, b.toNat] (ruleSat shapeSum) fun c i =>
    let x := vreg c a.toNat i
    let y := vreg c b.toNat i
    laneSat c (x.toInt - y.toInt) ((x.toNat : Int) - y.toNat)

/-- VMUL (08 R208). -/
def execVmul (g : BitVec 3) (d a b : BitVec 7) (s : State) : Host.Outcome State Fault Refusal :=
  intOp s g.toNat d.toNat [a.toNat, b.toNat] (ruleSat shapeMul) fun c i =>
    let x := vreg c a.toNat i
    let y := vreg c b.toNat i
    laneSat c (x.toInt * y.toInt) (x.toNat * y.toNat)

/-- VMULH.i (08 R208). -/
def execVmulhI (g : BitVec 3) (d a b : BitVec 7) (s : State) : Host.Outcome State Fault Refusal :=
  intOp s g.toNat d.toNat [a.toNat, b.toNat] ruleUG fun c i =>
    BitVec.ofInt 32 ((vreg c a.toNat i).toInt * (vreg c b.toNat i).toInt / 2 ^ 32)

/-- VMULH.n (08 R208). -/
def execVmulhN (g : BitVec 3) (d a b : BitVec 7) (s : State) : Host.Outcome State Fault Refusal :=
  intOp s g.toNat d.toNat [a.toNat, b.toNat] ruleUG fun c i =>
    BitVec.ofNat 32 ((vreg c a.toNat i).toNat * (vreg c b.toNat i).toNat / 2 ^ 32)

/-- VMAD (08 R208). -/
def execVmad (g : BitVec 3) (d a b : BitVec 7) (s : State) : Host.Outcome State Fault Refusal :=
  intOp s g.toNat d.toNat [a.toNat, b.toNat, d.toNat] ruleUG fun c i =>
    let x := vreg c a.toNat i
    let y := vreg c b.toNat i
    let z := vreg c d.toNat i
    laneSat c (x.toInt * y.toInt + z.toInt) (x.toNat * y.toNat + z.toNat)

/-- VAND (08 R208). -/
def execVand (g : BitVec 3) (d a b : BitVec 7) (s : State) : Host.Outcome State Fault Refusal :=
  intOp s g.toNat d.toNat [a.toNat, b.toNat] ruleUG fun c i => vreg c a.toNat i &&& vreg c b.toNat i

/-- VOR (08 R208). -/
def execVor (g : BitVec 3) (d a b : BitVec 7) (s : State) : Host.Outcome State Fault Refusal :=
  intOp s g.toNat d.toNat [a.toNat, b.toNat] ruleUG fun c i => vreg c a.toNat i ||| vreg c b.toNat i

/-- VXOR (08 R208). -/
def execVxor (g : BitVec 3) (d a b : BitVec 7) (s : State) : Host.Outcome State Fault Refusal :=
  intOp s g.toNat d.toNat [a.toNat, b.toNat] ruleUG fun c i => vreg c a.toNat i ^^^ vreg c b.toNat i

/-- VANDN (08 R208). -/
def execVandn (g : BitVec 3) (d a b : BitVec 7) (s : State) : Host.Outcome State Fault Refusal :=
  intOp s g.toNat d.toNat [a.toNat, b.toNat] ruleUG fun c i => vreg c a.toNat i &&& ~~~ vreg c b.toNat i

/-- VSHL (08 R209). -/
def execVshl (g : BitVec 3) (d a b : BitVec 7) (s : State) : Host.Outcome State Fault Refusal :=
  intOp s g.toNat d.toNat [a.toNat, b.toNat] (fun _ => shapeShl) fun c i =>
    let n := (vreg c b.toNat i).toNat
    if 32 ≤ n then 0 else vreg c a.toNat i <<< n

/-- VSHR (08 R209). -/
def execVshr (g : BitVec 3) (d a b : BitVec 7) (s : State) : Host.Outcome State Fault Refusal :=
  intOp s g.toNat d.toNat [a.toNat, b.toNat] ruleUG fun c i =>
    let n := (vreg c b.toNat i).toNat
    if 32 ≤ n then 0 else vreg c a.toNat i >>> n

/-- VSAR (08 R209). -/
def execVsar (g : BitVec 3) (d a b : BitVec 7) (s : State) : Host.Outcome State Fault Refusal :=
  intOp s g.toNat d.toNat [a.toNat, b.toNat] ruleUG fun c i =>
    (vreg c a.toNat i).sshiftRight (min (vreg c b.toNat i).toNat 31)

/-- VMIN.i (08 R208). -/
def execVminI (g : BitVec 3) (d a b : BitVec 7) (s : State) : Host.Outcome State Fault Refusal :=
  intOp s g.toNat d.toNat [a.toNat, b.toNat] ruleUG fun c i =>
    let x := vreg c a.toNat i
    let y := vreg c b.toNat i
    if x.sle y then x else y

/-- VMIN.n (08 R208). -/
def execVminN (g : BitVec 3) (d a b : BitVec 7) (s : State) : Host.Outcome State Fault Refusal :=
  intOp s g.toNat d.toNat [a.toNat, b.toNat] ruleUG fun c i =>
    let x := vreg c a.toNat i
    let y := vreg c b.toNat i
    if x.ule y then x else y

/-- VMAX.i (08 R208). -/
def execVmaxI (g : BitVec 3) (d a b : BitVec 7) (s : State) : Host.Outcome State Fault Refusal :=
  intOp s g.toNat d.toNat [a.toNat, b.toNat] ruleUG fun c i =>
    let x := vreg c a.toNat i
    let y := vreg c b.toNat i
    if x.sle y then y else x

/-- VMAX.n (08 R208). -/
def execVmaxN (g : BitVec 3) (d a b : BitVec 7) (s : State) : Host.Outcome State Fault Refusal :=
  intOp s g.toNat d.toNat [a.toNat, b.toNat] ruleUG fun c i =>
    let x := vreg c a.toNat i
    let y := vreg c b.toNat i
    if x.ule y then y else x

/-- VABS; always signed under SAT (08 R197, R208). -/
def execVabs (g : BitVec 3) (d a : BitVec 7) (s : State) : Host.Outcome State Fault Refusal :=
  intOp s g.toNat d.toNat [a.toNat] ruleUG fun c i =>
    let x := (vreg c a.toNat i).toInt
    BitVec.ofInt 32 (if modSat (grpMod c) then clampS 32 x.natAbs else x.natAbs)

/-- VCLZ (08 R208). -/
def execVclz (g : BitVec 3) (d a : BitVec 7) (s : State) : Host.Outcome State Fault Refusal :=
  intOp s g.toNat d.toNat [a.toNat] ruleUG fun c i => BitVec.ofNat 32 (32 - bitLenAux 32 (vreg c a.toNat i).toNat)

/-- VPOP (08 R208). -/
def execVpop (g : BitVec 3) (d a : BitVec 7) (s : State) : Host.Outcome State Fault Refusal :=
  intOp s g.toNat d.toNat [a.toNat] ruleUG fun c i => BitVec.ofNat 32 (popCount 32 (vreg c a.toNat i).toNat)

/-- VBREV (08 R208). -/
def execVbrev (g : BitVec 3) (d a : BitVec 7) (s : State) : Host.Outcome State Fault Refusal :=
  intOp s g.toNat d.toNat [a.toNat] ruleUG fun c i => (vreg c a.toNat i).reverse

/-- The length of a bit field (08 R210). -/
def fieldLen (b : Word) : Nat := min 32 (bitsOf b.toNat 13 8)

/-- VBFE (08 R210). -/
def execVbfe (g : BitVec 3) (d a b : BitVec 7) (s : State) : Host.Outcome State Fault Refusal :=
  intOp s g.toNat d.toNat [a.toNat, b.toNat] ruleUG fun c i =>
    let y := vreg c b.toNat i
    let n := fieldLen y
    let f := (vreg c a.toNat i).toNat / 2 ^ bitsOf y.toNat 4 0 % 2 ^ n
    if y.getLsbD 15 && 0 < n && bitOf f (n - 1) then BitVec.ofInt 32 ((f : Int) - 2 ^ n) else BitVec.ofNat 32 f

/-- VBFI (08 R210). -/
def execVbfi (g : BitVec 3) (d a b : BitVec 7) (s : State) : Host.Outcome State Fault Refusal :=
  intOp s g.toNat d.toNat [a.toNat, b.toNat, d.toNat] ruleUG fun c i =>
    let y := vreg c b.toNat i
    let m : Word := BitVec.ofNat 32 (2 ^ fieldLen y - 1)
    let p := bitsOf y.toNat 4 0
    (vreg c d.toNat i &&& ~~~ (m <<< p)) ||| ((vreg c a.toNat i &&& m) <<< p)

/-- VADDI (08 R211). -/
def execVaddi (g : BitVec 3) (d a i : BitVec 7) (s : State) : Host.Outcome State Fault Refusal :=
  vecOp s true g.toNat d.toNat [a.toNat] (ruleSat shapeSum) fun c j =>
    let x := vreg c a.toNat j
    let y := imm7 (grpLit c) i
    (laneSat c (x.toInt + y.toInt) (x.toNat + y.toNat), 0)

/-- VLI (08 R211). -/
def execVli (g : BitVec 3) (d : BitVec 7) (i : BitVec 14) (s : State) : Host.Outcome State Fault Refusal :=
  vecOp s true g.toNat d.toNat [] (fun _ => shapeIs .uniform) fun c _ => (imm14 (grpLit c) i, 0)

/-- VMOV (08 R208). -/
def execVmov (g : BitVec 3) (d a : BitVec 7) (s : State) : Host.Outcome State Fault Refusal :=
  intOp s g.toNat d.toNat [a.toNat] (fun _ => shapeTop) fun c i => vreg c a.toNat i

/-! ## Predicates -/

/-- The mask of the active lanes in which a condition holds. -/
def laneMask (act : List Nat) (f : Nat → Bool) : Word := maskOf 32 (act.filter f)

/-- An instruction that writes a predicate in its active lanes; uni says whether the destination then carries the
uniform property (07 R182, R191, 08 R212, R219). -/
def predOp (s : State) (g p : Nat) (srcs : List Nat) (legal : Bool) (uni : GC → Bool)
    (f : GC → List Nat → Word × BitVec 5) : Host.Outcome State Fault Refusal :=
  grpInstr s false fun c =>
    if regsPending s c srcs then .hold 2
    else
      chk [(!legal, cILLEGAL), (srcs.any fun r => outOfRange c r 1, cREG_RANGE), (predStaged c p, cSHAPE),
        bankCheck c g srcs] <|
      let r := f c (activeLanes c g)
      let s := raiseFlags s c.core c.g r.2
      let s := writePred s c.core c.g p (guarded c g) r.1
      .retire (if guarded c g = 0 then s else setUniform s c p (uni c))

/-- A compare's destination carries the uniform property when unguarded with uniform operands (07 R182). -/
def cmpUniform (g : Nat) (srcs : List Nat) (c : GC) : Bool := g = 0 && srcs.all fun r => vtag c r = .uniform

/-- VCMP (08 R212). -/
def execVcmp (g p : BitVec 3) (k : BitVec 4) (a b : BitVec 7) (s : State) : Host.Outcome State Fault Refusal :=
  predOp s g.toNat p.toNat [a.toNat, b.toNat] (k.toNat ≤ 9) (cmpUniform g.toNat [a.toNat, b.toNat]) fun c act =>
    (laneMask act fun i => intCond k.toNat (vreg c a.toNat i) (vreg c b.toNat i), 0)

/-- VSEL (08 R213): every lane of the split is active. -/
def execVsel (p : BitVec 3) (d a b : BitVec 7) (s : State) : Host.Outcome State Fault Refusal :=
  intOp s 0 d.toNat [a.toNat, b.toNat]
    (fun c ss => if isUniformPred c p.toNat then shapeTop ss else .general) fun c i =>
    -- a uniform or affine destination is written from two lanes: the split's first lane decides for it
    let j := if vtag c d.toNat = .general then i else (lanesOf c.spl.lanes).getD 0 0
    if (pmask c p.toNat).getLsbD j then vreg c a.toNat i else vreg c b.toNat i

/-- VLANE (08 R214). -/
def execVlane (g : BitVec 3) (d : BitVec 7) (s : State) : Host.Outcome State Fault Refusal :=
  intOp s g.toNat d.toNat [] (fun _ => shapeIs .affine) fun _ i => BitVec.ofNat 32 i

/-- VTIME (08 R214). -/
def execVtime (g : BitVec 3) (d : BitVec 7) (h : BitVec 1) (s : State) : Host.Outcome State Fault Refusal :=
  intOp s g.toNat d.toNat [] (fun _ => shapeIs .uniform) fun _ _ =>
    if h = 1 then s.clk.gts.extractLsb' 32 32 else s.clk.gts.extractLsb' 0 32

/-! ## Lane operations -/

/-- A shuffle: lane i takes reg(va) of the source lane, or its own when there is none or it is not active (08 R215). -/
def shuffle (s : State) (g d a b : Nat) (src : Nat → Word → Option Nat) : Host.Outcome State Fault Refusal :=
  intOp s g d [a, b] ruleUG fun c i =>
    match src i (vreg c b i) with
    | some j => if (guarded c g).getLsbD j then vreg c a j else vreg c a i
    | none => vreg c a i

/-- VSHFL.idx (08 R215). -/
def execVshflIdx (g : BitVec 3) (d a b : BitVec 7) (s : State) : Host.Outcome State Fault Refusal :=
  shuffle s g.toNat d.toNat a.toNat b.toNat fun _ w => some (w.toNat % 32)

/-- VSHFL.up (08 R215). -/
def execVshflUp (g : BitVec 3) (d a b : BitVec 7) (s : State) : Host.Outcome State Fault Refusal :=
  shuffle s g.toNat d.toNat a.toNat b.toNat fun i w => if w.toNat ≤ i then some (i - w.toNat) else none

/-- VSHFL.down (08 R215). -/
def execVshflDown (g : BitVec 3) (d a b : BitVec 7) (s : State) : Host.Outcome State Fault Refusal :=
  shuffle s g.toNat d.toNat a.toNat b.toNat fun i w => if i + w.toNat ≤ 31 then some (i + w.toNat) else none

/-- VSHFL.xor (08 R215). -/
def execVshflXor (g : BitVec 3) (d a b : BitVec 7) (s : State) : Host.Outcome State Fault Refusal :=
  shuffle s g.toNat d.toNat a.toNat b.toNat fun i w => some (Nat.xor i (w.toNat % 32))

/-- VBALLOT (08 R216). -/
def execVballot (g : BitVec 3) (d : BitVec 7) (p : BitVec 3) (s : State) : Host.Outcome State Fault Refusal :=
  intOp s g.toNat d.toNat [] (fun _ => shapeIs .uniform) fun c _ => guarded c g.toNat &&& pmask c p.toNat

/-- VVOTE (08 R216). -/
def execVvote (g p : BitVec 3) (f : BitVec 4) (a : BitVec 3) (s : State) : Host.Outcome State Fault Refusal :=
  predOp s g.toNat p.toNat [] (f.toNat ≤ 3) (fun _ => true) fun c act =>
    let m := pmask c a.toNat
    let all := act.all m.getLsbD
    let none_ := act.all fun i => !m.getLsbD i
    let v : Bool := match f.toNat with
      | 0 => all
      | 1 => !none_
      | 2 => all || none_
      | _ => none_
    (if v then 0xFFFFFFFF else 0, 0)

/-- A reduction over the active lanes; its result is uniform (08 R217). -/
def reduceOp (s : State) (g d a : Nat) (f : GC → List Word → Word) : Host.Outcome State Fault Refusal :=
  intOp s g d [a] (fun _ => shapeIs .uniform) fun c _ => f c ((activeLanes c g).map fun i => vreg c a i)

/-- The exact sum of words, wrapped or clamped once (08 R197). -/
def sumSat (c : GC) (ws : List Word) : Word :=
  laneSat c (ws.foldl (fun x w => x + w.toInt) 0) (ws.foldl (fun x w => x + w.toNat) 0)

/-- The lesser or greater of two words. -/
def pickWord (big un : Bool) (a b : Word) : Word :=
  if (if un then a.ult b else a.slt b) = big then b else a

/-- The combination of a list by min or max. -/
def foldPick (big un : Bool) : List Word → Word
  | [] => 0
  | w :: r => r.foldl (pickWord big un) w

/-- VREDADD (08 R217). -/
def execVredadd (g : BitVec 3) (d a : BitVec 7) (s : State) : Host.Outcome State Fault Refusal :=
  reduceOp s g.toNat d.toNat a.toNat sumSat

/-- VREDMIN (08 R217). -/
def execVredmin (g : BitVec 3) (d a : BitVec 7) (u : BitVec 1) (s : State) : Host.Outcome State Fault Refusal :=
  reduceOp s g.toNat d.toNat a.toNat fun _ => foldPick false (u == 1)

/-- VREDMAX (08 R217). -/
def execVredmax (g : BitVec 3) (d a : BitVec 7) (u : BitVec 1) (s : State) : Host.Outcome State Fault Refusal :=
  reduceOp s g.toNat d.toNat a.toNat fun _ => foldPick true (u == 1)

/-- The identity of an exclusive scan (08 R218). -/
def scanIdentity (o : Nat) (un : Bool) : Word :=
  match o, un with
  | 1, false => 0x7FFFFFFF
  | 1, true => 0xFFFFFFFF
  | 2, false => 0x80000000
  | _, _ => 0

/-- VSCAN (08 R218). -/
def execVscan (g : BitVec 3) (d a : BitVec 7) (u x : BitVec 1) (o : BitVec 2) (s : State) :
    Host.Outcome State Fault Refusal :=
  grpInstr s false fun c =>
    if regsPending s c [d.toNat, a.toNat] then .hold 2
    else
      chk ((o == 3, cILLEGAL) :: vecChecks c [(d.toNat, 1)] [(a.toNat, 1)] .general ++ [bankCheck c g.toNat [d.toNat, a.toNat]]) <|
      let act := activeLanes c g.toNat
      .retire (writeReg s c d.toNat act fun i =>
        let ws := (act.filter fun j => if x = 1 then j < i else j ≤ i).map fun j => vreg c a.toNat j
        if ws.isEmpty then scanIdentity o.toNat (u == 1)
        else match o.toNat with
          | 0 => sumSat c ws
          | 1 => foldPick false (u == 1) ws
          | _ => foldPick true (u == 1) ws)

/-! ## Predicate logic (08 R219) -/

/-- The uniform property of a predicate operation (07 R182). -/
def logicUniform (g : Nat) (ps : List Nat) (c : GC) : Bool := g = 0 && ps.all (isUniformPred c)

/-- PAND (08 R219). -/
def execPand (g p a b : BitVec 3) (s : State) : Host.Outcome State Fault Refusal :=
  predOp s g.toNat p.toNat [] true (logicUniform g.toNat [a.toNat, b.toNat]) fun c _ =>
    (pmask c a.toNat &&& pmask c b.toNat, 0)

/-- POR (08 R219). -/
def execPor (g p a b : BitVec 3) (s : State) : Host.Outcome State Fault Refusal :=
  predOp s g.toNat p.toNat [] true (logicUniform g.toNat [a.toNat, b.toNat]) fun c _ =>
    (pmask c a.toNat ||| pmask c b.toNat, 0)

/-- PXOR (08 R219). -/
def execPxor (g p a b : BitVec 3) (s : State) : Host.Outcome State Fault Refusal :=
  predOp s g.toNat p.toNat [] true (logicUniform g.toNat [a.toNat, b.toNat]) fun c _ =>
    (pmask c a.toNat ^^^ pmask c b.toNat, 0)

/-- PNOT (08 R219). -/
def execPnot (g p a : BitVec 3) (s : State) : Host.Outcome State Fault Refusal :=
  predOp s g.toNat p.toNat [] true (logicUniform g.toNat [a.toNat]) fun c _ => (~~~ pmask c a.toNat, 0)

end Sys2Proof.Machine
end

