-- ==== Sys2Proof/Machine/Control.lean ====
section
/-! DEFINITION. Group control flow (07 R178 to R193) and the hints (03 R76 to R81). LSAVE, LREST and the waits are
finished elsewhere (Memory, Waits). -/
namespace Sys2Proof.Machine

/-! ## Splits -/

/-- The lowest free index of a split, when the group has fewer than four (07 R178). -/
def freeSplit (r : Group) : Option Nat :=
  if 4 ≤ r.splits.length then none else (List.range 4).find? fun k => (tfind k r.splits).isNone

/-- Everything of 07 R179 is equal, and neither split waits. -/
def mergeable (x y : Split) : Bool :=
  x.pc = y.pc && x.levels = y.levels && x.armSize = y.armSize && (x.armSize = 0 || x.armBase = y.armBase)
    && x.rstack = y.rstack && x.pre = y.pre

/-- Merge split j into split i: the lower index, the union of the lanes; its serial entries pass (07 R179). -/
def mergePair (r : Group) (i j : Nat) : Group :=
  match tfind i r.splits, tfind j r.splits with
  | some x, some y =>
    { r with
      splits := tput i { x with lanes := x.lanes ||| y.lanes, uniform := 1, clause := none } (tdel j r.splits)
      serial := r.serial.map fun e => if e.owner = j then { e with owner := i } else e }
  | _, _ => r

/-- Two splits that may merge at an issue boundary: neither waits after issue. -/
def mergeNow (r : Group) (i j : Nat) : Bool :=
  match tfind i r.splits, tfind j r.splits with
  | some x, some y => mergeable x y && x.wait = .none && y.wait = .none && atBoundary x.pre
  | _, _ => false

/-- Merge every pair of splits that may (07 R179). -/
def mergeSplits (r : Group) : Group :=
  foldSt (fun r (p : Nat × Nat) => if mergeNow r p.1 p.2 then mergePair r p.1 p.2 else r) r
    [(0, 1), (0, 2), (0, 3), (1, 2), (1, 3), (2, 3)]

/-- Change the issuing split. -/
def onSplit (s : State) (c : GC) (f : Split → Split) : State := modSpl s c.core c.g c.k f

/-- Divide the issuing split: it keeps some lanes, a new one takes the others (07 R180, R193). -/
def divide (s : State) (c : GC) (j : Nat) (keep : Split) (new : Split) : State :=
  modGrp s c.core c.g fun r => { r with splits := tput j new (tput c.k keep r.splits) }

/-- The split without its prefixes and its uniform properties, as both parts of a division are (07 R182). -/
def bareSplit (c : GC) : Split := { c.spl with pre := {}, held := 0, wait := .none, uniform := 1 }

/-- BR (07 R180): both parts of a split that divides go on with the words left of its clause (03 R78). -/
def execBr (p : BitVec 3) (o : BitVec 21) (s : State) : Host.Outcome State Fault Refusal :=
  grpInstr s false fun c =>
    let t := guarded c p.toNat
    let n := c.spl.lanes &&& ~~~ t
    let tgt := branchTo c.spl.pc o
    let x := bareSplit c
    if n = 0 then .jump (busyGrp (onSplit s c fun x => { x with pc := tgt }) c 6)
    else if t = 0 then .retire (busyGrp s c 6)
    else match freeSplit c.grp with
      | some j =>
        let on := { x with lanes := n }
        .retire (busyGrp (divide s c j on { on with lanes := t, pc := tgt, clause := clauseTick x.clause }) c 6)
      | none =>
        chk [(8 ≤ c.grp.serial.length, cDIVERGENCE)] <|
        .jump (busyGrp (modGrp s c.core c.g fun r =>
          { setSpl r c.k { x with lanes := t, pc := tgt } with
            serial := r.serial ++ [{ pc := c.spl.pc + 4, owner := c.k, lanes := n, running := false }] }) c 6)

/-- The cycles that a transfer takes: two more when the uniform check is made (07 R182, R187). -/
def turnCycles (checked : Bool) : Nat := if checked then 8 else 6

/-- BRU (07 R181). -/
def execBru (p : BitVec 3) (o : BitVec 21) (s : State) : Host.Outcome State Fault Refusal :=
  grpInstr s false fun c =>
    let n := turnCycles (!isUniformPred c p.toNat)
    chk [(predMixed c p.toNat, cUNIFORMITY)] <|
    if guarded c p.toNat = 0 then .retire (busyGrp s c n)
    else .jump (busyGrp (onSplit s c fun x => { x with pc := branchTo c.spl.pc o }) c n)

/-- CALL (07 R181). -/
def execCall (p : BitVec 3) (o : BitVec 21) (s : State) : Host.Outcome State Fault Refusal :=
  grpInstr s false fun c =>
    let n := turnCycles (!isUniformPred c p.toNat)
    chk [(predMixed c p.toNat, cUNIFORMITY)] <|
    if guarded c p.toNat = 0 then .retire (busyGrp s c n)
    else chk [(8 ≤ c.spl.rstack.length, cCALL_DEPTH)] <|
      .jump (busyGrp (onSplit s c fun x =>
        { x with pc := branchTo c.spl.pc o, rstack := c.spl.rstack ++ [c.spl.pc + 4] }) c n)

/-- RET (07 R181). -/
def execRet (s : State) : Host.Outcome State Fault Refusal :=
  grpInstr s false fun c =>
    let t := c.spl.rstack.getLast?.getD 0
    chk [(c.spl.rstack.isEmpty, cCALL_DEPTH), (t.toNat % 4 ≠ 0, cMISALIGN)] <|
    .jump (busyGrp (onSplit s c fun x => { x with pc := t, rstack := c.spl.rstack.dropLast }) c 6)

/-- The value of a register differs among the lanes of the split (07 R182). -/
def regMixed (c : GC) (n : Nat) : Bool :=
  match lanesOf c.spl.lanes with
  | [] => false
  | i :: r => r.any fun j => vreg c n j ≠ vreg c n i

/-- The value of a register in the first lane of the split. -/
def firstLane (c : GC) (n : Nat) : Word := vreg c n ((lanesOf c.spl.lanes).getD 0 0)

/-- BRX (07 R181): the guard is its condition; its target must agree across the lanes of the split whatever the guard (07
R182, 03 R73). -/
def execBrx (g : BitVec 3) (a : BitVec 7) (s : State) : Host.Outcome State Fault Refusal :=
  grpInstr s false fun c =>
    if regsPending s c [a.toNat] then .hold 2
    else
      chk [(outOfRange c a.toNat 1, cREG_RANGE), (predMixed c g.toNat, cUNIFORMITY),
        (regMixed c a.toNat, cUNIFORMITY)] <|
      let n := turnCycles (!isUniformPred c g.toNat || vtag c a.toNat ≠ .uniform)
      if guarded c g.toNat = 0 then .retire (busyGrp s c n)
      else chk [bankCheck c g.toNat [a.toNat], ((firstLane c a.toNat).toNat % 4 ≠ 0, cMISALIGN)] <|
        .jump (busyGrp (onSplit s c fun x => { x with pc := firstLane c a.toNat }) c n)

/-- The topmost serial entry a split owns: its index (07 R183). -/
def topEntry (r : Group) (k : Nat) : Option Nat :=
  ((List.range r.serial.length).reverse).find? fun i => (r.serial[i]?.map SerialEntry.owner) = some k

/-- JOIN (07 R183). -/
def execJoin (s : State) : Host.Outcome State Fault Refusal :=
  grpInstr s false fun c =>
    match topEntry c.grp c.k with
    | none => .retire s
    | some i =>
      match c.grp.serial[i]? with
      | none => .retire s
      | some e =>
        if e.running then
          .retire (busyGrp (modGrp s c.core c.g fun r =>
            { setSpl r c.k { c.spl with lanes := c.spl.lanes ||| e.lanes, uniform := 1 } with
              serial := r.serial.eraseIdx i }) c 6)
        else
          .jump (busyGrp (modGrp s c.core c.g fun r =>
            { setSpl r c.k { c.spl with lanes := e.lanes, pc := e.pc, uniform := 1 } with
              serial := r.serial.set i { e with pc := c.spl.pc, lanes := c.spl.lanes, running := true } }) c 6)

/-- The group exits when no split and no serial entry remains: it leaves its barriers (07 R163, R185). -/
def settleExit (s : State) (c : GC) : State :=
  match getGrp s c.core c.g with
  | some r =>
    if r.splits.isEmpty && r.serial.isEmpty then
      leaveAll (modGrp s c.core c.g fun r => { r with run := .exited }) c.core (.grp c.g)
    else s
  | none => s

/-- EXIT (07 R185). -/
def execExit (s : State) : Host.Outcome State Fault Refusal :=
  grpInstr s false fun c =>
    match (topEntry c.grp c.k).bind fun i => (c.grp.serial[i]?).map fun e => (i, e) with
    | some (i, e) =>
      .jump (busyGrp (modGrp s c.core c.g fun r =>
        { setSpl r c.k { c.spl with lanes := e.lanes, pc := if e.running then e.pc + 4 else e.pc, uniform := 1 } with
          serial := r.serial.eraseIdx i }) c 6)
    | none => .jump (settleExit (modGrp s c.core c.g fun r => { r with splits := tdel c.k r.splits }) c)

/-- YIELD (07 R186): the group leaves its active set. -/
def execYield (s : State) : Host.Outcome State Fault Refusal :=
  grpInstr s false fun c => .retire (modGrp s c.core c.g fun r => { r with run := .ready, age := s.clk.cycle })

/-! ## Declared loops -/

/-- A loop opens (07 R189): level, count register, stages, end offset in words; op is LOOPS when staged. -/
def openLoop (s : State) (lvl vc stages : Nat) (off : Nat) (staged : Bool) : Host.Outcome State Fault Refusal :=
  grpInstr s false fun c =>
    if regsPending s c [vc] then .hold 2
    else
      let d := c.spl.levels.length
      let end_ := c.spl.pc + BitVec.ofNat 32 (4 * off)
      let n := firstLane c vc
      let outer := match c.spl.levels.getLast? with
        | some lv => !(c.spl.pc.toNat + 4 ≤ end_.toNat && end_.toNat ≤ lv.stop.toNat)
        | none => false
      -- R73: the register's range, then uniformity, then the instruction's own faults
      chk [(off = 0, cILLEGAL), (outOfRange c vc 1, cREG_RANGE), (regMixed c vc, cUNIFORMITY), bankCheck c 0 [vc],
        (lvl ≠ d, cLOOP_NEST), (outer, cLOOP_NEST), (staged && (stagedLevel c.spl).isSome, cLOOP_NEST)] <|
      let busy (s : State) : State := onSplit s c fun x => { x with busyUntil := s.clk.cycle + 3, busyFor := 16 }
      if n = 0 then .jump (busy (onSplit s c fun x => { x with pc := end_ + 4, armBase := 0, armSize := 0 }))
      else
        .retire (busy <| onSplit s c fun x =>
          { x with
            levels := x.levels ++ [{ count := n, start := c.spl.pc + 4, stop := end_, iter := 0, stages := stages
                                     wbase := x.armBase, wsize := x.armSize, woff := 0 }]
            armBase := 0, armSize := 0 })

/-- LOOP (07 R189). -/
def execLoop (l : BitVec 2) (v : BitVec 7) (e : BitVec 15) (s : State) : Host.Outcome State Fault Refusal :=
  openLoop s l.toNat v.toNat 1 e.toNat false

/-- LOOPS (07 R189). -/
def execLoops (l : BitVec 2) (v : BitVec 7) (n : BitVec 2) (e : BitVec 13) (s : State) :
    Host.Outcome State Fault Refusal :=
  openLoop s l.toNat v.toNat (n.toNat + 1) e.toNat true

/-- ROT (07 R192): its register field is never translated. -/
def execRot (b n : BitVec 7) (s : State) : Host.Outcome State Fault Refusal :=
  grpInstr s true fun c =>
    let k := (imm7 (grpLit c) n).toInt
    let v := b.toNat
    let h := c.blk.hdr
    chk [(k < 1 || 32 < k, cILLEGAL), (declared h < v + k.toNat, cREG_RANGE), (v < h.nu + h.na, cSHAPE),
      (c.spl.levels.length = 4, cLOOP_NEST),
      (c.spl.levels.any fun lv => overlap v k.toNat lv.wbase lv.wsize, cLOOP_NEST)] <|
    .retire (onSplit s c fun x => { x with armBase := v, armSize := k.toNat })

/-- LBRK (07 R193). The pseudocode of 07 R193 raises LOOP_NEST before it looks at the guard, and lets a guard that holds in some
lanes divide the split, though 07 R182 lists the guard among those compared and 03 R73 suppresses an own fault under a guard
that holds nowhere: the instruction's own description is followed (log entry 118). -/
def execLbrk (g : BitVec 3) (s : State) : Host.Outcome State Fault Refusal :=
  grpInstr s false fun c =>
    let l := guarded c g.toNat
    match c.spl.levels.getLast? with
    | none => .fault { code := cLOOP_NEST }
    | some lv =>
      if l = 0 then .retire s
      else if l = c.spl.lanes then
        .jump (busyGrp (modGrp s c.core c.g fun r =>
          let (r, x) := popLevel r c.k c.spl lv
          let (r, x) := match x.levels.getLast? with
            | some up => if up.stop = lv.stop then backEdge 4 r c.k x else (r, x)
            | none => (r, x)
          setSpl r c.k x) c 6)
      else match freeSplit c.grp with
        | some j =>
          .retire (busyGrp (c := c) (n := 6) <| modGrp s c.core c.g fun r =>
            let x := bareSplit c
            let r := setSpl r c.k { x with lanes := c.spl.lanes &&& ~~~ l, clause := none }
            let y := { x with lanes := l, pc := lv.stop + 4, levels := x.levels.dropLast, armBase := 0, armSize := 0
                              clause := none }
            let (r, y) := match y.levels.getLast? with
              | some up => if up.stop = lv.stop then backEdge 4 r j y else (r, y)
              | none => (r, y)
            setSpl r j y)
        | none =>
          chk [(8 ≤ c.grp.serial.length, cDIVERGENCE)] <|
          .retire (busyGrp (modGrp s c.core c.g fun r =>
            { setSpl r c.k { c.spl with lanes := c.spl.lanes &&& ~~~ l, uniform := 1, clause := none } with
              serial := r.serial ++ [{ pc := lv.stop + 4, owner := c.k, lanes := l, running := false }] }) c 6)

/-! ## Hints (03 R77 to R81) -/

/-- A prefix joins the unit: the thread goes on to the next word without ending the unit. -/
def joinUnit (p : Pre) (pc : Word) : Pre := { p with start := some (unitStart p pc) }

/-- A word of a unit that is a prefix of it: it is counted, and the unit goes on (03 R77, R78). -/
def prefixWord (s : State) (dup : Pre → Bool) (add : Pre → Pre) : Host.Outcome State Fault Refusal :=
  instr s true
    (some fun c =>
      chk [(dup c.spl.pre, cILLEGAL)] <|
      .whole (modGrp s c.core c.g fun r =>
        { r with issued := r.issued + 1
                 splits := tmod c.k (fun x =>
                   { x with pre := joinUnit (add x.pre) c.spl.pc, pc := c.spl.pc + 4
                            clause := clauseTick x.clause, held := 0 }) r.splits }))
    (some fun c =>
      chk [(dup c.blk.fe.pre, cILLEGAL)] <|
      .whole (modFe s c.core fun e =>
        { e with pre := joinUnit (add e.pre) c.blk.fe.pc, pc := c.blk.fe.pc + 4, issued := e.issued + 1
                 clause := clauseTick e.clause, held := 0 }))

/-- LIT (03 R77, R79). -/
def execLit (p : BitVec 24) (s : State) : Host.Outcome State Fault Refusal :=
  prefixWord s (fun x => x.lit.isSome) fun x => { x with lit := some p }

/-- MOD (03 R77, R80). -/
def execMod (n sat : BitVec 1) (r : BitVec 2) (s : State) : Host.Outcome State Fault Refusal :=
  prefixWord s (fun x => x.mod.isSome) fun x => { x with mod := some ((0 : BitVec 20) ++ n ++ sat ++ r) }

/-- The clause a CLAUSE opens (03 R78). -/
def newClause (l a b : BitVec 4) : Clause := { left := l.toNat, flagA := a, flagB := b, first := true }

/-- CLAUSE (03 R78). The clause counts the words after it. -/
def execClause (w : BitVec 12) (l a b : BitVec 4) (s : State) : Host.Outcome State Fault Refusal :=
  instr s false
    (some fun c =>
      chk [(l = 0, cILLEGAL)] <|
      if flagsUp c.grp.flags w then .whole (onSplit s c fun x => { x with
          held := 1, heldAt := s.clk.cycle, since := if x.held = 1 then x.since else s.clk.cycle, waitMask := w })
      else .retire (onSplit s c fun x => { x with clause := some { newClause l a b with left := l.toNat + 1 } }))
    (some fun c =>
      chk [(l = 0, cILLEGAL)] <|
      if flagsUp c.blk.fe.flags w then .hold 1
      else .retire (modFe s c.core fun e => { e with clause := some { newClause l a b with left := l.toNat + 1 } }))

/-- PRIO (03 R81); a no-op on the front-end. -/
def execPrio (l : BitVec 2) (s : State) : Host.Outcome State Fault Refusal :=
  instr s false
    (some fun c => .retire (modGrp s c.core c.g fun r => { r with prio := if l = 3 then 0 else l }))
    (some fun _ => .retire s)

/-- A word of the defined hint region: a no-op of one issue slot (03 R75). A LIT before it is misplaced (03 R77). -/
def execDefinedHint (_ : BitVec 32) (s : State) : Host.Outcome State Fault Refusal :=
  instr s false (some fun _ => .retire s) (some fun _ => .retire s)

/-- A word that is no instruction raises ILLEGAL (03 R75). -/
def execIllegalEncoding (_ : BitVec 32) (s : State) : Host.Outcome State Fault Refusal :=
  instr s true (some fun _ => .fault { code := cILLEGAL }) (some fun _ => .fault { code := cILLEGAL })

end Sys2Proof.Machine
end

