-- ==== Sys2Proof/Machine/Numbers.lean ====
section
/-! DEFINITION. Number formats and exact arithmetic (02 R32 to R51, R56): the value of a code, exact sums and products,
and one rounding of an exact rational into a format. -/
namespace Sys2Proof.Machine

/-! ## Formats (02 R32, R33) -/

/-- What the codes with the highest exponents mean. -/
inductive Specials where
  /-- Infinity and NaN in the highest exponent. -/
  | ieee
  /-- One NaN code of each sign, no infinity. -/
  | nanOnly
  /-- Neither. -/
  | none
  deriving DecidableEq, Repr

/-- A binary format: exponent bits, mantissa bits, bias, special codes. -/
structure Fmt where
  e : Nat
  m : Nat
  bias : Nat
  sp : Specials
  deriving DecidableEq, Repr

def f32 : Fmt := ⟨8, 23, 127, .ieee⟩
def f16 : Fmt := ⟨5, 10, 15, .ieee⟩
def bf16 : Fmt := ⟨8, 7, 127, .ieee⟩
def e4m3 : Fmt := ⟨4, 3, 7, .nanOnly⟩
def e5m2 : Fmt := ⟨5, 2, 15, .ieee⟩
def e3m2 : Fmt := ⟨3, 2, 3, .none⟩
def e2m3 : Fmt := ⟨2, 3, 1, .none⟩
def e2m1 : Fmt := ⟨2, 1, 1, .none⟩

/-- Bits of a code without its sign. -/
def magBits (f : Fmt) : Nat := f.e + f.m

/-- The code of the greatest finite magnitude. -/
def maxCode (f : Fmt) : Nat :=
  match f.sp with
  | .ieee => (2 ^ f.e - 1) * 2 ^ f.m - 1
  | .nanOnly => 2 ^ magBits f - 2
  | .none => 2 ^ magBits f - 1

/-- The code of infinity (ieee formats). -/
def infCode (f : Fmt) : Nat := (2 ^ f.e - 1) * 2 ^ f.m

/-- The canonical NaN (02 R34); a format without NaN has +0 in its place (02 R47). -/
def nanCode (f : Fmt) : Nat :=
  match f.sp with
  | .ieee => infCode f + 2 ^ (f.m - 1)
  | .nanOnly => 2 ^ magBits f - 1
  | .none => 0

/-- A code with its sign. -/
def withSign (f : Fmt) (neg : Bool) (c : Nat) : Nat := if neg then c + 2 ^ magBits f else c

/-- A value: NaN (signalling or not), an infinity, or man × 2^exp with a sign, which a zero keeps. -/
inductive Val where
  | nan (sig : Bool)
  | inf (neg : Bool)
  | num (neg : Bool) (man : Nat) (exp : Int)
  deriving DecidableEq, Repr

/-- The value of a code (02 R32, R33, R34). -/
def valOf (f : Fmt) (c : Nat) : Val :=
  let neg := bitOf c (magBits f)
  let e := bitsOf c (magBits f - 1) f.m
  let m := c % 2 ^ f.m
  if f.sp = .ieee && e = 2 ^ f.e - 1 then
    if m = 0 then .inf neg else .nan (f.m ≥ 7 && !bitOf m (f.m - 1))
  else if f.sp = .nanOnly && c % 2 ^ magBits f = nanCode f then .nan false
  else if e = 0 then .num neg m (1 - (f.bias : Int) - f.m)
  else .num neg (2 ^ f.m + m) ((e : Int) - f.bias - f.m)

/-! ## Flags (02 R45) -/

def fNV : BitVec 5 := 1
def fDZ : BitVec 5 := 2
def fOF : BitVec 5 := 4
def fUF : BitVec 5 := 8
def fIX : BitVec 5 := 16

/-- A flag or none. -/
def flagIf (b : Bool) (f : BitVec 5) : BitVec 5 := if b then f else 0

/-! ## Rounding -/

/-- How a result is rounded: mode (0 RNE, 1 RZ, 2 RU, 3 RD), saturate, non-saturating FP8 (02 R41, R43). -/
structure Rnd where
  mode : Nat := 0
  sat : Bool := false
  nsf8 : Bool := false

/-- RNE with no modifier. -/
def rne : Rnd := {}

/-- Whether n/d, whose floor is k, rounds up to k + 1 (02 R41). -/
def roundUp (mode : Nat) (neg : Bool) (k r d : Nat) : Bool :=
  match mode with
  | 0 => d < 2 * r || (2 * r = d && k % 2 = 1)
  | 1 => false
  | 2 => !neg && 0 < r
  | _ => neg && 0 < r

/-- n/d rounded to an integer, and whether that was exact. -/
def roundNat (mode : Nat) (neg : Bool) (n d : Nat) : Nat × Bool :=
  let k := n / d
  let r := n % d
  (if roundUp mode neg k r d then k + 1 else k, r = 0)

/-- 2^k of a possibly negative exponent, as numerator and denominator. -/
def pow2Frac (k : Int) : Nat × Nat := if 0 ≤ k then (2 ^ k.toNat, 1) else (1, 2 ^ (-k).toNat)

/-- floor(log2(n/d)) for positive n and d. -/
def log2Frac (n d : Nat) : Int :=
  let g : Int := (Nat.log2 n : Int) - Nat.log2 d
  let p := pow2Frac g
  if n * p.2 < d * p.1 then g - 1 else g

/-- n/d rounded to a multiple of 2^q: the multiple, and whether that was exact. -/
def roundAt (mode : Nat) (neg : Bool) (n d : Nat) (q : Int) : Nat × Bool :=
  let p := pow2Frac q
  roundNat mode neg (n * p.2) (d * p.1)

/-- The code of an overflowed result (02 R43, R47). -/
def overflowCode (f : Fmt) (r : Rnd) (neg : Bool) : Nat :=
  match f.sp with
  | .nanOnly => if r.nsf8 then nanCode f else withSign f neg (maxCode f)
  | .none => withSign f neg (maxCode f)
  | .ieee =>
    let toInf := match r.mode with
      | 0 => true
      | 1 => false
      | 2 => !neg
      | _ => neg
    withSign f neg (if toInf && !r.sat then infCode f else maxCode f)

/-- An exact nonnegative rational with a sign, rounded once into a format, with the flags OF, UF and IX (02 R43 to
R47). -/
def roundTo (f : Fmt) (r : Rnd) (neg : Bool) (n d : Nat) : Nat × BitVec 5 :=
  if n = 0 then (withSign f neg 0, 0)
  else
    let g := log2Frac n d
    let emin : Int := 1 - f.bias
    let q : Int := max g emin - f.m
    let (k, exact) := roundAt r.mode neg n d q
    let code := (q - (emin - f.m)).toNat * 2 ^ f.m + k
    if maxCode f < code then (overflowCode f r neg, fOF ||| fIX)
    else
      -- tiny after rounding with an unbounded exponent (02 R44)
      let (k', _) := roundAt r.mode neg n d (g - f.m)
      let p := pow2Frac (g - f.m - emin)
      let tiny := k' * p.1 < p.2
      (withSign f neg code, flagIf (!exact) fIX ||| flagIf (tiny && !exact) fUF)

/-- man × 2^exp as a fraction. -/
def fracOf (man : Nat) (exp : Int) : Nat × Nat := let p := pow2Frac exp; (man * p.1, p.2)

/-- A dyadic number, signed, rounded into a format. -/
def roundDyadic (f : Fmt) (r : Rnd) (neg : Bool) (man : Nat) (exp : Int) : Nat × BitVec 5 :=
  let q := fracOf man exp
  roundTo f r neg q.1 q.2

/-! ## Exact sums (02 R56) -/

/-- The opposite of a value. -/
def negVal : Val → Val
  | .nan s => .nan s
  | .inf n => .inf (!n)
  | .num n m e => .num (!n) m e

/-- A term of an exact sum, and whether it is invalid in itself: 0 × ∞ or a signalling NaN (02 R56). -/
structure Term where
  v : Val
  nv : Bool

/-- An operand as a term. -/
def termOf (v : Val) : Term := ⟨v, v = .nan true⟩

/-- The product of two operands as a term (02 R56). -/
def termMul (a b : Val) : Term :=
  match a, b with
  | .nan x, .nan y => ⟨.nan false, x || y⟩
  | .nan x, _ => ⟨.nan false, x⟩
  | _, .nan y => ⟨.nan false, y⟩
  | .inf n, .inf n' => ⟨.inf (n != n'), false⟩
  | .inf n, .num n' m _ => if m = 0 then ⟨.nan false, true⟩ else ⟨.inf (n != n'), false⟩
  | .num n m _, .inf n' => if m = 0 then ⟨.nan false, true⟩ else ⟨.inf (n != n'), false⟩
  | .num n m e, .num n' m' e' => ⟨.num (n != n') (m * m') (e + e'), false⟩

/-- The opposite of a term. -/
def termNeg (t : Term) : Term := ⟨negVal t.v, t.nv⟩

/-- The least exponent of the finite terms. -/
def minExp (ts : List Term) : Int :=
  ts.foldl (fun x t => match t.v with
    | .num _ _ e => min x e
    | _ => x) 0

/-- The exact sum of the finite terms, in units of 2^e. -/
def sumAt (e : Int) (ts : List Term) : Int :=
  ts.foldl (fun x t => match t.v with
    | .num n m e' => let k : Int := m * 2 ^ (e' - e).toNat; if n then x - k else x + k
    | _ => x) 0

/-- An exact sum rounded once (02 R56, 09 R224, R225). -/
def sumRound (f : Fmt) (r : Rnd) (ts : List Term) : Nat × BitVec 5 :=
  let pos := ts.any fun t => t.v = .inf false
  let neg := ts.any fun t => t.v = .inf true
  let nan := ts.any fun t => match t.v with
    | .nan _ => true
    | _ => false
  let nv := ts.any Term.nv || (pos && neg)
  if nan || (pos && neg) then (nanCode f, flagIf nv fNV)
  else if pos then (infCode f, flagIf nv fNV)
  else if neg then (withSign f true (infCode f), flagIf nv fNV)
  else
    let e := minExp ts
    let x := sumAt e ts
    if x = 0 then
      let allNeg := ts.all fun t => match t.v with
        | .num n m _ => n && m = 0
        | _ => false
      let allPos := ts.all fun t => match t.v with
        | .num n m _ => !n && m = 0
        | _ => false
      (withSign f (allNeg || (!allPos && r.mode = 3)) 0, 0)
    else roundDyadic f r (x < 0) x.natAbs e

/-! ## Conversions (02 R46 to R48) -/

/-- A value converted to a floating format (02 R46, R47). -/
def convertVal (f : Fmt) (r : Rnd) (v : Val) : Nat × BitVec 5 :=
  match v with
  | .nan sig => (nanCode f, match f.sp with
      | .none => fNV
      | _ => flagIf sig fNV)
  | .inf neg =>
    match f.sp with
    | .none => (withSign f neg (maxCode f), fNV)
    | .nanOnly => (if r.nsf8 then nanCode f else withSign f neg (maxCode f), fNV)
    | .ieee => if r.sat && f = e5m2 then (withSign f neg (maxCode f), fNV) else (withSign f neg (infCode f), 0)
  | .num neg m e => roundDyadic f r neg m e

/-- A rational rounded to an integer of a range: out of range gives the nearest bound and NV (02 R48). -/
def intRound (mode : Nat) (lo hi : Int) (neg : Bool) (n d : Nat) : Int × BitVec 5 :=
  let (k, exact) := roundNat mode neg n d
  let x : Int := if neg then -k else k
  if x < lo then (lo, fNV) else if hi < x then (hi, fNV) else (x, flagIf (!exact) fIX)

/-- A value converted to an integer of a range (02 R48). -/
def convertInt (mode : Nat) (lo hi : Int) (v : Val) : Int × BitVec 5 :=
  match v with
  | .nan _ => (0, fNV)
  | .inf neg => (if neg then lo else hi, fNV)
  | .num neg m e => let q := fracOf m e; intRound mode lo hi neg q.1 q.2

/-! ## Roots (02 R60) -/

/-- The integer square root, bit by bit from bit i down. -/
def isqrtAux (x : Nat) : Nat → Nat → Nat
  | 0, r => r
  | i + 1, r => let t := r + 2 ^ i; isqrtAux x i (if t * t ≤ x then t else r)

/-- The integer square root. -/
def isqrt (x : Nat) : Nat := isqrtAux x (Nat.log2 x / 2 + 1) 0

/-- A result known as its floor in units of 2^-k, and whether it is exact: rounding is the same as for the result
itself, whose breakpoints are multiples of the unit. -/
def roundSticky (f : Fmt) (neg : Bool) (t k : Nat) (exact : Bool) : Nat × BitVec 5 :=
  roundTo f rne neg (2 * t + if exact then 0 else 1) (2 ^ (k + 1))

/-- The square root of man × 2^exp. -/
def sqrtRound (f : Fmt) (man : Nat) (exp : Int) : Nat × BitVec 5 :=
  let x := man * 2 ^ (exp + 400).toNat
  let t := isqrt x
  roundSticky f false t 200 (t * t = x)

/-- The reciprocal square root of man × 2^exp. -/
def rsqrtRound (f : Fmt) (man : Nat) (exp : Int) : Nat × BitVec 5 :=
  let y := 2 ^ (400 - exp).toNat
  let t := isqrt (y / man)
  roundSticky f false t 200 (t * t * man = y)

/-! ## Series in fixed point, 320 bits after the point (log entry 6) -/

/-- The unit of the series. -/
def fixOne : Int := 2 ^ 320

/-- The sum over odd k of u / (k × sq^j), alternating when alt: atan or atanh of a reciprocal. -/
def oddSeries (alt : Bool) (sq : Int) : Nat → Nat → Int → Int → Int
  | 0, _, _, acc => acc
  | n + 1, k, u, acc =>
    let t := u / (k : Int)
    oddSeries alt sq n (k + 2) (u / sq) (if alt && k % 4 = 3 then acc - t else acc + t)

/-- π. -/
def fixPi : Int :=
  16 * oddSeries true 25 75 1 (fixOne / 5) 0 - 4 * oddSeries true 57121 25 1 (fixOne / 239) 0

/-- atanh of a fraction in fixed point: the sum of z^k / k over odd k. -/
def atanhSeries (z2 : Int) : Nat → Nat → Int → Int → Int
  | 0, _, _, acc => acc
  | n + 1, k, u, acc => atanhSeries z2 n (k + 2) (u * z2 / fixOne) (acc + u / (k : Int))

/-- ln of a number from 1 to 2 in fixed point. -/
def fixLn (x : Int) : Int :=
  let z := (x - fixOne) * fixOne / (x + fixOne)
  2 * atanhSeries (z * z / fixOne) 110 1 z 0

/-- ln 2. -/
def fixLn2 : Int := fixLn (2 * fixOne)

/-- e^y by its series. -/
def expSeries (y : Int) : Nat → Nat → Int → Int → Int
  | 0, _, _, acc => acc
  | n + 1, k, u, acc => expSeries y n (k + 1) (u * y / fixOne / (k : Int)) (acc + u)

/-- 2^x for x from 0 to 1. -/
def fixExp2 (x : Int) : Int := expSeries (x * fixLn2 / fixOne) 90 1 fixOne 0

/-- sin y by its series. -/
def sinSeries (y2 : Int) : Nat → Nat → Int → Int → Int
  | 0, _, _, acc => acc
  | n + 1, k, u, acc => sinSeries y2 n (k + 2) (-(u * y2 / fixOne) / ((k + 1) * (k + 2) : Nat)) (acc + u)

/-- sin(π p/q) in fixed point. -/
def fixSinPi (p q : Nat) : Int :=
  let p := p % (2 * q)
  let neg := q ≤ p
  let p := if neg then p - q else p
  let p := if q < 2 * p then q - p else p
  let y := fixPi * (p : Int) / (q : Int)
  let v := sinSeries (y * y / fixOne) 50 1 y 0
  if neg then -v else v

/-- A fixed-point result that is not exact, rounded (log entry 6). -/
def roundFix (f : Fmt) (v : Int) : Nat × BitVec 5 := roundSticky f (v < 0) v.natAbs 320 false

end Sys2Proof.Machine
end

