-- ==== Sys2Proof/Machine/Pool.lean ====
section
/-! DEFINITION. Pool memory: addresses (01 R23, R24), the accesses a port performs (10 R247 to R252), atomics (11
R280), watchpoints and the scope checker at the port (17 R409, R419), and what waits for a release (10 R249, R260). -/
namespace Sys2Proof.Machine

/-! ## Addresses -/

/-- The core and offset that n bytes at a pool address name, when the address is legal for a block on a core (01 R23,
R24). -/
def poolTarget (s : State) (core : Nat) (a : Word) (n : Nat) : Option (Nat × Nat) :=
  match getBlk s core, coreCluster s core with
  | some me, some cl =>
    let v := a.toNat
    let off := v % 2 ^ 19
    let fits (c : Nat) : Option (Nat × Nat) :=
      match getBlk s c with
      | some b => if b.ctx = me.ctx && off + n ≤ b.hdr.pool then some (c, off) else none
      | none => none
    if v < 2 ^ 31 then
      let m := v / 2 ^ 19
      if m < 12 && m < cl.w * cl.h then fits (memberCore cl m) else none
    else
      let c := v / 2 ^ 19 % 2 ^ 8
      if bitsOf v 30 27 = 0 && c < 192 && !(getCore s c).removed then fits c else none
  | _, _ => none

/-! ## Bytes and full-empty bits -/

/-- n bytes of a pool. -/
def poolBytes (s : State) (c off n : Nat) : List Byte := (List.range n).map fun i => tgetD 0 (off + i) (getCore s c).pool

/-- n bytes of a pool as a number. -/
def poolRead (s : State) (c off n : Nat) : BitVec 128 := BitVec.ofNat 128 (bytesNat (poolBytes s c off n))

/-- Put bytes into a pool memory, ascending. -/
def putBytes (m : List Host.Cell) (off : Nat) : List Byte → List Host.Cell
  | [] => m
  | b :: r => putBytes (tputD 0 off b m) (off + 1) r

/-- Write bytes of a pool; words rewritten whole lose their error (18 R428). -/
def poolPut (s : State) (c off : Nat) (bs : List Byte) : State :=
  clearBad (modCore s c fun k => { k with pool := putBytes k.pool off bs }) (poolNum c off) bs.length

/-- The granules that n bytes touch. -/
def granules (off n : Nat) : List Nat :=
  (List.range ((off + n + 15) / 16 - off / 16)).map fun i => off / 16 + i

/-- Every touched granule is full (10 R250). -/
def granulesFull (s : State) (c off n : Nat) : Bool := (granules off n).all fun g => tgetD false g (getCore s c).full

/-- Set or clear the full-empty bits of the touched granules (10 R250). -/
def setFull (s : State) (c off n : Nat) (v : Bool) : State :=
  modCore s c fun k => { k with full := (granules off n).foldl (fun t g => tputD false g v t) k.full }

/-! ## Atomics (11 R280, R281) -/

/-- .add.f32: the exact sum rounded to nearest even (11 R281). -/
def addF32 (m b : Word) : Word :=
  BitVec.ofNat 32 (sumRound f32 rne [termOf (valOf f32 m.toNat), termOf (valOf f32 b.toNat)]).1

/-- The new value of an atomic from its old value and operands. -/
def atomicNew (op : BitVec 4) (m b b' : DWord) : DWord :=
  let lo (x : DWord) : Word := x.truncate 32
  let up (x : Word) : DWord := x.zeroExtend 64
  match op.toNat with
  | 0x0 => up (lo m + lo b)
  | 0x1 => up (lo m &&& lo b)
  | 0x2 => up (lo m ||| lo b)
  | 0x3 => up (lo m ^^^ lo b)
  | 0x4 => up (if (lo m).toInt ≤ (lo b).toInt then lo m else lo b)
  | 0x5 => up (if (lo m).toNat ≤ (lo b).toNat then lo m else lo b)
  | 0x6 => up (if (lo b).toInt ≤ (lo m).toInt then lo m else lo b)
  | 0x7 => up (if (lo b).toNat ≤ (lo m).toNat then lo m else lo b)
  | 0x8 => up (lo b)
  | 0x9 => up (if lo m = lo b then lo b' else lo m)
  | 0xA => up (addF32 (lo m) (lo b))
  | 0xB => m + b
  | 0xC => b
  | _ => if m = b then b' else m

/-- Bytes of an atomic's word. -/
def atomicSize (op : BitVec 4) : Nat := if 0xB ≤ op.toNat then 8 else 4

/-! ## Watchpoints and the scope checker -/

/-- The scope of a SCOPE field, in the order of 10 R244 (11 R271). -/
def scopeCode (q : BitVec 2) : Nat := q.toNat + 3

/-- The thread's handle, as its requests carry it (17 R415). -/
def threadHandle (s : State) (t : Thread) : Word := ((getBlk s t.core).map fun b => handleOf b t.core t.who).getD 0

/-- The mark of a release of a core at a scope (17 R419). -/
def scopeTag (s : State) (q : BitVec 2) (core : Nat) : ScopeTag :=
  { scope := BitVec.ofNat 3 (scopeCode q), core := core, cluster := ((getBlk s core).map Block.cluster).getD 0
    ctx := ((getBlk s core).map Block.ctx).getD 0 }

/-- A core lies in the scope instance of a releaser at the scope of its mark (10 R244): cluster 3, die 4, package 5, system
6. -/
def inScope (s : State) (t : ScopeTag) (core : Nat) : Bool :=
  match getBlk s core with
  | some b => (match t.scope.toNat with
    | 3 => b.cluster = t.cluster
    | 4 => b.ctx = t.ctx && coreDie core = coreDie t.core
    | _ => b.ctx = t.ctx)
  | none => false

/-- Whether SCOPECHK is set (17 R405). -/
def scopeChk (s : State) : Bool := s.dbg.dctl.getLsbD 1

/-- A scope-mismatch record of an acquirer that reads a tag outside the releaser's scope instance (17 R419). -/
def scopeRecord (s : State) (src : Thread) (pc : Word) (addr kind : Nat) (tag : ScopeTag) : State :=
  match getBlk s src.core with
  | some b => ringAppend s (debugBytes s src.core b 5 0 0xFFFF s.clk.gts (handleOf b src.core src.who)
      (BitVec.ofNat 64 addr) pc (BitVec.ofNat 32 (src.core + kind * 256 + tag.scope.toNat * 4096 + tag.core * 65536)) 0 [])
  | none => s

/-! ## What waits for a release (10 R249, R260) -/

/-- Every earlier pool access of the thread has been performed; a full-empty wait takes its place when it ends (10
R243). -/
def poolPerformed (s : State) (t : Thread) : Bool := !s.flight.pool.any fun r => r.src = t && !r.arrived

/-- Every earlier global store and atomic of the thread has been acknowledged, or has faulted and been reported. -/
def globalsDone (s : State) (t : Thread) : Bool :=
  !s.flight.global.any fun r => r.thread = t && (match r.op with
    | .waitw _ => false
    | _ => true)

/-- A release of a group may be performed. -/
def grpReleases (s : State) (c : GC) : Bool :=
  poolPerformed s ⟨c.core, .grp c.g⟩ && globalsDone s ⟨c.core, .grp c.g⟩

/-- A release of the front-end may be performed: it waits for the global writes of its copy commands too (11 R292). -/
def feReleases (s : State) (core : Nat) : Bool :=
  poolPerformed s ⟨core, .fe⟩ && globalsDone s ⟨core, .fe⟩
    && (match getBlk s core with
        | some b => !b.copy.cmds.any fun k => k.op = 0xB4 || k.op = 0xB6
        | none => true)

/-! ## The port -/

/-- Change an instruction with pool accesses. -/
def modInst (s : State) (i : Nat) (f : PoolInst → PoolInst) : State :=
  modFlight s fun x => { x with poolInsts := x.poolInsts.map fun e => if e.id = i then f e else e }

/-- An instruction with pool accesses. -/
def getInst (s : State) (i : Nat) : Option PoolInst := s.flight.poolInsts.find? fun e => e.id = i

/-- The acquire of a group has been performed (07 R164, 10 R249). -/
def endAcquire (s : State) (t : Thread) (i : Nat) : State :=
  match t.who with
  | .grp g => modGrp s t.core g fun r => if r.acquire = some i then { r with acquire := none } else r
  | .fe => s

/-- One access of an instruction has ended: its value, or the code of an error (18 R428, 16 R385). -/
def informCode (s : State) (r : PoolReq) (v : Option (BitVec 128)) (err : Option Byte) : State :=
  let s := modInst s r.inst fun e =>
    { e with
      left := e.left - 1
      vals := match v with
        | some x => tput r.lane x e.vals
        | none => e.vals
      acks := if v.isNone && err.isNone && r.dst ≠ r.src.core then e.acks + 1 else e.acks
      ue := e.ue.orElse fun _ => err.map fun c => (c, BitVec.ofNat 32 (poolName r.dst r.off)) }
  match getInst s r.inst with
  | some e => if e.left = 0 then endAcquire s e.src e.id else s
  | none => s

/-- One access of an instruction has been performed: its value, or an uncorrectable error (18 R428). -/
def inform (s : State) (r : PoolReq) (v : Option (BitVec 128)) (ue : Bool) : State :=
  informCode s r v (if ue then some cDATA_UNCORRECTABLE else none)

/-- The scope checker at an acquire-qualified access: at most one record an instruction (17 R419). -/
def checkScope (s : State) (r : PoolReq) (n kind : Nat) : State :=
  if !scopeChk s || r.acquire.isNone then s
  else match getInst s r.inst, (granules r.off n).findSome? fun g => tfind g (getCore s r.dst).tags with
    | some e, some t =>
      if e.checked || inScope s t r.src.core then s
      else scopeRecord (modInst s r.inst fun e => { e with checked := true }) r.src r.pc (poolName r.dst r.off) kind t
    | _, _ => s

/-- A release-qualified access tags its granules (17 R419). -/
def tagScope (s : State) (r : PoolReq) (n : Nat) : State :=
  match r.release with
  | some q =>
    if scopeChk s then modCore s r.dst fun k =>
      { k with tags := (granules r.off n).foldl (fun t g => tput g (scopeTag s q r.src.core) t) k.tags }
    else s
  | none => s

/-- The first 8 of n bytes written, as a record shows them (17 R415). -/
def firstBytes (n : Nat) (data : DWord) : DWord := if 8 ≤ n then data else data &&& BitVec.ofNat 64 (2 ^ (8 * n) - 1)

/-- The watchpoints of the target core see an access at its port (17 R409). -/
def portWatch (s : State) (r : PoolReq) (kind n : Nat) (data : DWord) : State :=
  watchCheck s r.dst false kind r.off n r.src.core r.handle r.pc data

/-- A load is performed at the port; one with clear empties its granules in the same step (10 R250). -/
def portLoad (s : State) (r : PoolReq) (n : Nat) (clr : Bool) : State :=
  let ue := badIn s (poolNum r.dst r.off) n
  let v := poolRead s r.dst r.off n
  let s := if clr then setFull s r.dst r.off n false else s
  portWatch (inform (checkScope s r n 0) r (some v) ue) r 0 n 0

/-- The waiting full-empty loads of a port that are satisfied now: those without clear, then those with clear in the
order they arrived (10 R251). -/
def satisfyFe (s : State) (c : Nat) : State :=
  let waiting := s.flight.pool.filter fun r => r.dst = c && r.arrived
  let pick (clr : Bool) (s : State) (r : PoolReq) : State :=
    match r.op with
    | .loadFe n k =>
      if k = clr && granulesFull s c r.off n then
        portLoad (modFlight s fun f => { f with pool := f.pool.filter fun x => x.id ≠ r.id }) r n clr
      else s
    | _ => s
  foldSt (pick true) (foldSt (pick false) s waiting) waiting

/-- An access is performed at its port (10 R247, R250). A full-empty load that finds a granule empty waits there. -/
def portAccess (s : State) (r : PoolReq) : State :=
  match r.op with
  | .load n => portLoad s r n false
  | .loadFe n clr =>
    if granulesFull s r.dst r.off n then portLoad s r n clr
    else modFlight s fun f => { f with pool := f.pool ++ [{ r with arrived := true }] }
  | .store n data fill =>
    let s := poolPut s r.dst r.off (natBytes n data.toNat)
    let s := portWatch (inform (tagScope s r n) r none false) r 1 n (firstBytes n (data.truncate 64))
    if fill then satisfyFe (setFull s r.dst r.off n true) r.dst else s
  | .atomic op b b' =>
    let n := atomicSize op
    let ue := badIn s (poolNum r.dst r.off) n
    let m := poolRead s r.dst r.off n
    let s := if ue then s else poolPut s r.dst r.off (natBytes n (atomicNew op (m.truncate 64) b b').toNat)
    portWatch (inform (tagScope (checkScope s r n 2) r n) r (some m) ue) r 2 n (m.truncate 64)
  | .fillRange n set =>
    let s := portWatch (inform (setFull s r.dst r.off n set) r none false) r 1 n 0
    if set then satisfyFe s r.dst else s

/-! ## Issue -/

/-- Bytes an access touches. -/
def opBytes : PoolOp → Nat
  | .load n => n
  | .loadFe n _ => n
  | .store n _ _ => n
  | .atomic op _ _ => atomicSize op
  | .fillRange n _ => n

/-- An access returns a value. -/
def opReads : PoolOp → Bool
  | .load _ => true
  | .loadFe _ _ => true
  | .atomic _ _ _ => true
  | _ => false

/-- An access of an instruction: lane, target core and offset, and what it does. -/
abbrev Access := Nat × (Nat × Nat) × PoolOp

/-- Forget an instruction with pool accesses, and release its flag. -/
def endInst (s : State) (e : PoolInst) : State :=
  dropFlag (modFlight s fun f => { f with poolInsts := f.poolInsts.filter fun x => x.id ≠ e.id }) e.src e.flag

/-- A store whose accesses have all been performed and acknowledged is complete. -/
def closeInst (s : State) (id : Nat) : State :=
  match getInst s id with
  | some e => if e.use = .none && e.left = 0 && e.acks = 0 then endInst s e else s
  | none => s

/-- An access of the thread to its own pool is still on its way to the port (10 R248, 11 R295). -/
def ownPending (s : State) (t : Thread) : Bool := s.flight.pool.any fun r => r.src = t && r.dst = t.core && !r.arrived

/-- The access fills granules after the first 16 of a PFILL. -/
def laterFill (r : PoolReq) : Bool :=
  match r.op with
  | .fillRange _ _ => 0 < r.lane
  | _ => false

/-- The other dies that accesses go to, with the routes they take (01 R10). -/
def routesOf (s : State) (core : Nat) (l : List Access) : List (Nat × Bool) :=
  ((l.map fun a => coreDie a.2.1.1).eraseDups.filter (· ≠ coreDie core)).map fun d => (d, viaOf s (coreDie core) d)

/-- Put an instruction's record and its accesses on their way in ascending lane order: those to the own pool are
performed at issue, unless one of the thread is still on its way there or the pool is under test, and the others go to their
ports, as the later granules of a PFILL do (10 R247, R248, 11 R275, R295, 18 R426). -/
def issuePool (s : State) (e : PoolInst) (rel acq : Option (BitVec 2)) (l : List Access) : State :=
  let e := { e with left := l.length, entries := (l.filter fun a => opReads a.2.2 && a.2.1.1 ≠ e.src.core).length
                    routes := routesOf s e.src.core l }
  let s := modFlight s fun f => { f with poolInsts := f.poolInsts ++ [e] }
  let s := foldSt (fun s a =>
    let r : PoolReq := { id := nextId s, inst := e.id, src := e.src, dst := a.2.1.1, off := a.2.1.2, lane := a.1
                         op := a.2.2, pc := e.pc, release := rel, acquire := acq, handle := threadHandle s e.src }
    let s := bumpId s
    if r.dst = e.src.core && !ownPending s e.src && !laterFill r && !coreTested s 1 r.dst then portAccess s r
    else modFlight s fun f => { f with pool := f.pool ++ [r] }) s l
  closeInst s e.id

/-- The accesses of a PFILL, numbered as lanes: the port performs up to 16 granules a cycle (11 R295). -/
def fillPieces (core off n : Nat) (set : Bool) : List Access :=
  (List.range ((n + 255) / 256)).map fun i => (i, (core, off + 256 * i), .fillRange (min 256 (n - 256 * i)) set)

/-- Landing entries of a core in use (01 R28). -/
def landing (s : State) (core : Nat) : Nat :=
  (s.flight.poolInsts.filter fun e => e.src.core = core).foldl (fun n e => n + e.entries) 0

/-- The remote reads of an instruction find no landing entries free (01 R28). -/
def landingFull (s : State) (core : Nat) (l : List Access) : Bool :=
  let n := (l.filter fun a => opReads a.2.2 && a.2.1.1 ≠ core).length
  0 < n && 256 < landing s core + n

/-- A read of the own pool meets an uncorrectable error at issue: its address (18 R428). -/
def ownError (s : State) (core : Nat) (l : List Access) : Option Nat :=
  (l.find? fun a => opReads a.2.2 && a.2.1.1 = core && !coreTested s 1 core && badIn s (poolNum core a.2.1.2) (opBytes a.2.2)
    && (match a.2.2 with
        | .loadFe n _ => granulesFull s core a.2.1.2 n
        | _ => true)).map fun a => poolName core a.2.1.2

/-- No route leads to the core that a pool address names (01 R10). -/
def poolCut (s : State) (core : Nat) (a : Word) (n : Nat) : Bool :=
  (poolTarget s core a n).any fun t => !routeUp s (coreDie core) (coreDie t.1)

/-- The checks on lane addresses in the order of 11 R274: MISALIGN, then POOL_ADDR; each reports the lowest lane. A
request that finds no route is answered LINK_DOWN (01 R10). -/
def poolChecks (s : State) (core : Nat) (l : List (Nat × Word)) (align n : Nat) (k : Eff) : Eff :=
  match l.find? fun e => !aligned e.2.toNat align with
  | some e => .fault { code := cMISALIGN, addr := e.2.zeroExtend 64 }
  | none => match l.find? fun e => (poolTarget s core e.2 n).isNone with
    | some e => .fault { code := cPOOL_ADDR, addr := e.2.zeroExtend 64 }
    | none => match l.find? fun e => poolCut s core e.2 n with
      | some e => .fault { code := cLINK_DOWN, addr := e.2.zeroExtend 64 }
      | none => k

/-- The targets of checked lanes with what each does. -/
def targets (s : State) (core n : Nat) (l : List (Nat × Word)) (op : Nat → PoolOp) : List Access :=
  l.filterMap fun e => (poolTarget s core e.2 n).map fun t => (e.1, t, op e.1)

/-! ## The steps of accesses under way -/

/-- The cores hold blocks of one cluster, between which the cluster crossbar carries requests (01 R28). -/
def sameCluster (s : State) (a b : Nat) : Bool :=
  (getBlk s a).isSome && (getBlk s a).map Block.cluster = (getBlk s b).map Block.cluster

/-- The core of the thread that a handle names. -/
def handleCore (h : Word) : Nat := bitsOf h.toNat 7 0

/-- A message between objects goes from one core to another. -/
def msgBetween (s : State) (src dst : Nat) (m : BarMsg) : Bool :=
  (getCl s m.cluster).any fun cl => memberCore cl m.fromMember = src && memberCore cl m.toMember = dst

/-- The cluster crossbar, or a seam, has still to deliver a request that one core sent to another before a given one: a pool
access, a barrier operation or message, a service request, a claim of a multicast id, a credit, a stop (01 R16, R28). -/
def crossBefore (s : State) (src dst id : Nat) : Bool :=
  (sameCluster s src dst || coreDie src ≠ coreDie dst) && src ≠ dst
    && (s.flight.pool.any (fun e => !e.arrived && e.id < id && e.src.core = src && e.dst = dst)
      || s.flight.bars.any (fun e => e.reply.isNone && !e.read && e.id < id && e.src.core = src && e.dst = dst)
      || s.flight.barMsgs.any (fun m => m.id < id && msgBetween s src dst m)
      || s.flight.services.any (fun e => e.reply.isNone && e.id < id && e.src.core = src && handleCore e.handle = dst)
      || s.flight.mcids.any (fun m => m.id < id && m.src = src && m.core = dst)
      || s.flight.credits.any (fun m => m.id < id && m.src = src && m.core = dst)
      || s.flight.stops.any (fun m => m.id < id && m.src = src && m.core = dst))

/-- The dies between which a message stage travels inside the device, where both its ends are here: a header and the data go to
the receiver, a pull to the sender, a completion from its origin to the sender (16 R390 to R392). -/
def msgPath (s : State) (m : MsgFlight) : Option (Nat × Nat) :=
  let a := coreDie m.hdr.srcCore
  let b := coreDie m.dstCore
  if m.hdr.srcDev ≠ s.host.devnum || m.dstDev ≠ s.host.devnum then none
  else (match m.stage with
    | 0 => some (a, b)
    | 1 => some (b, a)
    | 2 => some (a, b)
    | 3 => m.origin.map fun o => (coreDie o, a)
    | _ => none).filter fun p => p.1 < 4 && p.2 < 4

/-- A request between two diagonal dies that was sent before a given one, over the other route, has not been acknowledged
yet (01 R10). -/
def otherRoute (s : State) (a b : Nat) (via : Bool) (id : Nat) : Bool :=
  diagonal a b
    && (s.flight.poolInsts.any (fun e => e.id < id && coreDie e.src.core = a && e.routes.contains (b, !via))
      || s.flight.bars.any (fun e => e.id < id && coreDie e.src.core = a && coreDie e.dst = b && e.via ≠ via)
      || s.flight.services.any (fun e => e.id < id && coreDie e.src.core = a && coreDie (handleCore e.handle) = b && e.via ≠ via)
      || s.flight.global.any (fun e => 0 < e.sent && e.sent < id && e.die = a && e.via ≠ via
          && (e.leaf.map fun l => homeDie l.place (physAddr l e.va)) = some b)
      || s.flight.recalls.any (fun e => e.id < id && e.home = a && e.owner = ownerOfDie b && e.via ≠ via)
      || s.flight.drains.any (fun e => e.id < id && e.home = a && e.owner = ownerOfDie b && e.via ≠ via)
      || s.flight.reads.any (fun e => e.id < id && e.die = a && e.via ≠ via && homeDie e.leaf.place (physAddr e.leaf e.va) = b)
      || s.flight.msgs.any fun e => e.id < id && msgPath s e = some (a, b) && e.via ≠ via)

/-- The route that an access takes between diagonal dies. -/
def poolVia (s : State) (r : PoolReq) : Bool :=
  (getInst s r.inst).any fun e => e.routes.contains (coreDie r.dst, true)

/-- What must come before an access: an earlier one of the thread to the same core (10 R248), an earlier barrier
operation of the thread there (14 R342), what its core has sent there before over the cluster's crossbar (01 R28), and a
change of its route (01 R10). -/
def portBefore (s : State) (r : PoolReq) : Bool :=
  s.flight.pool.any (fun e => !e.arrived && e.id < r.id && e.dst = r.dst && e.src = r.src)
    || s.flight.bars.any (fun e => e.reply.isNone && !e.read && e.id < r.id && e.dst = r.dst && e.src = r.src)
    || crossBefore s r.src.core r.dst r.id
    || otherRoute s (coreDie r.src.core) (coreDie r.dst) (poolVia s r) r.inst

/-- POOL_PORT_ACCESS (10 R247). It waits for a pool under test and a seam that is held (18 R426, 16 R383). -/
def execPoolPortAccess (id : Nat) (s : State) : Host.Outcome State Fault Refusal :=
  match s.flight.pool.find? fun r => r.id = id with
  | some r => event s (!r.arrived && !portBefore s r && !coreTested s 1 r.dst && !seamHeld s (coreDie r.src.core) (coreDie r.dst))
      (let s := portAccess (modFlight s fun f => { f with pool := f.pool.filter fun x => x.id ≠ id }) r
      if r.dst = r.src.core then closeInst s r.inst else s)
  | none => .next s

/-- The value a destination register takes from what was read: sign or zero extension of narrow reads, word j of wide
ones (11 R276). -/
def loadWord (e : PoolInst) (v : BitVec 128) (j : Nat) : Word :=
  match e.use, e.nbytes with
  | .load true, 1 => (v.truncate 8 : Byte).signExtend 32
  | .load true, 2 => (v.truncate 16 : BitVec 16).signExtend 32
  | _, _ => v.extractLsb' (32 * j) 32

/-- The value an SLDP writes (08 R202). -/
def scalarLoad (n : Nat) (sgn : Bool) (v : BitVec 128) : DWord :=
  if sgn && n < 8 then ((v.truncate 64 : DWord) <<< (64 - 8 * n)).sshiftRight (64 - 8 * n) else v.truncate 64

/-- Write what an instruction read into its destinations. -/
def landLoad (s : State) (e : PoolInst) : State :=
  match e.src.who, e.use with
  | .fe, .scalar sgn => writeS s e.src.core (e.dests.getD 0 0) (scalarLoad e.nbytes sgn (tgetD 0 0 e.vals))
  | .grp g, _ =>
    match getBlk s e.src.core with
    | some b => modGrp s e.src.core g fun r =>
        { r with regs := (List.range e.dests.length).foldl (fun t j =>
            putReg b.hdr t (e.dests.getD j 0) (lanesOf e.lanes) fun i =>
              loadWord e (tgetD 0 (if e.uniform then 0 else i) e.vals) j) r.regs }
    | none => s
  | _, _ => s

/-- What an error met after issue does to the thread (18 R428, 04 R95: imprecise). One that finds the thread faulted, exited or
killed is dropped without a record (log entry 139). -/
def lateError (s : State) (e : PoolInst) (code : Byte) (addr : Word) : State :=
  match e.src.who with
  | .fe =>
    if (getBlk s e.src.core).any fun b => b.fe.run = .faulted || b.fe.run = .exited || b.fe.run = .killed then s
    else feFault s e.src.core { code := code, addr := addr.zeroExtend 64 }
  | .grp g =>
    match getGrp s e.src.core g with
    | some r =>
      match tfind e.split r.splits with
      | some x =>
        if r.run = .faulted || r.run = .exited || r.run = .killed then s
        else groupFault s e.src.core g e.split 1 code e.pc (unitStart x.pre x.pc) (addr.zeroExtend 64)
          0xFFFF 0 0
      | none => s
    | none => s

/-- A seam on the way of the replies of an instruction is held (16 R383, 18 R426). -/
def repliesHeld (s : State) (e : PoolInst) : Bool := e.routes.any fun x => seamHeld s x.1 (coreDie e.src.core)

/-- The instruction reads into registers, and its reply is what completes it. -/
def loadsRegs : PoolUse → Bool
  | .load _ => true
  | .atomic => true
  | .scalar _ => true
  | _ => false

/-- POOL_LOAD_REPLY (11 R278). -/
def execPoolLoadReply (id : Nat) (s : State) : Host.Outcome State Fault Refusal :=
  match getInst s id with
  | some e => event s (e.left = 0 && loadsRegs e.use && !repliesHeld s e) (match e.ue with
      | some (c, a) => lateError (endInst s e) e c a
      | none => endInst (landLoad s e) e)
  | none => .next s

/-- REMOTE_STORE_ACK (11 R279): one store has been acknowledged; after the last the instruction is complete. -/
def execRemoteStoreAck (id : Nat) (s : State) : Host.Outcome State Fault Refusal :=
  match getInst s id with
  | some e => event s (0 < e.acks && !repliesHeld s e)
      (if e.left = 0 && e.acks = 1 && e.use = .none then (match e.ue with
          | some (c, a) => lateError (endInst s e) e c a
          | none => endInst s e)
        else modInst s id fun e => { e with acks := e.acks - 1 })
  | none => .next s

end Sys2Proof.Machine
end

