-- ==== Sys2Proof/Machine/Global.lean ====
section
/-! DEFINITION. Global memory: translation of requests (15 R363 to R365), visitor copies and registrations (10 R253 to
R259), releases and acquires (10 R260 to R262), and the steps a request takes to its home and back. -/
namespace Sys2Proof.Machine

/-! ## Requests -/

/-- A request under way. -/
def getReq (s : State) (id : Nat) : Option GlobalReq := s.flight.global.find? fun r => r.id = id

/-- Change a request. -/
def modReq (s : State) (id : Nat) (f : GlobalReq → GlobalReq) : State :=
  modFlight s fun x => { x with global := x.global.map fun r => if r.id = id then f r else r }

/-- Forget a request. -/
def dropReq (s : State) (id : Nat) : State :=
  modFlight s fun x => { x with global := x.global.filter fun r => r.id ≠ id }

/-- The physical address of a request's first byte; 0 before its translation. -/
def reqAddr (r : GlobalReq) : Nat := ((r.leaf.map fun l => physAddr l r.va)).getD 0

/-- The placement word of a request. -/
def reqPlace (r : GlobalReq) : Word := (r.leaf.map Leaf.place).getD 0

/-- The request stores and is no atomic and no comparison (10 R253). -/
def isStore : GlobalOp → Bool
  | .store => true
  | .relStore _ => true
  | .wake => true
  | .relWake _ => true
  | _ => false

/-- The request is the comparison of a WAITW. -/
def isCompare : GlobalOp → Bool
  | .waitw _ => true
  | _ => false

/-- Give up the comparisons and the registrations of a thread's WAITWs: it compares again (05 R145). -/
def forgetWaits (s : State) (t : Thread) : State :=
  let s := { s with dies := s.dies.map fun d => (d.1, { d.2 with waiters := d.2.waiters.filter fun w => w.thread ≠ t }) }
  modFlight s fun f => { f with global := f.global.filter fun r => !(r.thread = t && isCompare r.op) }

/-- The rights a request needs (15 R363): read, write. -/
def reqRights : GlobalOp → Bool × Bool
  | .atomic _ _ _ _ _ => (true, true)
  | .waitw _ => (true, false)
  | _ => (false, true)

/-- The scope of a request's release. -/
def reqRelease : GlobalOp → Option (BitVec 2)
  | .relStore q => some q
  | .relWake q => some q
  | .atomic _ _ _ true q => some q
  | _ => none

/-! ## Translation -/

/-- Begin a walk for a page, unless one is under way (15 R365). -/
def startWalk (s : State) (core ctx va : Nat) (keep : Bool) : State :=
  if s.flight.walks.any fun w => w.core = core && w.ctx = ctx && samePiece w.va va && w.res.isNone && w.keep = keep then s
  else bumpId (modFlight s fun f => { f with walks := f.walks ++
    [{ id := nextId s, core := core, ctx := ctx, va := va, keep := keep }] })

/-- The translation of an address as it stands: a leaf, a code, or not yet known (15 R363 to R365). -/
def peekLeaf (s : State) (core ctx va : Nat) : Option WalkRes :=
  if 2 ^ 56 ≤ va then some (.code cTRANSLATION)
  else match cachedLeaf s core ctx va with
    | some l => some (.leaf l)
    | none => (s.flight.walks.find? (walkDone core ctx va)).bind Walk.res

/-- Take the outcome of a walk that has ended. -/
def takeWalk (s : State) (core ctx va : Nat) : State :=
  modFlight s fun f => { f with walks := f.walks.filter fun w => !walkDone core ctx va w }

/-- A translation as a unit that waits for it asks again: a leaf, a code, or not yet (15 R363 to R365). -/
def askLeaf (s : State) (core ctx va : Nat) : State × Option WalkRes :=
  match peekLeaf s core ctx va with
  | some r => (takeWalk s core ctx va, some r)
  | none => (startWalk s core ctx va true, none)

/-! ## Visitor copies (10 R254, R255) -/

/-- A visitor line of a die, or one with every word INVALID. -/
def visitorOf (s : State) (d k : Nat) : VisitorLine := (tfind k (getDie s d).visitor).getD { data := 0 }

/-- The visitor lines of a die by key and way. -/
def visitorWaysOf (d : Die) : List (Nat × Nat) := d.visitor.map fun e => (e.1, e.2.way)

/-- Put a visitor line: in its way, in a free one of its set, or in that of a line that makes room (01 R16, R17, R20); one
with no valid word is not kept. -/
def putVisitor (s : State) (d k : Nat) (v : VisitorLine) : State :=
  let put (s : State) (w : Nat) : State := modDie s d fun x => { x with visitor := tput k { v with way := w } x.visitor }
  let ways := roleWays (getDie s d) (homeSlice (keyAddr k)) true
  if v.clean ||| v.owned = 0 then modDie s d fun x => { x with visitor := tdel k x.visitor }
  else match tfind k (getDie s d).visitor with
    | some old => put s old.way
    | none => match freeWay ways k (visitorWaysOf (getDie s d)) with
      | some w => put s w
      | none =>
        let l := setLines ways k (visitorWaysOf (getDie s d))
        match l[(freshValue s).toNat % l.length]? with
        | some e => put (evictVisitor (bumpFree s) d e.1) e.2
        | none => s

/-- Put a word into a line. -/
def lineSetWord (l : Line) (i : Nat) (w : Word) : Line :=
  (List.range 4).foldl (fun l j => lineSet l (4 * i + j) (w.extractLsb' (8 * j) 8)) l

/-- A word with some bytes replaced: (address in the line, lane, byte), in order. -/
def overlay (w : Word) (i : Nat) (bs : List (Nat × Nat × Byte)) : Word :=
  bs.foldl (fun w b => if b.1 / 4 = i then
    (w &&& ~~~ (BitVec.ofNat 32 (255 * 2 ^ (8 * (b.1 % 4))))) ||| BitVec.ofNat 32 (b.2.2.toNat * 2 ^ (8 * (b.1 % 4)))
    else w) w

/-- The words of a line that some bytes lie in. -/
def wordsOf (bs : List (Nat × Nat × Byte)) : List Nat := (List.range 32).filter fun i => bs.any fun b => b.1 / 4 = i

/-- The bytes cover all four of word i. -/
def coversWord (bs : List (Nat × Nat × Byte)) (i : Nat) : Bool :=
  (List.range 4).all fun j => bs.any fun b => b.1 = 4 * i + j

/-- A store writes the visitor copy of a line homed elsewhere: each word becomes OWNED, with the die's present epoch (10
R255, R270); a store ends the line's count and DEAD mark (12 R314). -/
def visitorStore (s : State) (r : GlobalReq) (p : Word) (a : Nat) : State :=
  let k := lineKey p a
  let base := alignDown a 128
  foldSt (fun s i =>
    let v := visitorOf s r.die k
    let own := v.owned.getLsbD i
    let was := if own || v.clean.getLsbD i then lineWord v.data i else currentWord s p (base + 4 * i)
    putVisitor s r.die k { v with
      data := lineSetWord v.data i (overlay was i r.bytes), owned := putBit v.owned i true
      clean := putBit v.clean i false, dirty := putBit v.dirty i true, use := 0, dead := false
      dup := v.dup || (r.leaf.map Leaf.dup).getD false
      bad := putBit v.bad i (v.bad.getLsbD i && !coversWord r.bytes i)
      epochs := tput i (getDie s r.die).epoch v.epochs }) s (wordsOf r.bytes)

/-- A store to a line of the host or peer tier writes the words its visitor copy holds, or that it covers (10 R259). -/
def visitorThrough (s : State) (r : GlobalReq) (p : Word) (a : Nat) : State :=
  let k := lineKey p a
  foldSt (fun s i =>
    let v := visitorOf s r.die k
    if v.clean.getLsbD i || coversWord r.bytes i then
      putVisitor s r.die k { v with data := lineSetWord v.data i (overlay (lineWord v.data i) i r.bytes)
                                    clean := putBit v.clean i true, use := 0, dead := false }
    else s) s (wordsOf r.bytes)

/-- Every CLEAN visitor word of a die, of the lines a condition picks, becomes INVALID (10 R262). -/
def flashClear (s : State) (d : Nat) (which : Nat → Bool) : State :=
  let clear (e : Nat × VisitorLine) : Option (Nat × VisitorLine) :=
    if which e.1 then (if e.2.owned = 0 then none else some (e.1, { e.2 with clean := 0 })) else some e
  modDie s d fun x => { x with visitor := x.visitor.filterMap clear }

/-- An acquire at a scope: package and system invalidate the die's CLEAN visitor words (10 R262). -/
def acquireAt (s : State) (core : Nat) (scope : BitVec 2) : State :=
  if 2 ≤ scope.toNat then flashClear s (coreDie core) fun _ => true else s

/-- The age of an epoch on a die. -/
def epochAge (d : Die) (e : BitVec 16) : Nat := (d.epoch - e).toNat

/-- Drain the words of a die that a condition on their epochs picks (10 R262). -/
def drainDie (s : State) (d : Nat) (which : BitVec 16 → Bool) : State :=
  foldSt (fun s k => drainLine s d k fun i => which (tgetD 0 i (visitorOf s d k).epochs)) s
    ((getDie s d).visitor.map Prod.fst)

/-- The release epoch of a die ends; the die first drains the words that the next epoch would leave more than 2^15 behind
(10 R260, R261). -/
def endEpoch (s : State) (d : Nat) : State :=
  let s := drainDie s d fun e => 2 ^ 15 ≤ epochAge (getDie s d) e && epochAge (getDie s d) e < 2 ^ 15 + 1
  modDie s d fun x => { x with epoch := x.epoch + 1 }

/-- A release at a scope: package and system end the release epoch of the die (10 R260). -/
def releaseAt (s : State) (core : Nat) (scope : BitVec 2) : State :=
  if 2 ≤ scope.toNat then endEpoch s (coreDie core) else s

/-! ## Where a request goes -/

/-- The page of a word is marked home-down, and the word is homed on the die under reset (16 R402). -/
def homeMarked (s : State) (p : Word) (a : Nat) : Bool := !placeRemote p && (getDie s (homeDie p a)).marked

/-- A home that answers HOME_DOWN: it, or the memory of a line it does not hold, is on a die under reset, or every way of
the line's set is held by a line that may not be replaced (16 R401, R402). -/
def homeIsDown (s : State) (p : Word) (a : Nat) : Bool :=
  !placeRemote p && (dieHomeDown s (homeDie p a) || (dieHomeDown s (locate p a).die && !homeHeld s p a) || setPinned s p a)

/-- Why a request of a die that has been sent cannot be served at its home now: HOME_DOWN or LINK_DOWN (01 R10, 16 R385,
R387, R401, R402). -/
def homeCode (s : State) (die : Nat) (p : Word) (a : Nat) : Option Byte :=
  if homeIsDown s p a then some cHOME_DOWN
  else if homeRoute s keeps die p a then none else some cLINK_DOWN

/-- Why a request cannot be sent: no route to its home is UP (01 R10, 16 R387). A home under reset answers itself. -/
def sendCode (s : State) (die : Nat) (p : Word) (a : Nat) : Option Byte :=
  if homeIsDown s p a then some cHOME_DOWN
  else if homeRoute s isUp die p a then none else some cLINK_DOWN

/-- No way of the line's slice may hold a visitor line (18 R426): a store is performed at its home. -/
def noVisitor (s : State) (d k : Nat) : Bool := (roleWays (getDie s d) (homeSlice (keyAddr k)) true).isEmpty

/-- A group notes the line of a global store or atomic, for AFENCE (11 R294). -/
def noteStored (s : State) (t : Thread) (k : Nat) : State :=
  match t.who with
  | .grp g => modGrp s t.core g fun x => if x.stored.contains k then x else { x with stored := k :: x.stored }
  | .fe => s

/-- A translated request is on its way: a plain store to a word homed on another die writes the visitor copy at once,
and what it sends is a registration, unless the words are registered to the die already (10 R253, R255). While the way of
that copy is under test the store waits with its translation (18 R426). -/
def sendReq (s : State) (r : GlobalReq) (l : Leaf) : State :=
  let a := physAddr l r.va
  let r := { r with leaf := some l, stage := .atHome, sent := nextId s, arrived := false
                    via := !placeRemote l.place && viaOf s r.die (homeDie l.place a) }
  let s := bumpId s
  let put (s : State) (r : GlobalReq) : State := modReq s r.id fun _ => r
  if sendCode s r.die l.place a = some cLINK_DOWN then put s { r with stage := .faulted cLINK_DOWN }
  else
  let s := if isCompare r.op then s else noteStored s r.thread (lineKey l.place a)
  match r.op with
  | .store =>
    if placeRemote l.place then put (visitorThrough s r l.place a) r
    else if homeDie l.place a = r.die then put s r
    else if visitorTested s r.die (lineKey l.place a) then put s { r with stage := .translate }
    else if homeMarked s l.place a || noVisitor s r.die (lineKey l.place a) then put s r
    else
      let v := visitorOf s r.die (lineKey l.place a)
      let open_ := fun (b : Nat × Nat × Byte) =>
        !(v.owned.getLsbD (b.1 / 4) && (regWord s l.place (alignDown a 128 + b.1)).owner = ownerOfDie r.die)
      let s := visitorStore s r l.place a
      let rest := r.bytes.filter open_
      put s { r with visitor := true, bytes := rest, stage := if rest.isEmpty then .performed else .atHome }
  | _ => put s r

/-- The translation that a copy command keeps, if it is that of the page of an address (15 R365). -/
def cmdLeaf (s : State) (core cmd va : Nat) : Option Leaf :=
  (getBlk s core).bind fun b => (b.copy.cmds.find? fun c => c.id = cmd).bind fun c =>
    (c.kept.filter fun k => pageBase k.2 va = k.1).map Prod.snd

/-- A copy command keeps the translation of the page it goes on to (15 R365). -/
def keepLeaf (s : State) (core cmd va : Nat) (l : Leaf) : State :=
  modBlk s core fun b => { b with copy := { b.copy with
    cmds := b.copy.cmds.map fun c => if c.id = cmd then { c with kept := some (pageBase l va, l) } else c } }

/-- A request takes the outcome of its translation: a code, a missing right, or its way (15 R363). An atomic only
notes its leaf: its lanes leave together (11 R283). -/
def routeReq (s : State) (r : GlobalReq) (res : WalkRes) : State :=
  match res with
  | .code c => modReq s r.id fun r => { r with stage := .faulted (if r.copy.isSome then c else asTranslation c) }
  | .leaf l =>
    let n := reqRights r.op
    let s := match r.copy with
      | some g => keepLeaf s r.thread.core g.cmd r.va l
      | none => s
    match leafRight l n.1 n.2 false with
    | some c => modReq s r.id fun r => { r with leaf := some l, stage := .faulted c }
    | none => match r.op with
      | .atomic _ _ _ _ _ => modReq s r.id fun r => { r with leaf := some l }
      | _ => sendReq s r l

/-- Put a request under way: its translation is in a cache, or it waits for a walk (15 R365). -/
def issueReq (s : State) (r : GlobalReq) : State :=
  let s := modFlight s fun f => { f with global := f.global ++ [r] }
  if 2 ^ 56 ≤ r.va then routeReq s r (.code cTRANSLATION)
  else match ((r.copy.bind fun g => cmdLeaf s r.thread.core g.cmd r.va).or (cachedLeaf s r.thread.core r.ctx r.va)) with
    | some l => routeReq s r (.leaf l)
    | none => startWalk s r.thread.core r.ctx r.va false

/-! ## Atomics of one instruction (11 R283) -/

/-- The lanes of an ATG. -/
def atgReqs (s : State) (inst : Nat) : List GlobalReq := s.flight.global.filter fun r => r.inst = inst && !isStore r.op

/-- Translation faults of an ATG's lanes: the lowest lane that has one, once every lane is translated. -/
def atgSettled (s : State) (inst : Nat) : Bool :=
  (atgReqs s inst).all fun r => match r.stage with
    | .translate => r.leaf.isSome
    | _ => true

/-- The lowest lane of an ATG whose translation failed, with its code. -/
def atgFault (s : State) (inst : Nat) : Option (GlobalReq × Byte) :=
  ((atgReqs s inst).foldl (fun b r => match r.stage with
    | .faulted c => (match b with
      | some (q, d) => if r.lane < q.lane then some (r, c) else some (q, d)
      | none => some (r, c))
    | _ => b) none : Option (GlobalReq × Byte))

/-- Send the lanes of an ATG that have been translated and checked and are not sent. -/
def sendAtg (s : State) (inst : Nat) : State :=
  let s := foldSt (fun s r => match r.leaf with
    | some l => if r.stage = .translate then sendReq s r l else s
    | none => s) s (atgReqs s inst)
  modFlight s fun f => { f with atgs := f.atgs.map fun e => if e.id = inst then { e with sent := true } else e }

/-- Forget an ATG. -/
def endAtg (s : State) (e : AtgInst) : State :=
  dropFlag (modFlight s fun f => { f with
    atgs := f.atgs.filter fun x => x.id ≠ e.id
    global := f.global.filter fun r => !(r.inst = e.id && !isStore r.op) }) e.src e.flag

/-- A waiting ATG faults at its unit (11 R283). -/
def atgRaise (s : State) (e : AtgInst) (code : Byte) (va : Nat) : State :=
  let s := endAtg s e
  match e.src.who with
  | .grp g => match (getGrp s e.src.core g).bind fun r => tfind e.split r.splits with
    | some x =>
      if ((getGrp s e.src.core g).map Group.run) = some .killed then s
      else
      let s := modSpl s e.src.core g e.split fun x => { x with wait := .none }
      let s := modGrp s e.src.core g fun r => { r with acquire := if r.acquire = some e.id then none else r.acquire }
      giveBack (groupFault s e.src.core g e.split 0 code x.unitEnd x.pc (BitVec.ofNat 64 va) 0xFFFF 0 0) e.src.core g x.pc x.unitEnd
    | none => s
  | .fe => s

/-- What follows when a lane of an ATG has been translated: once all are, they leave or the instruction faults. A lane
that is translated again after it was sent leaves alone, and its fault waits for the other lanes (10 R267, 11 R283). -/
def settleAtg (s : State) (inst : Nat) : State :=
  match s.flight.atgs.find? fun e => e.id = inst with
  | none => s
  | some e =>
    if e.sent then sendAtg s inst
    else if !atgSettled s inst then s
    else match atgFault s inst with
      | some (r, c) => atgRaise s e c r.va
      | none => sendAtg s inst

/-- A comparison of WAITW that cannot be translated raises its fault at the unit (05 R145). -/
def waitwRaise (s : State) (r : GlobalReq) (code : Byte) : State :=
  let s := dropReq s r.id
  match r.thread.who with
  | .grp g => match (getGrp s r.thread.core g).bind fun x => tfind r.split x.splits with
    | some x =>
      let s := modSpl s r.thread.core g r.split fun x => { x with wait := .none }
      giveBack (groupFault s r.thread.core g r.split 0 code x.unitEnd x.pc (BitVec.ofNat 64 r.va) 0xFFFF 0 0) r.thread.core g
        x.pc x.unitEnd
    | none => s
  | .fe => match getBlk s r.thread.core with
    | some b =>
      let s := modFe s r.thread.core fun e => { e with wait := .none, pc := b.fe.unitEnd, pre := { start := some b.fe.pc } }
      feFault s r.thread.core { code := code, addr := BitVec.ofNat 64 r.va }
    | none => s

/-- Requests that wait for a walk take its outcome, in order (15 R363, R365). -/
def deliver (s : State) (w : Walk) (res : WalkRes) : State :=
  let mine (r : GlobalReq) : Bool := r.thread.core = w.core && r.ctx = w.ctx && r.stage = .translate && r.leaf.isNone
    && (match res with
      | .leaf l => pageBase l r.va = pageBase l w.va
      | .code _ => samePiece r.va w.va)
  foldSt (fun s r =>
    let s := routeReq s r res
    match r.op with
    | .atomic _ _ _ _ _ => settleAtg s r.inst
    | .waitw _ => (match (getReq s r.id).map GlobalReq.stage with
      | some (.faulted c) => waitwRaise s r c
      | _ => s)
    | _ => s) s (s.flight.global.filter mine)

/-- A walk ends: its leaf enters the caches, and what waited goes on (15 R363, R364). -/
def endWalk (s : State) (w : Walk) (res : WalkRes) : State :=
  let s := match res with
    | .leaf l => cacheLeaf s w.core w.ctx w.va l
    | .code _ => s
  let done (x : Walk) : Option Walk :=
    if x.id ≠ w.id then some x
    else if w.keep then some { x with res := some res, posted := false, zeroing := none } else none
  let s := modFlight s fun f => { f with walks := f.walks.filterMap done }
  deliver s w res

/-- A walk that has yielded a leaf goes through the owner check: parts of its frame that another context owns are
zeroed first (15 R364). -/
def ownWalk (s : State) (w : Walk) (res : WalkRes) : State :=
  match res with
  | .code _ => endWalk s w res
  | .leaf l =>
    if (foreignParts s w.ctx l).isEmpty then endWalk s w res
    else modFlight s fun f => { f with walks := f.walks.map fun x => if x.id = w.id then { x with zeroing := some l, posted := false } else x }

/-! ## Marks, recalls and drains (10 R256 to R262) -/

/-- Order a recall of one word for a request (10 R257). -/
def orderRecall (s : State) (req key word home : Nat) (owner : BitVec 3) : State :=
  bumpId (modFlight s fun f => { f with recalls := f.recalls ++
    [{ id := nextId s, home := home, key := key, word := word, owner := owner, req := req
       via := 0 < owner.toNat && viaOf s home (owner.toNat - 1) }] })

/-- A home orders an owner to drain up to an epoch, for a request or for none (10 R261, R262). -/
def orderDrain (s : State) (home req : Nat) (m : BitVec 3 × BitVec 16) : State :=
  bumpId (modFlight s fun f => { f with drains := f.drains ++
    [{ id := nextId s, home := home, owner := m.1, epoch := m.2, req := req
       via := 0 < m.1.toNat && m.1.toNat ≤ 4 && viaOf s home (m.1.toNat - 1) }] })

/-- The release marks on some words that name other dies than the one that acquires (10 R262). -/
def foreignMarks (s : State) (die : Nat) (p : Word) (ws : List Nat) : List (BitVec 3 × BitVec 16) :=
  (ws.flatMap fun x => (regWord s p x).marks.filter fun y => y.1 ≠ ownerOfDie die).eraseDups

/-- An acquire-qualified access of some words, by a die: the drains of the marks on them are ordered, and the marks are
cleared (10 R262). -/
def serveMarks (s : State) (req die : Nat) (p : Word) (ws : List Nat) : State :=
  let s := foldSt (orderDrain · (homeDie p (ws.headD 0)) req ·) s (foreignMarks s die p ws)
  foldSt (fun s x => modReg s p x fun w => { w with marks := w.marks.filter fun y => y.1 = ownerOfDie die }) s ws

/-- The keys of lines of one slice that are registered, oldest first (10 R256). -/
def sliceOrder (s : State) (d : Nat) (a : Nat) : List Nat :=
  (getDie s d).regOrder.filter fun k => homeSlice (keyAddr k) = homeSlice a

/-- The entry of a line is to make room: its words are recalled, and the owners that its release marks name drain (10 R256,
R261). -/
def recallEntry (s : State) (d k : Nat) : State :=
  foldSt (fun s i =>
    let a := keyAddr k + 4 * i
    let s := recallWord s (keyPlace k) a
    modReg (foldSt (orderDrain · d 0 ·) s (regWord s (keyPlace k) a).marks) (keyPlace k) a fun r => { r with marks := [] })
    s (List.range 32)

/-- The line with the oldest entry of a slice gives it up. An entry with a word that is owner-lost stays, since only a store or
PGSCRUB clears that bit (10 R268), and the next one makes room (log entry 122). -/
def freeOldest (s : State) (d : Nat) : List Nat → State
  | [] => s
  | k :: l =>
    let s := recallEntry s d k
    if (List.range 32).any fun i => (regWord s (keyPlace k) (keyAddr k + 4 * i)).lost then freeOldest s d l
    else modDie s d fun x => { x with regOrder := x.regOrder.filter (· ≠ k) }

/-- The line of an address takes an entry of its slice's registry; a full registry first gives up the entry taken longest
ago (01 R18, 10 R256, 18 R426). An entry is kept, though none of its words is registered any more, until it makes room so
(log entry 122). -/
def registerLine (s : State) (p : Word) (a : Nat) : State :=
  let d := homeDie p a
  let k := lineKey p a
  if (getDie s d).regOrder.contains k then s
  else
    let old := sliceOrder s d a
    let s := if (if (getDie s d).halved.contains (homeSlice a) then 8192 else 16384) ≤ old.length then freeOldest s d old else s
    modDie s d fun x => { x with regOrder := x.regOrder ++ [k] }

/-- Write a release mark, in the line's entry; when both slots are in use the older one's owner drains at once (10 R261). -/
def putMark (s : State) (p : Word) (a : Nat) (m : BitVec 3 × BitVec 16) : State :=
  let s := registerLine s p a
  match (regWord s p a).marks with
  | [x, y] => modReg (orderDrain s (homeDie p a) 0 x) p a fun r => { r with marks := [y, m] }
  | ms => modReg s p a fun r => { r with marks := ms ++ [m] }

/-- The words of a request's bytes that another agent has registered (10 R255, R258). -/
def foreignWords (s : State) (p : Word) (base : Nat) (ws : List Nat) (me : BitVec 3) : List Nat :=
  ws.filter fun i =>
    let o := (regWord s p (base + 4 * i)).owner
    o ≠ 0 && o ≠ me

/-- Order the recalls of words for a request. -/
def orderRecalls (s : State) (r : Nat) (p : Word) (base : Nat) (ws : List Nat) : State :=
  let s := foldSt (fun s i => orderRecall s r (lineKey p base) i (homeDie p base) (regWord s p (base + 4 * i)).owner) s ws
  modReq s r fun q => { q with recalls := q.recalls + ws.length, arrived := true }

/-- The page of an address at its old home is FROZEN, so that stores and atomics wait (10 R267). -/
def frozenAt (s : State) (p : Word) (a : Nat) : Bool :=
  s.pages.queue.any fun m => m.stage = .frozen && migCovers m p a

/-- The page of an address at its old home is PUBLISHING (15 R375). -/
def publishingAt (s : State) (p : Word) (a : Nat) : Bool :=
  s.pages.queue.any fun m => m.stage = .publishing && migCovers m p a

/-- A request's generation is older than the page's (10 R267). -/
def staleReq (s : State) (r : GlobalReq) : Bool :=
  match r.leaf, walkPage s r.ctx r.va with
  | some l, .leaf n => placeGen l.place ≠ placeGen n.place
  | _, _ => false

/-- The address of the first byte a request touches at its home. -/
def lineBase (r : GlobalReq) : Nat := alignDown (reqAddr r) 128

/-- The place of a request in the program order of its thread: a write of a copy command stands where the command does. -/
def progOrder (r : GlobalReq) : Nat := ((r.copy.map CopyTag.cmd)).getD r.id

/-- An address lies in the page of a request that is being translated: the page from which it has come back, or else what
the smallest page holds. -/
def waitsOnPage (e : GlobalReq) (va : Nat) : Bool :=
  match e.back with
  | some n => e.va / pageBytes n = va / pageBytes n
  | none => samePiece e.va va

/-- An earlier access of the thread that must reach the home first: a store of the same slice and the same placement word
(10 R246, R255, 11 R286), a store that is not yet translated, before another store or an access of its page, and an access
of the page that is being sent again (10 R267). -/
def storeBefore (r e : GlobalReq) : Bool :=
  (progOrder e < progOrder r || (progOrder e = progOrder r && e.id < r.id))
    && e.thread = r.thread && (e.inst ≠ r.inst || e.inst = 0) && (match e.stage with
    | .translate => (isStore e.op && isStore r.op) || waitsOnPage e r.va
    | .atHome => isStore e.op && homeSlice (reqAddr e) = homeSlice (reqAddr r) && placeSame (reqPlace e) = placeSame (reqPlace r)
    | _ => false)

/-- An access of a thread to the page of an address, at an earlier place of its program order, has come back and is still to
be sent again: a request, or the read of a copy command (10 R267). -/
def resentBefore (s : State) (t : Thread) (order va : Nat) : Bool :=
  s.flight.global.any (fun e => e.thread = t && progOrder e < order && e.stage = .translate && e.back.isSome && waitsOnPage e va)
    || (t.who = .fe && (getBlk s t.core).any fun b => b.copy.cmds.any fun c => c.id < order && c.transfers.any fun x =>
        !x.ended && x.resend.any fun p => va / p.2 = p.1)

/-- An MWAKE with a release, which leaves its core once the release is performed (16 R398). -/
def lateSent (r : GlobalReq) : Bool :=
  r.send.isSome && (match r.op with
    | .relWake _ => true
    | _ => false)

/-- Two addresses are served at one place, which the mesh, the seams and the links outside the device reach in order: the
home slice, or beyond the device the slice of the link's traffic (01 R16, 11 R286). -/
def sameWay (s : State) (p : Word) (a : Nat) (q : Word) (b : Nat) : Bool :=
  homeSlice a = homeSlice b
    && (if placeRemote p then placeRemote q && remoteLink s p a = remoteLink s q b else !placeRemote q && homeDie p a = homeDie q b)

/-- The read of a copy that has left its core before and has not reached its home (01 R16). -/
def readBefore (s : State) (core sent : Nat) (p : Word) (a : Nat) (e : ReadReq) : Bool :=
  e.core = core && e.id < sent && !e.ordered && sameWay s e.leaf.place (physAddr e.leaf e.va) p a

/-- A request that the same core has sent before to the same slice and that has not reached it: the mesh and the seams
deliver in order (01 R16). One that itself waits for an earlier store of its thread, or at the home of a FROZEN page, does
not hold others up, nor does an MWAKE that has not left yet. -/
def reqBefore (s : State) (core sent : Nat) (p : Word) (a : Nat) (e : GlobalReq) : Bool :=
  e.stage = .atHome && !e.arrived && e.sent < sent && !lateSent e && e.thread.core = core
    && sameWay s (reqPlace e) (reqAddr e) p a
    && !frozenAt s (reqPlace e) (reqAddr e) && !s.flight.global.any (storeBefore e)

/-- Requests that the core of a request has sent before it to the same slice have not reached it. -/
def sentBefore (s : State) (r : GlobalReq) : Bool :=
  let sent := if lateSent r then nextId s else r.sent
  s.flight.global.any (reqBefore s r.thread.core sent (reqPlace r) (reqAddr r))
    || s.flight.reads.any (readBefore s r.thread.core sent (reqPlace r) (reqAddr r))

/-- A request may be performed at its home: it has arrived in order, no recall it ordered is outstanding, its page is
not FROZEN, its generation is the page's, and nothing that serves it is under test. -/
def atHomeNow (s : State) (r : GlobalReq) : Bool :=
  r.stage = .atHome && r.recalls = 0 && r.drains = 0 && !routeHeld s r.die (reqPlace r) (reqAddr r) && !frozenAt s (reqPlace r) (reqAddr r) && !staleReq s r
    && !homeTested s (reqPlace r) (reqAddr r)
    && (isCompare r.op || !throttledAt s (reqPlace r) (reqAddr r))
    && !s.flight.global.any (storeBefore r) && !resentBefore s r.thread (progOrder r) r.va && !sentBefore s r
    && (placeRemote (reqPlace r) || !otherRoute s r.die (homeDie (reqPlace r) (reqAddr r)) r.via r.sent)

/-! ## A store at its home -/

/-- Why the bytes of one word of a store are refused: owner-lost and not covered whole, an uncorrectable error and not
covered whole, or an error of the line (10 R268, 15 R372, R377, 18 R428). -/
def wordRefused (s : State) (p : Word) (base i : Nat) (bs : List (Nat × Nat × Byte)) : Option Byte :=
  if placeRemote p then none
  else if lineBad s p (base + 4 * i) then some cDATA_UNCORRECTABLE
  else if coversWord bs i then none
  else if (regWord s p (base + 4 * i)).lost then some cOWNER_LOST
  else if badAt s p (base + 4 * i) 4 then some cDATA_UNCORRECTABLE else none

/-- Write a word's bytes at its home; covering it whole clears owner-lost and an error. -/
def storeWord (s : State) (p : Word) (base i : Nat) (bs : List (Nat × Nat × Byte)) : State :=
  let a := base + 4 * i
  let s := if coversWord bs i && !placeRemote p then
      modReg (clearBad s (locNum p a) 4) p a fun r => { r with lost := false } else s
  foldSt (fun s b => if b.1 / 4 = i then homePutByte s p (base + b.1) b.2.2 else s) s bs

/-- Insert a request into a list in the order in which requests were sent. -/
def insertBySent (r : GlobalReq) : List GlobalReq → List GlobalReq
  | [] => [r]
  | x :: l => if r.sent ≤ x.sent then r :: x :: l else x :: insertBySent r l

/-- The bytes a die's stores under way hold for a line, in the order in which they wrote its copy (10 R255). -/
def pendingBytes (s : State) (die k : Nat) : List (Nat × Nat × Byte) :=
  ((s.flight.global.filter fun r => r.visitor && r.die = die && r.stage = .atHome && lineKey (reqPlace r) (reqAddr r) = k).foldr
    insertBySent []).flatMap GlobalReq.bytes

/-- The word is registered to the die, whose copy holds its value (10 R255). -/
def ownsWord (s : State) (d : Nat) (p : Word) (a : Nat) : Bool :=
  (regWord s p a).owner = ownerOfDie d
    && (tfind (lineKey p a) (getDie s d).visitor).any fun v => v.owned.getLsbD (a % 128 / 4)

/-- Register a word to a die: its copy takes the home's value under the bytes the die's stores hold (10 R255, R270). A store
that covers the word whole ends its error (18 R428). -/
def registerWord (s : State) (r : GlobalReq) (i : Nat) : State :=
  let p := reqPlace r
  let a := lineBase r + 4 * i
  let k := lineKey p a
  let s := if coversWord r.bytes i then clearBad s (locNum p a) 4 else s
  let w := overlay (lineWord (homeLine s p a).data i) i (pendingBytes s r.die k)
  let s := storedElsewhere (modReg (registerLine s p a) p a fun x => { x with owner := ownerOfDie r.die, lost := false }) p a
  let v := visitorOf s r.die k
  let e := if v.owned.getLsbD i then v.epochs else tput i (getDie s r.die).epoch v.epochs
  putVisitor (markDirty s p a) r.die k { v with
    data := lineSetWord v.data i w, owned := putBit v.owned i true, dirty := putBit v.dirty i true
    clean := putBit v.clean i false, epochs := e }

/-- A die's copy of a word whose store was refused is INVALID. -/
def dropWord (s : State) (d k i : Nat) : State :=
  let v := visitorOf s d k
  putVisitor s d k { v with owned := putBit v.owned i false, clean := putBit v.clean i false, dirty := putBit v.dirty i false
                            epochs := tdel i v.epochs }

/-- The home line that a request has filled through a leaf with DUP set carries its mark (11 R294). -/
def dupHome (s : State) (r : GlobalReq) : State :=
  if (r.leaf.map Leaf.dup).getD false && !placeRemote (reqPlace r) then
    modDie s (homeDie (reqPlace r) (reqAddr r)) fun d =>
      { d with home := tmod (lineKey (reqPlace r) (reqAddr r)) (fun h => { h with dup := true }) d.home }
  else s

/-- The offset in the host-link register space that a store of a privileged context reaches through its command page (04
R88, 05 R116, 15 R366, 17 R405, log entry 83). -/
def commandOffset (s : State) (r : GlobalReq) : Option Nat :=
  if placeTier (reqPlace r) = 2 && (getCtx s r.ctx).mode.getLsbD 0 then Config.commandPage r.ctx (lineBase r) else none

/-- The bytes that a request brings to the 64-bit registers of a line of the register space, register by register. -/
def commandBytes (off : Nat) (bs : List (Nat × Nat × Byte)) : List (Nat × List (Nat × Byte)) :=
  ((List.range 16).map fun i => (off + 8 * i, (bs.filter fun b => b.1 / 8 = i).map fun b => (b.1 % 8, b.2.2))).filter
    fun e => !e.2.isEmpty

/-- A store or a registration is performed at its home, word by word; refused words keep their bytes and the request
with them waits for its report (10 R255, R258, R268). -/
def performStore (s : State) (r : GlobalReq) : State :=
  let p := reqPlace r
  let base := lineBase r
  match commandOffset s r with
  | some off => modReq (modFlight s fun f => { f with regWrites := f.regWrites ++ commandBytes off r.bytes }) r.id
      fun r => { r with stage := .performed }
  | none =>
  let ws := wordsOf r.bytes
  let was := ws.map fun i =>
    (i, if r.visitor && ownsWord s r.die p (base + 4 * i) then none else wordRefused s p base i r.bytes)
  let s := foldSt (fun s (e : Nat × Option Byte) =>
    let i := e.1
    match e.2 with
    | some _ => if r.visitor then dropWord s r.die (lineKey p base) i else s
    | none =>
      -- a word that is registered to the die already keeps its copy (10 R255)
      if r.visitor && ownsWord s r.die p (base + 4 * i) then s else
      -- no registration is made on a page that is being published: it is moving (15 R375)
      if r.visitor && !publishingAt s p base && !noVisitor s r.die (lineKey p base) then registerWord s r i
      else
        let s := storeWord s p base i r.bytes
        if r.visitor then dropWord s r.die (lineKey p base) i else s) s was
  let s := dupHome s r
  match was.findSome? Prod.snd with
  | some c =>
    let kept := r.bytes.filter fun b => was.any fun w => w.1 = b.1 / 4 && w.2.isSome
    let codes := was.filterMap fun w => w.2.map fun k => (w.1, k)
    modReq s r.id fun r => { r with bytes := kept, stage := .faulted c, codes := codes }
  | none => modReq s r.id fun r => { r with stage := .performed }

/-- The scope checker's tag of a release-qualified access at its home (17 R419). -/
def tagLine (s : State) (p : Word) (a core : Nat) (q : BitVec 2) : State :=
  if scopeChk s && !placeRemote p then
    putHome s p a { homeLine s p a with tag := some (scopeTag s q core) }
  else s

/-- The tag that an acquire-qualified read of a line finds outside the releaser's scope instance (17 R419). -/
def lineMismatch (s : State) (core : Nat) (p : Word) (a : Nat) : Option ScopeTag :=
  if !scopeChk s || placeRemote p then none
  else (homeLine s p a).tag.filter fun t => !inScope s t core

/-- The scope checker at a lane of an acquire-qualified ATG: at most one record an instruction (17 R419). -/
def checkAtg (s : State) (r : GlobalReq) : State :=
  match s.flight.atgs.find? fun e => e.id = r.inst, lineMismatch s r.thread.core (reqPlace r) (reqAddr r) with
  | some e, some t =>
    if e.checked then s
    else scopeRecord (modFlight s fun f => { f with atgs := f.atgs.map fun x => if x.id = e.id then { x with checked := true } else x })
      r.thread r.pc r.va 2 t
  | _, _ => s

/-- A store that waits with its translation for a visitor way under test (18 R426). -/
def waitsForWay (r : GlobalReq) : Bool := r.op = .store && r.stage = .translate && r.leaf.isSome

/-- HOME_STORE (10 R255, R256, R258, R259). -/
def execHomeStore (id : Nat) (s : State) : Host.Outcome State Fault Refusal :=
  match getReq s id with
  | none => .next s
  | some r =>
    let p := reqPlace r
    let base := lineBase r
    if waitsForWay r then event s (!visitorTested s r.die (lineKey p base)) (match r.leaf with
      | some l => sendReq s r l
      | none => s)
    else event s (r.op = .store && atHomeNow s r) (match homeCode s r.die p base with
      | some c =>
        let s := if r.visitor then foldSt (fun s i => dropWord s r.die (lineKey p base) i) s (wordsOf r.bytes) else s
        modReq s id fun r => { r with stage := .faulted c }
      | none =>
        let ws := foreignWords s p base (wordsOf r.bytes) (if r.visitor then ownerOfDie r.die else 0)
        if ws.isEmpty then performStore s r else orderRecalls s id p base ws)

/-- RECALL (10 R257): the owner returns the word and keeps a CLEAN copy. -/
def execRecall (id : Nat) (s : State) : Host.Outcome State Fault Refusal :=
  match s.flight.recalls.find? fun m => m.id = id with
  | some m =>
    let s' := recallWord s (keyPlace m.key) (keyAddr m.key + 4 * m.word)
    let d := m.owner.toNat - 1
    event s (!ownerHeld s m.owner (keyPlace m.key) (keyAddr m.key)
        && !(0 < m.owner.toNat && m.owner.toNat ≤ 4 && (visitorTested s d m.key || otherRoute s m.home d m.via m.id)))
      (modReq (modFlight s' fun f => { f with recalls := f.recalls.filter fun x => x.id ≠ id }) m.req fun r =>
        { r with recalls := r.recalls - 1 })
  | none => .next s

/-- The bytes of a write of a core's copy command that have been performed are credited to its barrier (12 R310). -/
def creditCopy (s : State) (src : Nat) (t : CopyTag) (n : Nat) : State :=
  match t.bar with
  | some (core, i) => sendCredit s src core i n none
  | none => s

/-- The answer to a request waits on a link that is held (16 R383, 18 R426). -/
def replyHeld (s : State) (r : GlobalReq) : Bool := routeHeld s r.die (reqPlace r) (reqAddr r)

/-- STORE_ACK (10 R255): the store is acknowledged; the bytes of a copy are credited (12 R310). -/
def execStoreAck (id : Nat) (s : State) : Host.Outcome State Fault Refusal :=
  match getReq s id with
  | some r => event s (isStore r.op && r.stage = .performed && r.send.isNone && !replyHeld s r) (match r.copy with
      | some t => creditCopy (dropReq s id) r.thread.core t t.bytes
      | none => dropReq s id)
  | none => .next s

/-! ## Atomics and release-qualified accesses at their home -/

/-- The old value an atomic reads at its home. -/
def homeValue (s : State) (p : Word) (a n : Nat) : DWord := BitVec.ofNat 64 (bytesNat (physBytes s p a n))

/-- The effect of an atomic at its home after the recalls (10 R258, R261, 11 R282). An access to owner-lost or
uncorrectable data faults with the word unchanged (10 R268). -/
def performAtomic (s : State) (r : GlobalReq) (op : BitVec 4) (b b' : DWord) (q : Bool) (scope : BitVec 2) : State :=
  let p := reqPlace r
  let a := reqAddr r
  let n := atomicSize op
  let words := [a, a + n - 4]
  if words.any fun x => !placeRemote p && (regWord s p x).lost then modReq s r.id fun r => { r with stage := .faulted cOWNER_LOST }
  else if words.any fun x => badAt s p x 4 then
    modReq s r.id fun r => { r with stage := .faulted cDATA_UNCORRECTABLE }
  else
    let m := homeValue s p a n
    let at_ := words.eraseDups
    let marks := foreignMarks s r.die p at_
    let s := if placeTier p = 3 then bumpFree s else s
    let s := if q then checkAtg s r else s
    let s := dupHome (physPut s p a (natBytes n (atomicNew op m b b').toNat)) r
    let s := if q && !placeRemote p then
        let s := serveMarks s r.id r.die p at_
        let s := foldSt (fun s x => putMark s p x (ownerOfDie r.die, r.epoch)) s at_
        tagLine s p a r.thread.core scope
      else s
    modReq s r.id fun r => { r with result := m, drains := if q then marks.length else 0, stage := .performed }

/-- A release-qualified store is performed at its home and leaves its mark (10 R261). -/
def performRelease (s : State) (r : GlobalReq) (scope : BitVec 2) : State :=
  let p := reqPlace r
  let s := performStore s r
  if placeRemote p then s
  else
    let s := foldSt (fun s i => putMark s p (lineBase r + 4 * i) (ownerOfDie r.die, r.epoch)) s (wordsOf r.bytes)
    tagLine s p (lineBase r) r.thread.core scope

/-- The words of a line that a request touches. -/
def reqWords (r : GlobalReq) : List Nat :=
  match r.op with
  | .atomic op _ _ _ _ =>
    let i := reqAddr r % 128 / 4
    if atomicSize op = 8 then [i, i + 1] else [i]
  | .waitw _ => let i := reqAddr r % 128 / 4; [i, i + 1]
  | _ => wordsOf r.bytes

/-- Bring a request's words home before it is performed: true when none is registered elsewhere (10 R258). -/
def recallFirst (s : State) (r : GlobalReq) : List Nat := foreignWords s (reqPlace r) (lineBase r) (reqWords r) 0

/-- An earlier lane of the same ATG touches the same word (11 R275). -/
def laneBefore (r e : GlobalReq) : Bool :=
  e.inst = r.inst && e.lane < r.lane && e.stage = .atHome && !isStore e.op && overlap (reqAddr e) 8 (reqAddr r) 8

/-- A reissued release is performed once the thread's earlier accesses are (04 R112, 10 R260). -/
def againReady (s : State) (r : GlobalReq) : Bool :=
  r.again.isNone || (poolPerformed s r.thread
    && !s.flight.global.any fun e => e.thread = r.thread && e.id < r.id && !isCompare e.op)

/-- A reissued release, and that of an MWAKE, ends the epoch when it is performed, and its marks name that epoch (04 R112,
10 R260, 16 R398). -/
def againRelease (s : State) (r : GlobalReq) (scope : BitVec 2) : State × GlobalReq :=
  if r.again.isSome || r.send.isSome then (releaseAt s r.thread.core scope, { r with epoch := (getDie s r.die).epoch }) else (s, r)

/-- ATOMIC_AT_HOME (10 R258, R261, 11 R282). -/
def execAtomicAtHome (id : Nat) (s : State) : Host.Outcome State Fault Refusal :=
  match getReq s id with
  | none => .next s
  | some r =>
    let due := atHomeNow s r && againReady s r && !s.flight.global.any (laneBefore r)
    let go (f : State) : Host.Outcome State Fault Refusal := event s due (match homeCode s r.die (reqPlace r) (reqAddr r) with
      | some c => modReq s id fun r => { r with stage := .faulted c }
      | none => if (recallFirst s r).isEmpty then f else orderRecalls s id (reqPlace r) (lineBase r) (recallFirst s r))
    match r.op with
    | .atomic op b b' q scope => go (performAtomic s r op b b' q scope)
    | .relStore scope => go (performRelease (againRelease s r scope).1 (againRelease s r scope).2 scope)
    | _ => .next s

/-- DRAIN_ORDER (10 R262): the owner writes back every dirty word registered under an epoch up to the mark's. -/
def execDrainOrder (id : Nat) (s : State) : Host.Outcome State Fault Refusal :=
  match s.flight.drains.find? fun m => m.id = id with
  | some m =>
    let own := m.owner.toNat - 1
    event s (!m.done && !(0 < m.owner.toNat && m.owner.toNat ≤ 4 && ((List.range 4).any (seamHeld s own)
        || otherRoute s m.home own m.via m.id || (getDie s own).visitor.any fun e => e.2.owned ≠ 0 && visitorTested s own e.1)))
      (let s := if m.owner.toNat ≤ 4 then
          let d := m.owner.toNat - 1
          drainDie s d fun e => epochAge (getDie s d) m.epoch ≤ epochAge (getDie s d) e
        else foldSt (fun s w => if w.buf + 5 = m.owner.toNat then recallWord s (keyPlace w.key) (keyAddr w.key + 4 * w.word) else s)
          s s.flight.linkWords
      modFlight s fun f => { f with drains := f.drains.map fun x => if x.id = id then { x with done := true } else x })
  | none => .next s

/-- The acquire half of an access that has been performed, once its drains are in (10 R262). -/
def acquireDone (s : State) (r : GlobalReq) : State :=
  match r.op with
  | .atomic _ _ _ true q => if r.drains = 0 then acquireAt s r.thread.core q else s
  | _ => s

/-- DRAIN_ACK (10 R262): the acknowledgement reaches the home, and the last completes a waiting acquire. -/
def execDrainAck (id : Nat) (s : State) : Host.Outcome State Fault Refusal :=
  match s.flight.drains.find? fun m => m.id = id with
  | some m =>
    event s (m.done && !(0 < m.owner.toNat && m.owner.toNat ≤ 4 && seamHeld s (m.owner.toNat - 1) m.home))
      (let s := modReq s m.req fun r => { r with drains := r.drains - 1 }
      let s := modFlight s fun f => { f with
        drains := f.drains.filter fun x => x.id ≠ id
        reads := f.reads.map fun x => if x.id = m.req then { x with drains := x.drains - 1 } else x }
      match getReq s m.req with
      | some r => acquireDone s r
      | none => s)
  | none => .next s

/-- The lanes of an ATG have all been performed or have faulted (11 R283). -/
def atgDone (s : State) (e : AtgInst) : Bool :=
  e.sent && (atgReqs s e.id).all fun r => match r.stage with
    | .performed => r.drains = 0
    | .faulted _ => true
    | _ => false

/-- The destinations of an ATG take the old values, and the split goes on after its unit. -/
def atgRetire (s : State) (e : AtgInst) : State :=
  let reqs := atgReqs s e.id
  let old (i : Nat) : DWord := ((reqs.find? fun r => r.lane = i).map GlobalReq.result).getD 0
  match e.src.who, getBlk s e.src.core with
  | .grp g, some b =>
    let s := endAtg s e
    modGrp s e.src.core g fun r =>
      let regs := (List.range e.dests.length).foldl (fun t j =>
        putReg b.hdr t (e.dests.getD j 0) (lanesOf e.lanes) fun i => (old i).extractLsb' (32 * j) 32) r.regs
      let r := { r with regs := regs, acquire := if r.acquire = some e.id then none else r.acquire }
      match tfind e.split r.splits with
      | some x => unitRetire r e.split { x with wait := .none } x.pc x.unitEnd
      | none => r
  | _, _ => s

/-- GLOBAL_ATOMIC_REPLY (11 R283). -/
def execGlobalAtomicReply (id : Nat) (s : State) : Host.Outcome State Fault Refusal :=
  match s.flight.atgs.find? fun e => e.id = id with
  | some e => event s (atgDone s e && !((atgReqs s id).any (replyHeld s)) && !(match e.src.who with
        | .grp g => ((getGrp s e.src.core g).map Group.run) = some .faulted
        | .fe => false)) (match atgFault s id with
      | some (r, c) => atgRaise s e c r.va
      | none =>
        let s := match (atgReqs s id).find? fun r => (reqRelease r.op).isSome with
          | some r => acquireDone s r
          | none => s
        atgRetire s e)
  | none => .next s

/-- Drop the translation of an address from a core's and its die's cache. -/
def dropEntry (s : State) (core ctx va : Nat) : State :=
  let drop (c : List TEntry) := c.filter fun e => !tcovers ctx va e
  modDie (modCore s core fun k => { k with tcache := drop k.tcache }) (coreDie core) fun d => { d with tcache := drop d.tcache }

/-- The read of a copy carries a generation older than the page's (10 R267). -/
def staleRead (s : State) (r : ReadReq) : Bool :=
  match getBlk s r.core with
  | some b => (match walkPage s b.ctx r.va with
    | .leaf n => placeGen r.leaf.place ≠ placeGen n.place
    | .code _ => false)
  | none => false

/-- A copy command gives up the translation it keeps. -/
def dropCmdLeaf (s : State) (core cmd : Nat) : State :=
  modBlk s core fun b => { b with copy := { b.copy with
    cmds := b.copy.cmds.map fun c => if c.id = cmd then { c with kept := none } else c } }

/-- The transfer of a read that has come back is to send it again (10 R267). -/
def markResend (s : State) (r : ReadReq) : State :=
  modBlk s r.core fun b => { b with copy := { b.copy with
    cmds := b.copy.cmds.map fun c => if c.id = r.cmd then
        { c with transfers := c.transfers.mapIdx fun j t =>
            if j = r.tr then { t with resend := some (r.va / pageBytes r.leaf.size, pageBytes r.leaf.size) } else t }
      else c } }

/-- A copy's read of an old generation comes back, so that its transfer translates and reads again (10 R267). -/
def returnRead (s : State) (id : Nat) : Host.Outcome State Fault Refusal :=
  match s.flight.reads.find? fun r => r.id = id with
  | some r => event s (staleRead s r) (match getBlk s r.core with
      | some b => dropEntry (dropCmdLeaf (markResend (modFlight s fun f =>
          { f with reads := f.reads.filter fun x => x.id ≠ id }) r) r.core r.cmd) r.core b.ctx r.va
      | none => s)
  | none => .next s

/-- STALE_GENERATION_RETURN (10 R267): a request of an old generation comes back and is translated again. -/
def execStaleGenerationReturn (id : Nat) (s : State) : Host.Outcome State Fault Refusal :=
  match getReq s id with
  | some r => event s (r.stage = .atHome && staleReq s r)
      (let s := dropEntry s r.thread.core r.ctx r.va
      let s := match r.copy with
        | some g => dropCmdLeaf s r.thread.core g.cmd
        | none => s
      let s := if r.visitor then
          foldSt (fun s i => dropWord s r.die (lineKey (reqPlace r) (reqAddr r)) i) s (wordsOf r.bytes) else s
      startWalk (modReq s id fun r => { r with
          leaf := none, visitor := false, stage := .translate, back := r.leaf.map Leaf.size }) r.thread.core r.ctx
        r.va false)
  | none => returnRead s id

/-! ## Link buffers (10 R259) -/

/-- Register one word at its home for a link buffer, which takes its bytes; on a page that is being published no
registration is made, and the home takes them (15 R375). A store of part of a word that is owner-lost or has an error is
not performed (10 R268, 18 R428). -/
def bufferWord (s : State) (buf : Nat) (p : Word) (base i : Nat) (bs : List (Nat × Nat × Byte)) : State :=
  let a := base + 4 * i
  let w := overlay (currentWord s p a) i bs
  let s := storedElsewhere (recallWord s p a) p a
  if (wordRefused s p base i bs).isSome then s
  else if publishingAt s p a then storeWord s p base i bs
  else
  let s := if coversWord bs i then clearBad s (locNum p a) 4 else s
  let s := modReg (registerLine s p a) p a fun r => { r with owner := BitVec.ofNat 3 (buf + 5), lost := false }
  modFlight (markDirty s p a) fun f => { f with linkWords := f.linkWords ++
    [{ buf := buf, key := lineKey p a, home := homeDie p a, word := i, data := w }] }

/-- The placement under which the exported window lies (16 R386, R387): frames of the HBM tier under GEO.QUAD. -/
def windowPlace : Word := geoQuad

/-- LINK_BUFFER_STORE (10 R259): bytes that a peer or the host stores at a physical address. -/
def execLinkBufferStore (buf : BitVec 2) (addr : BitVec 52) (data : List (BitVec 8)) (s : State) :
    Host.Outcome State Fault Refusal :=
  let a := addr.toNat
  let p := windowPlace
  let base := alignDown a 128
  let bs := (List.range data.length).map fun i => (a % 128 + i, 0, data.getD i 0)
  let inside := s.host.winBase.toNat ≤ a && a + data.length ≤ s.host.winBase.toNat + s.host.winSize
  event s (buf.toNat < 3 && 0 < data.length && a % 128 + data.length ≤ 128 && (buf = 2 || inside)
      && (homeCode s (homeDie p a) p a).isNone && !placeBeyond p base 128 && !frozenAt s p a && !throttledAt s p a
      && !homeTested s p a)
    (foldSt (fun s i =>
      if (regWord s p (base + 4 * i)).owner = BitVec.ofNat 3 (buf.toNat + 5) then
        modFlight s fun f => { f with linkWords := f.linkWords.map fun w =>
          if w.buf = buf.toNat && w.key = lineKey p base && w.word = i then { w with data := overlay w.data i bs } else w }
      else bufferWord s buf.toNat p base i bs) s (wordsOf bs))

/-- LINK_BUFFER_WRITEBACK (10 R259): the oldest word leaves the buffer for its home. -/
def execLinkBufferWriteback (buf : BitVec 2) (s : State) : Host.Outcome State Fault Refusal :=
  match s.flight.linkWords.find? fun w => w.buf = buf.toNat with
  | some w => .next (recallWord s (keyPlace w.key) (keyAddr w.key + 4 * w.word))
  | none => .next s

end Sys2Proof.Machine
end

