-- ==== Sys2Proof/Machine/Memory.lean ====
section
/-! DEFINITION. Memory instructions (11 R271 to R295), SLDP and SSTP (08 R202), LSAVE and LREST (07 R194). -/
namespace Sys2Proof.Machine

/-! ## Shared forms -/

/-- A whole-split guard (03 R72, 11 R272): a disagreement raises UNIFORMITY; false in every lane, no effect. -/
def wholeGuard (s : State) (c : GC) (g : Nat) (e : Eff) : Eff :=
  chk [(predMixed c g, cUNIFORMITY)] (if guarded c g = 0 then .retire s else e)

/-- Bytes of an LDP or STP width with its X bit (11 R276, R279). -/
def ldpBytes (w : BitVec 2) (x : BitVec 1) : Nat := if w = 3 then (if x = 1 then 16 else 8) else 2 ^ w.toNat

/-- Registers that n bytes take. -/
def regsFor (n : Nat) : Nat := if n ≤ 4 then 1 else n / 4

/-- The lane addresses of a pool instruction, in the lanes given (11 R273). -/
def poolLanes (c : GC) (a : Nat) (lanes : List Nat) : List (Nat × Word) :=
  lanes.map fun i => (i, vreg c a i + poolOffset (grpLit c))

/-- The bytes of registers from v on in a lane, as a number. -/
def laneData (c : GC) (v k i : Nat) : BitVec 128 :=
  (List.range k).foldl (fun x j => x ||| ((vreg c (v + j) i).zeroExtend 128 <<< (32 * j))) 0

/-- Hold the group's later memory instructions until an acquire is performed (07 R164). -/
def setAcquire (s : State) (c : GC) (id : Nat) : State :=
  modGrp s c.core c.g fun r => { r with acquire := some id }

/-! ## LDP, STP, ATP, PFILL -/

/-- LDP (11 R276 to R278). -/
def execLdp (g : BitVec 3) (d a : BitVec 7) (w m : BitVec 2) (x : BitVec 1) (sc : BitVec 2) (s : State) :
    Host.Outcome State Fault Refusal :=
  grpInstr s true fun c =>
    let n := ldpBytes w x
    let k := regsFor n
    let uni := vtag c a.toNat = .uniform
    let ds := (List.range k).map (d.toNat + ·)
    let fe := m = 1 || m = 2
    let act := activeLanes c g.toNat
    memHold s c (!act.isEmpty) (a.toNat :: ds) <|
    chk (vecChecks c [(d.toNat, k)] [(a.toNat, 1)] (if uni then .uniform else .general) ++ [bankCheck c g.toNat (a.toNat :: ds)]) <|
      let ls := poolLanes c a.toNat (if uni then act.take 1 else act)
      if act.isEmpty then .retire s
      else poolChecks s c.core ls n n <|
        let l := targets s c.core n ls fun _ => if fe then .loadFe n (m = 2) else .load n
        match ownError s c.core l with
        | some o => .fault { code := cDATA_UNCORRECTABLE, addr := BitVec.ofNat 64 o }
        | none =>
          heldBy [(fullHolds c, 1), (landingFull s c.core l, 7)] <|
            let id := nextId s
            let e : PoolInst := { id := id, src := ⟨c.core, .grp c.g⟩, split := c.k
                                  use := .load (w.toNat < 2 && x = 1), dests := ds.map (physReg c.spl), nbytes := n
                                  lanes := guarded c g.toNat, uniform := uni, left := 0, pc := c.spl.pc
                                  flag := clauseFlag c.spl.clause, acquire := m = 3 }
            -- a uniform load is one access, whose value is kept as lane 0
            let s := issuePool (takeFlag (bumpId s) c) e none (if m = 3 then some sc else none)
              (if uni then l.map fun y => (0, y.2) else l)
            let waits := (getInst s id).any fun e => 0 < e.left
            let s := if m = 3 && waits then setAcquire s c id else s
            if fe && waits then .wait (onSplit s c fun y => { y with wait := .fullEmpty id }) else .retire s

/-- STP (11 R279). -/
def execStp (g : BitVec 3) (v a : BitVec 7) (w q : BitVec 2) (x : BitVec 1) (sc : BitVec 2) (s : State) :
    Host.Outcome State Fault Refusal :=
  grpInstr s true fun c =>
    let n := ldpBytes w x
    let k := regsFor n
    let rel := q.getLsbD 1
    let ns := a.toNat :: (List.range k).map (v.toNat + ·)
    memHold s c false ns <|
    chk (vecChecks c [] [(v.toNat, k), (a.toNat, 1)] .uniform ++ [bankCheck c g.toNat ns]) <|
      let ls := poolLanes c a.toNat (activeLanes c g.toNat)
      if ls.isEmpty then .retire s
      else poolChecks s c.core ls n n <|
        let l := targets s c.core n ls fun i => .store n (laneData c v.toNat k i) (q.getLsbD 0)
        let remote := l.any fun y => y.2.1.1 ≠ c.core
        heldBy [(remote && fullHolds c, 1), (rel && !grpReleases s c, 14)] <|
          let id := nextId s
          let e : PoolInst := { id := id, src := ⟨c.core, .grp c.g⟩, split := c.k, use := .none, dests := [], nbytes := n
                                lanes := guarded c g.toNat, uniform := false, left := 0, pc := c.spl.pc
                                flag := if remote then clauseFlag c.spl.clause else none }
          let s := bumpId s
          let s := if remote then takeFlag s c else s
          let s := if rel then releaseAt s c.core sc else s
          .retire (issuePool s e (if rel then some sc else none) none l)

/-- The registers an atomic names and those that receive the old value (11 R281). -/
def atomicRegs (op : BitVec 4) : Nat × Nat :=
  let n := atomicSize op / 4
  (if op = 0x9 || op = 0xD then 2 * n else n, n)

/-- The operands b and b′ of an atomic in a lane (11 R281). -/
def atomicOperands (c : GC) (op : BitVec 4) (d i : Nat) : DWord × DWord :=
  if atomicSize op = 8 then (vpair c d i, if op = 0xD then vpair c (d + 2) i else 0)
  else ((vreg c d i).zeroExtend 64, if op = 0x9 then (vreg c (d + 1) i).zeroExtend 64 else 0)

/-- ATP (11 R280 to R282). -/
def execAtp (g : BitVec 3) (d a : BitVec 7) (o : BitVec 4) (q : BitVec 1) (sc : BitVec 2) (s : State) :
    Host.Outcome State Fault Refusal :=
  grpInstr s true fun c =>
    let n := atomicSize o
    let r := atomicRegs o
    let ns := a.toNat :: (List.range r.1).map (d.toNat + ·)
    memHold s c (guarded c g.toNat ≠ 0) ns <|
    chk ([(decide (0xE ≤ o.toNat), cILLEGAL), (outOfRange c d.toNat r.1 || outOfRange c a.toNat 1, cREG_RANGE)]
        ++ vecChecks c [(d.toNat, r.2)] [] .general ++ [bankCheck c g.toNat ns]) <|
      let ls := poolLanes c a.toNat (activeLanes c g.toNat)
      if ls.isEmpty then .retire s
      else poolChecks s c.core ls n n <|
        let l := targets s c.core n ls fun i => .atomic o (atomicOperands c o d.toNat i).1 (atomicOperands c o d.toNat i).2
        match ownError s c.core l with
        | some off => .fault { code := cDATA_UNCORRECTABLE, addr := BitVec.ofNat 64 off }
        | none =>
          heldBy [(fullHolds c, 1), (landingFull s c.core l, 7), (q = 1 && !grpReleases s c, 14)] <|
            let id := nextId s
            let sc? := if q = 1 then some sc else none
            let e : PoolInst := { id := id, src := ⟨c.core, .grp c.g⟩, split := c.k, use := .atomic
                                  dests := (List.range r.2).map fun j => physReg c.spl (d.toNat + j), nbytes := n
                                  lanes := guarded c g.toNat, uniform := false, left := 0, pc := c.spl.pc
                                  flag := clauseFlag c.spl.clause, acquire := q = 1 }
            let s := takeFlag (bumpId s) c
            let s := if q = 1 then releaseAt s c.core sc else s
            let s := issuePool s e sc? sc? l
            .retire (if q = 1 && (getInst s id).any (fun e => 0 < e.left) then setAcquire s c id else s)

/-- PFILL (11 R295). -/
def execPfill (g : BitVec 3) (n a : BitVec 7) (x : BitVec 1) (s : State) : Host.Outcome State Fault Refusal :=
  grpInstr s true fun c =>
    memHold s c false [n.toNat, a.toNat] <|
    chk [(outOfRange c n.toNat 1 || outOfRange c a.toNat 1, cREG_RANGE),
        (vtag c n.toNat ≠ .uniform || vtag c a.toNat ≠ .uniform, cSHAPE)] <|
      wholeGuard s c g.toNat <| chk [bankCheck c g.toNat [n.toNat, a.toNat]] <|
      let len := (vreg c n.toNat 0).toNat
      let ad := vreg c a.toNat 0 + poolOffset (grpLit c)
      if !aligned ad.toNat 16 || !aligned len 16 then .fault { code := cMISALIGN, addr := ad.zeroExtend 64 }
      else if len = 0 then .retire s
      else poolChecks s c.core [(0, ad)] 16 len <|
        let e : PoolInst := { id := nextId s, src := ⟨c.core, .grp c.g⟩, split := c.k, use := .none, dests := []
                              nbytes := len, lanes := c.spl.lanes, uniform := true, left := 0, pc := c.spl.pc }
        match poolTarget s c.core ad len with
        | some t => .retire (issuePool (bumpId s) e none none (fillPieces t.1 t.2 len (x = 1)))
        | none => .retire s

/-! ## SLDP, SSTP (08 R202) -/

/-- The checks on a front-end pool address: MISALIGN, then POOL_ADDR for high bits or R24. -/
def fePoolChecks (s : State) (core : Nat) (v : DWord) (n : Nat) (k : Eff) : Eff :=
  let at_ : DWord := (low v).zeroExtend 64
  if !aligned v.toNat n then .fault { code := cMISALIGN, addr := at_ }
  else if 2 ^ 32 ≤ v.toNat || (poolTarget s core (low v) n).isNone then .fault { code := cPOOL_ADDR, addr := at_ }
  else if poolCut s core (low v) n then .fault { code := cLINK_DOWN, addr := at_ }
  else k

/-- SLDP (08 R202). -/
def execSldp (d a : BitVec 6) (w : BitVec 2) (sx : BitVec 1) (s : State) : Host.Outcome State Fault Refusal :=
  feInstr s false fun c =>
    let n := 2 ^ w.toNat
    if sregsPending s c [d.toNat, a.toNat] then .hold 2
    else fePoolChecks s c.core (sreg c a.toNat) n <|
      let l := targets s c.core n [(0, low (sreg c a.toNat))] fun _ => .load n
      match ownError s c.core l with
      | some o => .fault { code := cDATA_UNCORRECTABLE, addr := BitVec.ofNat 64 o }
      | none =>
        if flagFull c.blk.fe.flags c.blk.fe.clause then .hold 1
        else if landingFull s c.core l then .hold 7
        else
          let e : PoolInst := { id := nextId s, src := ⟨c.core, .fe⟩, split := 0, use := .scalar (sx = 1)
                                dests := [d.toNat], nbytes := n, lanes := 1, uniform := true, left := 0
                                pc := c.blk.fe.pc, flag := clauseFlag c.blk.fe.clause }
          .retire (issuePool (takeFlagFe (bumpId s) c) e none none l)

/-- SSTP (08 R202). -/
def execSstp (a b : BitVec 6) (w : BitVec 2) (s : State) : Host.Outcome State Fault Refusal :=
  feInstr s false fun c =>
    let n := 2 ^ w.toNat
    if sregsPending s c [a.toNat, b.toNat] then .hold 2
    else fePoolChecks s c.core (sreg c a.toNat) n <|
      let l := targets s c.core n [(0, low (sreg c a.toNat))] fun _ => .store n ((sreg c b.toNat).zeroExtend 128) false
      let remote := l.any fun y => y.2.1.1 ≠ c.core
      if remote && flagFull c.blk.fe.flags c.blk.fe.clause then .hold 1
      else
        let e : PoolInst := { id := nextId s, src := ⟨c.core, .fe⟩, split := 0, use := .none, dests := [], nbytes := n
                              lanes := 1, uniform := true, left := 0, pc := c.blk.fe.pc
                              flag := if remote then clauseFlag c.blk.fe.clause else none }
        let s := bumpId s
        .retire (issuePool (if remote then takeFlagFe s c else s) e none none l)

/-! ## LSAVE, LREST (07 R194) -/

/-- The 24 bytes of a loop level (04 R103). -/
def levelBytes (lv : LoopLevel) : List Byte :=
  natBytes 4 lv.count.toNat ++ natBytes 4 lv.start.toNat ++ natBytes 4 lv.stop.toNat ++ natBytes 4 lv.iter.toNat
    ++ [BitVec.ofNat 8 lv.stages, BitVec.ofNat 8 lv.wbase, BitVec.ofNat 8 lv.wsize, BitVec.ofNat 8 lv.woff]
    ++ natBytes 4 0

/-- The bytes of up to four levels; an inactive one is zero. -/
def levelsBytes (ls : List LoopLevel) : List Byte :=
  (List.range 4).flatMap fun i => match ls[i]? with
    | some lv => levelBytes lv
    | none => natBytes 24 0

/-- The 112-byte image of a split's loop state (07 R194). -/
def loopImage (x : Split) : List Byte :=
  levelsBytes x.levels ++ [BitVec.ofNat 8 x.levels.length, BitVec.ofNat 8 x.armBase, BitVec.ofNat 8 x.armSize]
    ++ natBytes 13 0

/-- A level from its 24 bytes. -/
def levelOf (b : List Byte) : LoopLevel :=
  let at_ (o n : Nat) : Nat := bytesNat ((b.drop o).take n)
  { count := BitVec.ofNat 32 (at_ 0 4), start := BitVec.ofNat 32 (at_ 4 4), stop := BitVec.ofNat 32 (at_ 8 4)
    iter := BitVec.ofNat 32 (at_ 12 4), stages := at_ 16 1, wbase := at_ 17 1, wsize := at_ 18 1, woff := at_ 19 1 }

/-- The split after its levels are cleared (07 R194). -/
def clearLoops (x : Split) : Split := { x with levels := [], armBase := 0, armSize := 0 }

/-- The split with the loop state of an image of legal depth (07 R194). The predicates p4 to p7 that the levels of before
displaced stay displaced (log entry 135). -/
def restoreLoops (x : Split) (b : List Byte) : Split :=
  { x with
    levels := (List.range ((b.getD 96 0).toNat)).map fun i => levelOf ((b.drop (24 * i)).take 24)
    armBase := (b.getD 97 0).toNat, armSize := (b.getD 98 0).toNat }

/-- The image an LREST has read: its seven 16-byte accesses. -/
def readImage (e : PoolInst) : List Byte := (List.range 7).flatMap fun i => natBytes 16 (tgetD 0 i e.vals).toNat

/-- A loop-state access at a checked address: seven accesses of 16 bytes, in ascending order. -/
def loopAccess (c : GC) (t : Nat × Nat) (save : Bool) : List Access :=
  (List.range 7).map fun i =>
    (i, (t.1, t.2 + 16 * i),
      if save then .store 16 (BitVec.ofNat 128 (bytesNat (((loopImage c.spl).drop (16 * i)).take 16))) false else .load 16)

/-- LSAVE and LREST up to their access; own pool at once, another's with a wait. -/
def loopState (s : State) (a : Nat) (save : Bool) (done : GC → State → PoolInst → Eff) : Host.Outcome State Fault Refusal :=
  grpInstr s true fun c =>
    memHold s c false [a] <|
    chk [(outOfRange c a 1, cREG_RANGE), (vtag c a ≠ .uniform, cSHAPE), bankCheck c 0 [a]] <|
      let ad := vreg c a 0 + poolOffset (grpLit c)
      poolChecks s c.core [(0, ad)] 16 112 <|
      match poolTarget s c.core ad 112 with
      | none => .fault { code := cPOOL_ADDR }
      | some t =>
        let l := loopAccess c t save
        match ownError s c.core l with
        | some o => .fault { code := cDATA_UNCORRECTABLE, addr := BitVec.ofNat 64 o }
        | none =>
          heldBy [(landingFull s c.core l, 7)] <|
            let id := nextId s
            let e : PoolInst := { id := id, src := ⟨c.core, .grp c.g⟩, split := c.k, use := if save then .lsave else .lrest
                                  dests := [], nbytes := 16, lanes := c.spl.lanes, uniform := true, left := 0
                                  pc := c.spl.pc }
            let s := issuePool (bumpId s) e none none l
            match getInst s id with
            | some e => if e.left = 0 && e.acks = 0 then done c (endInst s e) e
                else .wait (onSplit s c fun x => { x with wait := .poolInst id })
            | none => .retire s

/-- LSAVE (07 R194). -/
def execLsave (a : BitVec 7) (s : State) : Host.Outcome State Fault Refusal :=
  loopState s a.toNat true fun c s _ => .retire (onSplit s c clearLoops)

/-- LREST (07 R194): a depth above 4 raises LOOP_NEST. -/
def execLrest (a : BitVec 7) (s : State) : Host.Outcome State Fault Refusal :=
  loopState s a.toNat false fun c s e =>
    let b := readImage e
    chk [(4 < (b.getD 96 0).toNat, cLOOP_NEST)] (.retire (onSplit s c fun x => restoreLoops x b))

/-! ## STG (11 R284 to R286) -/

/-- The global address of a lane (11 R273). -/
def globalAddr (c : GC) (a i : Nat) : DWord := vpair c a i + globalOffset (grpLit c)

/-- The bytes of an STG that fall in one 128-byte line, lanes ascending: (address in the line, lane, byte). -/
def lineBytes (ls : List (Nat × Nat)) (base n : Nat) (data : Nat → BitVec 128) : List (Nat × Nat × Byte) :=
  (ls.filter fun e => alignDown e.2 128 = base).flatMap fun e =>
    (List.range n).map fun j => (e.2 % 128 + j, e.1, (data e.1).extractLsb' (8 * j) 8)

/-- The lines that some addresses lie in, in the order of the lowest lane of each (11 R285, R286). -/
def linesOf (ls : List (Nat × Nat)) : List Nat :=
  ls.foldl (fun b e => if b.contains (alignDown e.2 128) then b else b ++ [alignDown e.2 128]) []

/-- The watchpoints of the issuing core see the lanes of an STG or ATG at issue (17 R409). -/
def globalWatch (s : State) (core : Nat) (who : Who) (pc : Word) (kind n : Nat) (ls : List (Nat × Nat)) (data : Nat → DWord) :
    State :=
  watchChecks s core true kind n core (threadHandle s ⟨core, who⟩) pc (ls.map fun e => (e.2, data e.1))

/-- STG (11 R284 to R286). -/
def execStg (g : BitVec 3) (v a : BitVec 7) (w : BitVec 2) (q : BitVec 3) (sc : BitVec 2) (s : State) :
    Host.Outcome State Fault Refusal :=
  grpInstr s true fun c =>
    let n := 2 ^ w.toNat
    let k := regsFor n
    let rel := q.getLsbD 0
    let wake := q.getLsbD 1
    let ns := a.toNat :: (a.toNat + 1) :: (List.range k).map (v.toNat + ·)
    memHold s c false ns <|
    chk ([(q.getLsbD 2, cILLEGAL), (wake && w ≠ 3, cILLEGAL)]
        ++ vecChecks c [] [(v.toNat, k), (a.toNat, 2)] .uniform ++ [bankCheck c g.toNat ns]) <|
      let ls := (activeLanes c g.toNat).map fun i => (i, (globalAddr c a.toNat i).toNat)
      match ls.find? fun e => !aligned e.2 n with
      | some e => .fault { code := cMISALIGN, addr := BitVec.ofNat 64 e.2 }
      | none =>
        if ls.isEmpty then .retire s
        else if rel && !grpReleases s c then .hold 14
        else
          let data := laneData c v.toNat k
          let ep := (getDie s (coreDie c.core)).epoch
          let s := if rel then releaseAt s c.core sc else s
          let s := globalWatch s c.core (.grp c.g) c.spl.pc 1 n ls fun i => firstBytes n ((data i).truncate 64)
          let op : GlobalOp := if wake then (if rel then .relWake sc else .wake) else if rel then .relStore sc else .store
          let inst := nextId s
          let s := bumpId s
          let send (s : State) (base : Nat) (bs : List (Nat × Nat × Byte)) : State :=
            issueReq (bumpId s)
              { id := nextId s, inst := inst, thread := ⟨c.core, .grp c.g⟩, split := c.k, die := coreDie c.core
                ctx := c.blk.ctx, pc := c.spl.pc, va := base, op := op, bytes := bs
                fm := w ++ q ++ sc, issued := c.grp.issued + 1, epoch := ep }
          -- a wake write is one access of a word, so that each lane is sent by itself (05 R136)
          .retire (if wake then
              foldSt (fun s e => send s e.2 (lineBytes [e] (alignDown e.2 128) n data)) s ls
            else foldSt (fun s base => send s base (lineBytes ls base n data)) s (linesOf ls))

/-! ## ATG (11 R280 to R283) -/

/-- ATG (11 R280 to R283): its lanes are sent once every page is translated; the split waits. -/
def execAtg (g : BitVec 3) (d a : BitVec 7) (o : BitVec 4) (q : BitVec 1) (sc : BitVec 2) (s : State) :
    Host.Outcome State Fault Refusal :=
  grpInstr s true fun c =>
    let n := atomicSize o
    let r := atomicRegs o
    let ns := a.toNat :: (a.toNat + 1) :: (List.range r.1).map (d.toNat + ·)
    memHold s c (guarded c g.toNat ≠ 0) ns <|
    chk ([(decide (0xE ≤ o.toNat), cILLEGAL), (outOfRange c d.toNat r.1 || outOfRange c a.toNat 2, cREG_RANGE)]
        ++ vecChecks c [(d.toNat, r.2)] [] .general ++ [bankCheck c g.toNat ns]) <|
      let ls := (activeLanes c g.toNat).map fun i => (i, (globalAddr c a.toNat i).toNat)
      match ls.find? fun e => !aligned e.2 n with
      | some e => .fault { code := cMISALIGN, addr := BitVec.ofNat 64 e.2 }
      | none =>
        if ls.isEmpty then .retire s
        else heldBy [(fullHolds c, 1), (q = 1 && !grpReleases s c, 14)] <|
          let id := nextId s
          let ep := (getDie s (coreDie c.core)).epoch
          let t := takeFlag (bumpId s) c
          let t := if q = 1 then releaseAt t c.core sc else t
          let t := modFlight t fun f => { f with atgs := f.atgs ++
            [{ id := id, src := ⟨c.core, .grp c.g⟩, split := c.k
               dests := (List.range r.2).map fun j => physReg c.spl (d.toNat + j), lanes := guarded c g.toNat, size := n
               flag := clauseFlag c.spl.clause, left := ls.length, acquire := if q = 1 then some sc else none }] }
          let t := foldSt (fun t e => issueReq (bumpId t)
            { id := nextId t, inst := id, thread := ⟨c.core, .grp c.g⟩, split := c.k, die := coreDie c.core, ctx := c.blk.ctx
              pc := c.spl.pc, va := e.2, lane := e.1, epoch := ep
              op := .atomic o (atomicOperands c o d.toNat e.1).1 (atomicOperands c o d.toNat e.1).2 (q = 1) sc }) t ls
          match (if atgSettled t id then atgFault t id else none) with
          | some (e, code) => .fault { code := code, addr := BitVec.ofNat 64 e.va }
          | none =>
            let t := globalWatch t c.core (.grp c.g) c.spl.pc 2 n ls fun _ => 0
            let t := if atgSettled t id then sendAtg t id else t
            let t := if q = 1 then setAcquire t c id else t
            .wait (onSplit t c fun x => { x with wait := .atg id })

/-! ## DRAINST, FENCE, INVR, AFENCE (11 R291 to R294) -/

/-- A store of the group is still to be acknowledged, or its fault to be reported. -/
def storesOut (s : State) (c : GC) : Bool :=
  s.flight.global.any fun r => r.thread = ⟨c.core, .grp c.g⟩ && isStore r.op && r.send.isNone

/-- DRAINST (11 R291). -/
def execDrainst (g : BitVec 3) (s : State) : Host.Outcome State Fault Refusal :=
  grpInstr s false fun c =>
    if acquireHolds c then .hold 14
    else wholeGuard s c g.toNat (if storesOut s c then .hold 14 else .retire s)

/-- FENCE (11 R292). -/
def execFence (g q : BitVec 3) (sc : BitVec 2) (s : State) : Host.Outcome State Fault Refusal :=
  let bad := q = 0 || 3 < q.toNat
  let rel := q.getLsbD 1
  let acq := q.getLsbD 0
  let fence (s : State) (core : Nat) : State :=
    let s := if rel then releaseAt s core sc else s
    if acq then acquireAt s core sc else s
  instr s false
    (some fun c =>
      if acquireHolds c then .hold 14
      else chk [(bad, cILLEGAL)] <|
        wholeGuard s c g.toNat (if rel && !grpReleases s c then .hold 14 else .retire (fence s c.core)))
    (some fun c =>
      chk [(bad, cILLEGAL)] <|
      if !fpred c g.toNat then .retire s
      else if rel && !feReleases s c.core then .hold 14 else .retire (fence s c.core))

/-- The keys of the visitor lines of a die that overlap a region of a context's addresses; pages that cannot be
translated are skipped (11 R293). -/
def regionKeys (s : State) (core ctx va n : Nat) (k : Nat) : Bool :=
  if n = 0 then false
  else (List.range ((va + n + 65535) / 65536 - va / 65536)).any fun i =>
    let piece := alignDown va 65536 + 65536 * i
    match (match cachedLeaf s core ctx piece with
      | some l => WalkRes.leaf l
      | none => walkPage s ctx piece) with
    | .leaf l =>
      let a := physAddr l piece
      placeSame (keyPlace k) = placeSame l.place && overlap (keyAddr k) 128 a 65536
        && overlap (piece + (keyAddr k - a)) 128 va n
    | .code _ => false

/-- INVR (11 R293). -/
def execInvr (g : BitVec 3) (n a : BitVec 7) (sc : BitVec 2) (s : State) : Host.Outcome State Fault Refusal :=
  grpInstr s true fun c =>
    let ns := [n.toNat, a.toNat, a.toNat + 1]
    memHold s c false ns <|
    chk [(sc.toNat < 2, cILLEGAL), (outOfRange c n.toNat 1 || outOfRange c a.toNat 2, cREG_RANGE),
        (vtag c n.toNat ≠ .uniform || vtag c a.toNat ≠ .uniform || vtag c (a.toNat + 1) ≠ .uniform, cSHAPE)] <|
      wholeGuard s c g.toNat <| chk [bankCheck c g.toNat ns] <|
      let len := (vreg c n.toNat 0).toNat
      let va := (globalAddr c a.toNat 0).toNat
      .retire (if 2 ^ 20 < len then flashClear s (coreDie c.core) fun _ => true
        else flashClear s (coreDie c.core) (regionKeys s c.core c.blk.ctx va len))

/-- Write a dirty home line back to memory and keep it clean. -/
def cleanHome (s : State) (p : Word) (a : Nat) : State :=
  match tfind (lineKey p a) (getDie s (homeDie p a)).home with
  | some h => if h.dirty then putHome (writeBack s (lineKey p a) h) p a { h with dirty := false } else s
  | none => s

/-- Every dirty line with bytes of the group's global stores goes to memory, from the visitor and the home partitions of
every die (11 R294). -/
def writeBackStored (s : State) (ks : List Nat) : State :=
  foldSt (fun s k =>
    let s := foldSt (fun s d => drainLine s d k fun _ => true) s (List.range 4)
    if placeRemote (keyPlace k) then s else cleanHome s (keyPlace k) (keyAddr k)) s ks

/-- AFENCE (11 R294): the release and the write-back, the acquire; then every die acknowledges. -/
def execAfence (g : BitVec 3) (s : State) : Host.Outcome State Fault Refusal :=
  grpInstr s false fun c =>
    if acquireHolds c then .hold 14
    else wholeGuard s c g.toNat <|
      if !grpReleases s c then .hold 14
      else
        let id := nextId s
        let t := releaseAt (bumpId s) c.core 3
        let t := modGrp (writeBackStored t c.grp.stored) c.core c.g fun r => { r with acquire := some id }
        let t := acquireAt t c.core 3
        let dies := (List.range 4).filter fun d => dieAdmitted t d
        let t := modFlight t fun f => { f with scans := f.scans ++
          [{ id := id, thread := ⟨c.core, .grp c.g⟩, split := c.k, ctx := c.blk.ctx, va := 0, dies := dies }] }
        .wait (onSplit t c fun x => { x with wait := .afence id })

/-- A die discards its clean home and visitor lines whose frames are mapped more than once (11 R294). -/
def dropDup (s : State) (d : Nat) : State :=
  modDie s d fun x => { x with
    home := x.home.filter fun e => e.2.dirty || !e.2.dup
    visitor := x.visitor.filter fun e => e.2.owned ≠ 0 || !e.2.dup }

/-- AFENCE_DIE_ACK (11 R294). -/
def execAfenceDieAck (id : Nat) (die : BitVec 2) (s : State) : Host.Outcome State Fault Refusal :=
  match s.flight.scans.find? fun x => x.id = id with
  | some x =>
    event s (x.dies.contains die.toNat && (match x.thread.who with
        | .grp g => ((getGrp s x.thread.core g).map fun r => decide (r.acquire = some id)).getD false
        | .fe => false))
      (modFlight (dropDup s die.toNat) fun f => { f with scans := f.scans.map fun y =>
        if y.id = id then { y with dies := y.dies.filter (· ≠ die.toNat) } else y })
  | none => .next s

/-! ## Store faults (11 R287 to R290) -/

/-- The address of a byte of a request. -/
def byteAddr (r : GlobalReq) (b : Nat × Nat × Byte) : Nat := alignDown r.va 128 + b.1

/-- The last byte stored at an address in the line: where lanes overlap, the higher lane's (11 R287). -/
def lastByte (bs : List (Nat × Nat × Byte)) (i : Nat) : Option (Nat × Nat × Byte) := (bs.filter fun b => b.1 = i).getLast?

/-- The code of a refused request. -/
def refusedCode (r : GlobalReq) : Byte :=
  match r.stage with
  | .faulted c => c
  | _ => 0

/-- The bytes that some requests were refused, with their addresses and the code of each byte's word (10 R268). -/
def refusedBytes (l : List GlobalReq) : List ((Nat × Nat × Byte) × Byte) :=
  l.flatMap fun r => r.bytes.map fun b => ((byteAddr r b, b.2), tgetD (refusedCode r) (b.1 / 4) r.codes)

/-- Put a number into an ascending list, once. -/
def insertNat (n : Nat) : List Nat → List Nat
  | [] => [n]
  | x :: l => if n < x then n :: x :: l else if n = x then x :: l else x :: insertNat n l

/-- The aligned 8-byte words that some bytes lie in, ascending. -/
def wordsUp (bs : List ((Nat × Nat × Byte) × Byte)) : List Nat := bs.foldl (fun l b => insertNat (b.1.1 / 8) l) []

/-- The store-fault record of an aligned 8-byte word, with the code of its lowest byte that was refused (11 R287, log entry
151). -/
def wordRecord (r : GlobalReq) (skid : Byte) (bs : List ((Nat × Nat × Byte) × Byte)) (w : Nat) : Option StoreFaultRec :=
  let mine := bs.filter fun b => b.1.1 / 8 = w
  let put := (List.range 8).filterMap fun j => lastByte (mine.map Prod.fst) (8 * w + j)
  match put with
  | [] => none
  | b :: _ => some
    { pc := r.pc, lanes := (r.again.map StoreFaultRec.lanes).getD (maskOf 32 (mine.map fun b => b.1.2.1))
      addr := BitVec.ofNat 64 b.1, mask := maskOf 8 (put.map fun b => b.1 % 8)
      bytes := BitVec.ofNat 64 (bytesNat (put.map fun b => b.2.2))
      code := ((mine.find? fun x => x.1.1 = b.1).map Prod.snd).getD 0, fm := r.fm, skid := skid, count := put.length }

/-- The store-fault records of the refused requests of an instruction: one for each aligned 8-byte word, ascending (11
R287). -/
def reportRecords (l : List GlobalReq) (skid : Byte) : List StoreFaultRec :=
  match l with
  | [] => []
  | r :: _ => (wordsUp (refusedBytes l)).filterMap (wordRecord r skid (refusedBytes l))

/-- Append store-fault records to a group's queue of 16; one too many is discarded and sets OVF (11 R287). -/
def appendRecords (r : Group) (l : List StoreFaultRec) : Group :=
  let room := 16 - r.sfrq.length
  { r with sfrq := r.sfrq ++ l.take room, sfOvf := r.sfOvf || room < l.length }

/-- A wait that keeps its place across a fault; WAITW compares again (11 R289, 07 R163). -/
def keepsWait : Wait → Bool
  | .none => false
  | .waitw _ => false
  | _ => true

/-- The split of a group at which an imprecise fault finds it: the lowest that exists (11 R289). -/
def faultSplit (r : Group) (k : Nat) : Option (Nat × Split) :=
  match r.splits.find? fun e => e.1 = k with
  | some e => some e
  | none => r.splits.head?

/-- The requests of one instruction that have been refused, in lane order (11 R287). -/
def refusedOf (s : State) (r : GlobalReq) : List GlobalReq :=
  if r.inst = 0 then [r] else s.flight.global.filter fun q => q.inst = r.inst && isStore q.op && (match q.stage with
    | .faulted _ => true
    | _ => false)

/-- Every request of the store's instruction has been performed or refused: its fault may be reported (11 R287). -/
def storeSettled (s : State) (r : GlobalReq) : Bool :=
  r.inst = 0 || (s.flight.global.all fun q => q.inst ≠ r.inst || (match q.stage with
    | .translate => false
    | .atHome => false
    | _ => true))

/-- The address and the code that the fault record of refused requests gives: those of the lowest byte refused (log entry
151). -/
def refusedAddr (l : List GlobalReq) : DWord := (((reportRecords l 0).head?).map StoreFaultRec.addr).getD 0

/-- The code of the lowest byte refused. -/
def refusedFirst (l : List GlobalReq) : Byte := (((reportRecords l 0).head?).map StoreFaultRec.code).getD 0

/-- The instructions that a group has issued since a store and before the boundary at which it stands, or at which a fault left
it: the prefixes of a unit held there, and of one that a fault gave back, are not counted (11 R289). -/
def skidOf (r : GlobalReq) (x : Group) : Byte :=
  BitVec.ofNat 8 (min 255 (x.issued - r.issued - (if x.run = .faulted then x.undone else openPrefixes x)))

/-- A store-fault report makes a group FAULTED where it stands: GEN, SY.FAULT and the record (11 R289). -/
def impreciseFault (s : State) (r : GlobalReq) (l : List GlobalReq) (g : Nat) (code : Byte) (x : Group) : State :=
  let skid := skidOf r x
  let s := modGrp s r.thread.core g fun y => appendRecords y (reportRecords l skid)
  match faultSplit x r.split with
  | some (k, sp) =>
    -- a comparison under way is given up: the WAITW compares again
    let s := forgetWaits s r.thread
    let s := groupFault s r.thread.core g k 1 code r.pc (unitStart sp.pre sp.pc) (refusedAddr l) 0xFFFF 0 skid
    modGrp s r.thread.core g fun y => { y with splits := y.splits.map fun e =>
      (e.1, { e.2 with wait := if keepsWait e.2.wait then e.2.wait else .none }) }
  | none => s

/-- The report finds a group that has exited: one imprecise record with the PC of the STG, restart PC 0xFFFFFFFF and
skid 255 (11 R289). One of a killed block is discarded (04 R113). -/
def exitedReport (s : State) (r : GlobalReq) (l : List GlobalReq) (g : Nat) (code : Byte) : State :=
  match getBlk s r.thread.core with
  | some b =>
    if b.killed then s
    else queueRecord s b.ctx
      { blockRecord s r.thread.core b (.grp g) code 1 with
        restart := 0xFFFFFFFF, pc := r.pc, addr := refusedAddr l, skid := 255, thread := some r.thread }
  | none => s

/-- The wait is one at which a store-fault report finds a waiting group (11 R289); the others end their unit first. -/
def reportWait : Wait → Bool
  | .none => true
  | .fullEmpty _ => true
  | .barrierReply _ => true
  | .barrier _ _ _ _ _ => true
  | .dqpop _ _ _ => true
  | .waitw _ => true
  | .waitj _ _ => true
  | _ => false

/-- The split stands at a unit boundary: at the first word of a unit, or held at issue in a unit of which only prefixes
have issued, which then issues again from its first word (11 R289). -/
def atReport (x : Split) : Bool := (atBoundary x.pre || x.held ≠ 0) && reportWait x.wait

/-- Every split of the group stands at a unit boundary or in such a wait: the report takes effect there (11 R289). -/
def reportTakes (x : Group) : Bool := x.splits.all fun e => atReport e.2

/-- STORE_FAULT_REPORT (11 R287, R289). -/
def execStoreFaultReport (id : Nat) (s : State) : Host.Outcome State Fault Refusal :=
  match getReq s id with
  | none => .next s
  | some r =>
    match r.stage, r.thread.who with
    | .faulted _, .grp g =>
      let l := refusedOf s r
      let code := refusedFirst l
      let drop (s : State) : State := foldSt (fun s q => dropReq s q.id) s l
      let due : Bool := isStore r.op && r.send.isNone && storeSettled s r
      match getGrp s r.thread.core g with
      | none => event s due (drop s)
      | some x =>
        event s (due && (x.run = .killed || x.run = .exited || x.run = .faulted || reportTakes x))
          (let s := drop s
          if x.run = .killed then s
          else if x.run = .exited then exitedReport s r l g code
          else if x.run = .faulted then
            modGrp s r.thread.core g fun y => appendRecords y (reportRecords l (skidOf r x))
          else impreciseFault s r l g code x)
    | _, _ => .next s

end Sys2Proof.Machine
end

