-- ==== Sys2Proof/Machine/Shared.lean ====
section
/-! DEFINITION. The classes that both the front-end and the groups execute (03 R72): operands, guards, destinations. -/
namespace Sys2Proof.Machine

/-- The thread that issues: a split of a group, or a front-end. -/
inductive Iss where
  | grp (c : GC)
  | fe (c : FC)

/-- Its core. -/
def issCore : Iss → Nat
  | .grp c => c.core
  | .fe c => c.core

/-- Its block. -/
def issBlk : Iss → Block
  | .grp c => c.blk
  | .fe c => c.blk

/-- Its thread. -/
def issThread : Iss → Thread
  | .grp c => ⟨c.core, .grp c.g⟩
  | .fe c => ⟨c.core, .fe⟩

/-- Its split. -/
def issSplit : Iss → Nat
  | .grp c => c.k
  | .fe _ => 0

/-- The PC of the instruction. -/
def issPc : Iss → Word
  | .grp c => c.spl.pc
  | .fe c => c.blk.fe.pc

/-- The unit's LIT. -/
def issLit : Iss → Option (BitVec 24)
  | .grp c => grpLit c
  | .fe c => feLit c

/-- The 64-bit operand of field n: s[n], or the pair at v[n] (05 R141). -/
def opWide (i : Iss) (n : Nat) : DWord :=
  match i with
  | .grp c => vpair c n 0
  | .fe c => sreg c n

/-- The 32-bit operand of field n. -/
def opWord (i : Iss) (n : Nat) : Word :=
  match i with
  | .grp c => vreg c n 0
  | .fe c => low (sreg c n)

/-- Write a 32-bit result; the front-end's register takes it zero-extended, also the job number of JENQ and JSPAWN (log entry
142). -/
def putWord (s : State) (i : Iss) (n : Nat) (v : Word) : State :=
  match i with
  | .grp c => writeReg s c n (lanesOf c.spl.lanes) fun _ => v
  | .fe c => writeS s c.core n (v.zeroExtend 64)

/-- Write a 64-bit result: s[n], or two uniform words. -/
def putWide (s : State) (i : Iss) (n : Nat) (v : DWord) : State :=
  match i with
  | .grp c => writeReg (writeReg s c n (lanesOf c.spl.lanes) fun _ => v.truncate 32) c (n + 1) (lanesOf c.spl.lanes)
      fun _ => v.extractLsb' 32 32
  | .fe c => writeS s c.core n v

/-- Write the predicate that receives a success or a result, in every lane of the split (03 R70). -/
def putDest (s : State) (i : Iss) (p : Nat) (v : Bool) : State :=
  match i with
  | .grp c => setUniform (writePred s c.core c.g p c.spl.lanes (if v then c.spl.lanes else 0)) c p false
  | .fe c => writeFpred s c.core p v

/-- What field [23:21] is: a guard, or the predicate that receives the result (03 R70). -/
inductive Field23 where
  | guard (g : BitVec 3)
  | dest (p : BitVec 3)

/-- An instruction of a shared class: the registers it names in a group (first, how many) and on the front-end, whether
its fields are illegal, whether it lacks privilege; then its own effect (03 R72, R73). -/
def sharedInstr (s : State) (lit : Bool) (regs : List (Nat × Nat)) (sregs : List Nat) (bad badFe : Bool)
    (priv : State → Nat → Bool) (fld : Field23) (f : Iss → Eff) : Host.Outcome State Fault Refusal :=
  instr s lit
    (some fun c =>
      let ns := regNames regs
      if regsPending s c ns then .hold 2
      else
        let staged := match fld with
          | .dest p => predStaged c p.toNat
          | .guard _ => false
        chk [(bad, cILLEGAL), (!priv s c.core, cPRIVILEGE), (regs.any fun r => outOfRange c r.1 r.2, cREG_RANGE),
          (ns.any (fun n => vtag c n ≠ .uniform) || staged, cSHAPE)] <|
        match fld with
        | .dest _ => chk [bankCheck c 0 ns] (f (.grp c))
        | .guard g => wholeGuard s c g.toNat (chk [bankCheck c g.toNat ns] (f (.grp c))))
    (some fun c =>
      if sregsPending s c sregs then .hold 2
      else chk [(bad || badFe, cILLEGAL), (!priv s c.core, cPRIVILEGE)] <|
        match fld with
        | .dest _ => f (.fe c)
        | .guard g => if fpred c g.toNat then f (.fe c) else .retire s)

/-- No privilege is needed. -/
def anyOne (_ : State) (_ : Nat) : Bool := true

/-- The issuing thread starts to wait. -/
def startWait (s : State) (i : Iss) (w : Wait) : State :=
  match i with
  | .grp c => onSplit s c fun x => { x with wait := w }
  | .fe c => modFe s c.core fun e => { e with wait := w }

/-- The later memory instructions of a group are held while an acquire of it is outstanding (07 R164). -/
def issAcquires (i : Iss) : Bool :=
  match i with
  | .grp c => acquireHolds c
  | .fe _ => false

/-- A store of the thread has faulted and its fault has not been reported. -/
def faultUnreported (s : State) (t : Thread) : Bool :=
  s.flight.global.any fun r => r.thread = t && isStore r.op && r.send.isNone && (match r.stage with
    | .faulted _ => true
    | _ => false)

/-- What holds a message or wake at issue: an outstanding acquire, and before a release a store fault that the thread is to
take there (07 R164, 10 R260). -/
def sendHolds (s : State) (i : Iss) (rel : Bool) : List (Bool × Nat) :=
  [(issAcquires i, 14), (rel && faultUnreported s (issThread i), 14)]

/-- A release by the issuing thread may be performed (10 R260). -/
def issReleases (s : State) (i : Iss) : Bool :=
  match i with
  | .grp c => grpReleases s c
  | .fe c => feReleases s c.core

/-! ## Waits that have ended -/

/-- The unit of a waiting thread, as the state now has it: its core, the thread and split, the registers and predicates
to write, and the words of the unit. -/
structure Waiting where
  core : Nat
  who : Who
  split : Nat
  deriving DecidableEq, Repr

/-- The split of a waiting group. -/
def waitingSplit (s : State) (w : Waiting) : Option Split :=
  match w.who with
  | .grp g => (getGrp s w.core g).bind fun r => tfind w.split r.splits
  | .fe => none

/-- The wait of a thread. -/
def waitOf (s : State) (w : Waiting) : Wait :=
  match w.who with
  | .grp _ => ((waitingSplit s w).map Split.wait).getD .none
  | .fe => ((getBlk s w.core).map fun b => b.fe.wait).getD .none

/-- The cluster of a core is being pre-empted: its units still come to their end (05 R131). -/
def corePreempting (s : State) (core : Nat) : Bool := (coreCluster s core).any fun c => c.state = .preempting

/-- The thread goes on: it is neither stopped, but for a STEP or a pre-emption, nor FAULTED, EXITED or KILLED (07 R163,
17 R414). -/
def threadLive (s : State) (core : Nat) (who : Who) : Bool :=
  match getBlk s core with
  | none => false
  | some b =>
    let moves := (b.stepping.map Stepping.who) = some who || corePreempting s core
    match who with
    | .fe => (b.fe.run = .ready || b.fe.run = .active || b.fe.run = .waiting) && (!b.fe.stopped || moves)
    | .grp g => (match tfind g b.groups with
      | some r => (r.run = .ready || r.run = .active || r.run = .waiting) && (!r.stopped || moves)
      | none => false)

/-- A wait may end now: it is the thread's, and the thread goes on. -/
def canEnd (s : State) (w : Waiting) (x : Wait) : Bool := waitOf s w = x && threadLive s w.core w.who

/-- The wait has ended: the unit retires (03 R77, 07 R190). -/
def endWait (s : State) (w : Waiting) : State :=
  match w.who with
  | .grp g => modGrp s w.core g fun r =>
      match tfind w.split r.splits with
      | some x => unitRetire r w.split { x with wait := .none, pre := {} } x.pc x.unitEnd
      | none => r
  | .fe => modFe s w.core fun e => { e with wait := .none, pc := e.unitEnd + 4, pre := {} }

/-- A fault ends the wait: precise at the unit (03 R73). -/
def faultWait (s : State) (w : Waiting) (f : Flt) : State :=
  match w.who with
  | .grp g =>
    match waitingSplit s w with
    | some x => giveBack (groupFault (modSpl s w.core g w.split fun x => { x with wait := .none }) w.core g w.split 0 f.code
        x.unitEnd x.pc f.addr f.bar f.detail 0) w.core g x.pc x.unitEnd
    | none => s
  | .fe =>
    match getBlk s w.core with
    | some b => feFault (modFe s w.core fun e => { e with wait := .none, pc := b.fe.unitEnd, pre := { start := some b.fe.pc } })
        w.core f
    | none => s

/-- Write a predicate for a waiting thread (03 R70). -/
def destWait (s : State) (w : Waiting) (p : Nat) (v : Bool) : State :=
  match w.who with
  | .grp g =>
    match waitingSplit s w with
    | some x => modSpl (writePred s w.core g p x.lanes (if v then x.lanes else 0)) w.core g w.split fun x =>
        { x with uniform := if p = 0 then x.uniform else putBit x.uniform p false }
    | none => s
  | .fe => writeFpred s w.core p v

/-- Write registers for a waiting thread: the words of a value, from register n of a group, or the 64-bit pieces from
s[n]. -/
def regsWait (s : State) (w : Waiting) (n : Nat) (words : List Word) (wide : List DWord) : State :=
  match w.who with
  | .grp g =>
    match getBlk s w.core, waitingSplit s w with
    | some b, some x => modGrp s w.core g fun r =>
        { r with regs := (List.range words.length).foldl (fun t j =>
            putReg b.hdr t (physReg x (n + j)) (lanesOf x.lanes) fun _ => words.getD j 0) r.regs }
    | _, _ => s
  | .fe => foldSt (fun s j => writeS s w.core (n + j) (wide.getD j 0)) s (List.range wide.length)

end Sys2Proof.Machine
end

