-- ==== Sys2Proof/Machine/Barrier.lean ====
section
/-! DEFINITION. Barrier instructions and the steps of barrier operations between cores (14 R341 to R359). -/
namespace Sys2Proof.Machine

/-! ## Addresses (14 R342) -/

/-- The core and index of a barrier address, after the checks at issue: reserved bits, and a member index below W·H. -/
def barAim (s : State) (core : Nat) (a : Word) : Option (Nat × Nat) :=
  if bitsOf a.toNat 30 16 ≠ 0 then none
  else
    let n := bitsOf a.toNat 15 8
    let i := bitsOf a.toNat 7 0
    if a.getLsbD 31 then some (n, i)
    else match coreCluster s core with
      | some cl => if n < cl.w * cl.h then some (memberCore cl n, i) else none
      | none => none

/-- BARRIER_ERR at an address. -/
def barErr (a : BitVec 16) : Flt := { code := cBARRIER_ERR, bar := a }

/-- The address of a local object as a record shows it. -/
def localSpot (b : Block) (n : Nat) : BitVec 16 := BitVec.ofNat 16 (b.member * 256 + n)

/-- The object of another core for a block of the same context (14 R342). -/
def barTarget (s : State) (core dst i : Nat) : Option Barrier :=
  if dst < 192 && (getBlk s dst).isSome && (getBlk s core).map Block.ctx = (getBlk s dst).map Block.ctx then getBar s dst i
  else none

/-- The thread is a member, and whether it has arrived. -/
def hasArrived (o : Barrier) : Who → Bool
  | .fe => o.fearr
  | .grp g => o.larr.getLsbD g

/-- The member's arrival is made. -/
def arrive (o : Barrier) (who : Who) : Barrier :=
  let o := { o with touched := true, arrived := true }
  match who with
  | .fe => { o with fearr := true }
  | .grp g => { o with larr := putBit o.larr g true }

/-- Put an operation on its way to another core, and wait for its acknowledgement (14 R342). -/
def sendBarReq (s : State) (i : Iss) (dst index : Nat) (spot : BitVec 16) (op : BarOp) (loc : Nat) : Eff :=
  if dst < 192 && !routeUp s (coreDie (issCore i)) (coreDie dst) then .fault { code := cLINK_DOWN, bar := spot }
  else
  let id := nextId s
  let t := bumpId (modFlight s fun f => { f with bars := f.bars ++
    [{ id := id, src := issThread i, split := issSplit i, member := (issBlk i).member, spot := spot, dst := dst
       index := index, op := op, loc := loc, via := viaOf s (coreDie (issCore i)) (coreDie dst) }] })
  .wait (startWait t i (.barrierReply id))

/-! ## Waits (14 R348, R357) -/

/-- What a read of an object tells a wait for a phase: its verdict, BARRIER_ERR, or not complete. -/
inductive Verdict where
  | done (ok : Bool)
  | err
  | open_
  deriving DecidableEq, Repr

/-- A wait reads an object (14 R348, R357). -/
def verdict (o : Barrier) (n : Word) : Verdict :=
  if phaseDone o n then .done (!phaseErr o n) else if o.state = 0 then .err else .open_

/-- An operation on an object of its own core follows the thread's earlier pool accesses there (14 R342, 10 R248): it is held
while one of them is still to be performed (log entry 150). -/
def ownTurn (s : State) (i : Iss) (e : Eff) : Eff := heldBy [(ownPending s (issThread i), 7)] e

/-- BWAIT, BTWAIT: the object is read; a phase that is not complete is waited for (14 R357). -/
def waitPhase (s : State) (i : Iss) (p : BitVec 3) (a : Word) (n : Word) (t : Option Nat) : Eff :=
  match barAim s (issCore i) a with
  | none => .fault (barErr (a.truncate 16))
  | some (core, k) =>
    -- a t of 0 polls once: the first read decides
    let expires := t.map fun t => if t = 0 then 0 else s.clk.cycle + t
    if core = issCore i then
      ownTurn s i <| match getBar s core k with
      | none => .fault (barErr (a.truncate 16))
      | some o => match verdict o n with
        | .done ok => .retire (putDest s i p.toNat ok)
        | .err => .fault (barErr (a.truncate 16))
        | .open_ =>
          if t = some 0 then .retire (putDest s i p.toNat false)
          else .wait (setWatch (startWait s i (.barrier (BitVec.ofNat 32 k) n p expires none)) core k)
    else
      let mine := ((coreCluster s (issCore i)).map fun cl => (clusterCores cl).contains core).getD false
      sendBarReq s i core k (a.truncate 16) (.read n p expires mine) 0

/-! ## Instructions -/

/-- A local object an instruction names; BARRIER_ERR at or beyond BARRIERS (14 R353). -/
def localObject (s : State) (i : Iss) (n : Nat) (f : Barrier → Eff) : Eff :=
  ownTurn s i <| match getBar s (issCore i) n with
    | some o => f o
    | none => .fault (barErr (localSpot (issBlk i) n))

/-- An IDLE object becomes ARMED: masks, arrivals, bytes and ECODE cleared (14 R349). -/
def armObject (o : Barrier) (parent : BitVec 16) : Barrier :=
  { o with lmask := 0, larr := 0, cmask := 0, carr := 0, femem := false, fearr := false, fwd := false, expb := 0, arrb := 0
           ecode := 0, blkh := 0, parent := parent, state := 1, touched := false, arrived := false, heldBatches := []
           leaving := 0, errNow := false }

/-- BINIT on an object that has nothing yet in its phase (14 R349). -/
def rearmObject (o : Barrier) (parent : Option (BitVec 16)) : Barrier :=
  { o with ecode := 0, eend := if o.state = 2 then o.phase else o.eend, state := 1, parent := parent.getD o.parent }

/-- Tell the parent that its child unlinks (14 R349, R354). -/
def unlinkParent (s : State) (core i : Nat) (t : Thread) : State :=
  match getBlk s core, getBar s core i, coreCluster s core with
  | some b, some o, some cl =>
    if o.parent = 0xFFFF then s
    else bumpId (modFlight s fun f => { f with bars := f.bars ++
      [{ id := nextId s, src := t, split := 0, member := b.member, spot := o.parent
         dst := memberCore cl (o.parent.toNat / 256), index := o.parent.toNat % 256, op := .unlink (BitVec.ofNat 16 b.member)
         via := viaOf s (coreDie core) (coreDie (memberCore cl (o.parent.toNat / 256))) }] })
  | _, _, _ => s

/-- BINIT takes effect on its object (14 R349); a parent it replaces is told. -/
def initObject (s : State) (core i : Nat) (t : Thread) (parent : Option (BitVec 16)) : State :=
  match getBar s core i with
  | none => s
  | some o =>
    if o.state = 0 then modBar s core i fun o => armObject o (parent.getD 0xFFFF)
    else modBar (if parent.isSome then unlinkParent s core i t else s) core i fun o => rearmObject o parent

/-- BINIT (14 R349, R354). -/
def execBinit (g : BitVec 3) (a : BitVec 6) (l f : BitVec 1) (n : BitVec 6) (s : State) : Host.Outcome State Fault Refusal :=
  let regs := if l = 1 then [(a.toNat, 1)] else []
  sharedInstr s true regs (if l = 1 then [a.toNat] else []) false false anyOne (.guard g) fun i =>
    localObject s i n.toNat fun o =>
      let core := issCore i
      let err : Eff := .fault (barErr (localSpot (issBlk i) n.toNat))
      if o.state = 3 || (o.state ≠ 0 && o.touched) then err
      else if f = 1 then
        if o.state = 0 then .retire s
        else if o.lmask ≠ 0 || o.femem || o.cmask ≠ 0 then err
        else .retire (modBar (unlinkParent s core n.toNat (issThread i)) core n.toNat fun o =>
          { o with state := 0, parent := 0xFFFF, fwd := false })
      else if l = 0 then .retire (initObject s core n.toNat (issThread i) none)
      else
        let pa := opWord i a.toNat
        match barAim s core pa with
        | none => .fault (barErr (pa.truncate 16))
        | some (dst, k) =>
          -- a child has no children (14 R343, log entry 121)
          if o.state ≠ 0 && o.cmask ≠ 0 then err
          else if pa.getLsbD 31 || dst = core then .fault (barErr (pa.truncate 16))
          else sendBarReq s i dst k (pa.truncate 16) (.link (BitVec.ofNat 16 (issBlk i).member)) n.toNat

/-- BJOIN (14 R355). -/
def execBjoin (g : BitVec 3) (n : BitVec 6) (s : State) : Host.Outcome State Fault Refusal :=
  sharedInstr s true [] [] false false anyOne (.guard g) fun i =>
    localObject s i n.toNat fun o =>
      let who := (issThread i).who
      if o.state = 0 || isMember o who then .fault (barErr (localSpot (issBlk i) n.toNat))
      else
        let join (o : Barrier) : Barrier := unblock (match who with
          | .fe => { o with femem := true }
          | .grp g => { o with lmask := putBit o.lmask g true })
        .retire (evalBarrier (modBar s (issCore i) n.toNat join) (issCore i) n.toNat)

/-- BLEAVE (14 R344, R355). -/
def execBleave (g : BitVec 3) (n : BitVec 6) (s : State) : Host.Outcome State Fault Refusal :=
  sharedInstr s true [] [] false false anyOne (.guard g) fun i =>
    localObject s i n.toNat fun o =>
      let who := (issThread i).who
      if !isMember o who then .fault (barErr (localSpot (issBlk i) n.toNat))
      else .retire (evalBarrier (leaveOne s (issCore i) n.toNat (issBlk i) who) (issCore i) n.toNat)

/-- The arrival of BARR and BARRW, a release at cluster scope; then what follows it (14 R351, R356). -/
def arriveAt (s : State) (i : Iss) (d n : Nat) (k : State → Word → Eff) : Eff :=
  localObject s i n fun o =>
    let who := (issThread i).who
    if o.state = 0 || !isMember o who || hasArrived o who then .fault (barErr (localSpot (issBlk i) n))
    else if !issReleases s i then .hold 14
    else
      let ph := o.phase
      let s := modBar (putWord s i d ph) (issCore i) n fun o => arrive o who
      k (evalBarrier s (issCore i) n) ph

/-- BARR (14 R356). -/
def execBarr (g : BitVec 3) (d n : BitVec 6) (s : State) : Host.Outcome State Fault Refusal :=
  sharedInstr s true [(d.toNat, 1)] [d.toNat] false false anyOne (.guard g) fun i =>
    arriveAt s i d.toNat n.toNat fun s _ => .retire s

/-- BARRW (14 R356). -/
def execBarrw (p : BitVec 3) (d n : BitVec 6) (s : State) : Host.Outcome State Fault Refusal :=
  sharedInstr s true [(d.toNat, 1)] [d.toNat] false false anyOne (.dest p) fun i =>
    arriveAt s i d.toNat n.toNat fun s ph => waitPhase s i p (BitVec.ofNat 32 ((issBlk i).member * 256 + n.toNat)) ph none

/-- BWAIT (14 R357). -/
def execBwait (p : BitVec 3) (a h : BitVec 6) (s : State) : Host.Outcome State Fault Refusal :=
  sharedInstr s false [(a.toNat, 1), (h.toNat, 1)] [a.toNat, h.toNat] false false anyOne (.dest p) fun i =>
    waitPhase s i p (opWord i a.toNat) (opWord i h.toNat) none

/-- BTWAIT (14 R357). -/
def execBtwait (p : BitVec 3) (a h : BitVec 6) (t : BitVec 9) (s : State) : Host.Outcome State Fault Refusal :=
  sharedInstr s true [(a.toNat, 1), (h.toNat, 1)] [a.toNat, h.toNat] false false anyOne (.dest p) fun i =>
    waitPhase s i p (opWord i a.toNat) (opWord i h.toNat) (some (imm9 (issLit i) t).toNat)

/-- Bytes are expected (14 R358). -/
def expectBytes (s : State) (core i : Nat) (n : DWord) : State :=
  evalBarrier (modBar s core i fun o => { unblock o with expb := o.expb + n }) core i

/-- BEXPECT (14 R358). -/
def execBexpect (g : BitVec 3) (a b : BitVec 6) (s : State) : Host.Outcome State Fault Refusal :=
  sharedInstr s false [(a.toNat, 1), (b.toNat, 1)] [a.toNat, b.toNat] false false anyOne (.guard g) fun i =>
    let pa := opWord i a.toNat
    let n : DWord := match i with
      | .grp c => (vreg c b.toNat 0).zeroExtend 64
      | .fe c => sreg c b.toNat
    match barAim s (issCore i) pa with
    | none => .fault (barErr (pa.truncate 16))
    | some (core, k) =>
      if core = issCore i then
        ownTurn s i <| match getBar s core k with
        | none => .fault (barErr (pa.truncate 16))
        | some o => if o.state = 0 then .fault (barErr (pa.truncate 16)) else .retire (expectBytes s core k n)
      else sendBarReq s i core k (pa.truncate 16) (.expect n) 0

/-- What BQUERY reads (14 R359). -/
def barValue (o : Barrier) (sel : Nat) : DWord :=
  match sel with
  | 0 =>
    let members := popCount 64 o.lmask.toNat + (if o.femem then 1 else 0)
    let f (b : Bool) : BitVec 1 := if b then 1 else 0
    o.ecode ++ (o.carr.truncate 12 : BitVec 12) ++ (o.cmask.truncate 12 : BitVec 12) ++ o.parent ++ (0 : BitVec 1)
      ++ BitVec.ofNat 7 members ++ (0 : BitVec 3) ++ f o.fwd ++ f o.fearr ++ f o.femem ++ (o.state.truncate 2 : BitVec 2)
  | 1 => o.ephase ++ o.phase
  | 2 => o.expb
  | 3 => o.arrb
  | 4 => o.lmask
  | _ => o.larr

/-- The half of a value a group takes. -/
def halfOf (h : Bool) (v : DWord) : Word := if h then v.extractLsb' 32 32 else v.truncate 32

/-- BQUERY (14 R359). -/
def execBquery (g : BitVec 3) (d a : BitVec 6) (h : BitVec 1) (k : BitVec 3) (s : State) : Host.Outcome State Fault Refusal :=
  sharedInstr s true [(d.toNat, 1), (a.toNat, 1)] [d.toNat, a.toNat] (5 < k.toNat) false anyOne (.guard g) fun i =>
    let pa := opWord i a.toNat
    match barAim s (issCore i) pa with
    | none => .fault (barErr (pa.truncate 16))
    | some (core, n) =>
      if core = issCore i then
        ownTurn s i <| match getBar s core n with
        | none => .fault (barErr (pa.truncate 16))
        | some o =>
          let v := barValue o k.toNat
          .retire (match i with
            | .grp _ => putWord s i d.toNat (halfOf (h = 1) v)
            | .fe _ => putWide s i d.toNat v)
      else sendBarReq s i core n (pa.truncate 16) (.query k (h = 1) d) 0

/-! ## The steps of remote operations (14 R342, R352) -/

/-- An operation under way. -/
def getBarReq (s : State) (id : Nat) : Option BarReq := s.flight.bars.find? fun r => r.id = id

/-- Forget an operation. -/
def dropBarReq (s : State) (id : Nat) : State := modFlight s fun f => { f with bars := f.bars.filter fun r => r.id ≠ id }

/-- Change an operation. -/
def modBarReq (s : State) (id : Nat) (f : BarReq → BarReq) : State :=
  modFlight s fun x => { x with bars := x.bars.map fun r => if r.id = id then f r else r }

/-- The acknowledgement of an operation, with a value or BARRIER_ERR. -/
def answerBar (s : State) (id : Nat) (v : Option DWord) : State := modBarReq s id fun r => { r with reply := some v }

/-- A verdict as a value. -/
def verdictValue (ok : Bool) : DWord := if ok then 1 else 0

/-- A wait reads the object of another core, for the first time or again (14 R352, R357): once an incomplete phase has been
read, a BTWAIT that has expired gives false. -/
def readAtTarget (s : State) (r : BarReq) (o : Barrier) (n : Word) (expires : Option Nat) : State :=
  if r.read && expired s.clk.cycle expires then answerBar s r.id (some 0)
  else match verdict o n with
  | .done ok => answerBar s r.id (some (verdictValue ok))
  | .err => answerBar s r.id none
  | .open_ =>
    if (expires.map fun e => decide (e = 0 ∨ e < s.clk.cycle)).getD false then answerBar s r.id (some 0)
    else setWatch (modBarReq s r.id fun r => { r with read := true }) r.dst r.index

/-- The object of a core is linking to a parent of its own, which then counts as one that has a parent (14 R343). -/
def linksFrom (core i : Nat) (r : BarReq) : Bool :=
  r.src.core = core && r.loc = i && (match r.op, r.reply with
    | .link _, some none => false
    | .link _, _ => true
    | _, _ => false)

/-- A child links to an object, or does not (14 R354). -/
def linkAtTarget (s : State) (r : BarReq) (o : Barrier) (m : BitVec 16) : State :=
  if o.state = 0 || o.parent ≠ 0xFFFF || o.cmask.getLsbD m.toNat || s.flight.bars.any (linksFrom r.dst r.index) then
    answerBar s r.id none
  else
    let s := modBar s r.dst r.index fun o => unblock { o with cmask := putBit o.cmask m.toNat true }
    answerBar (evalBarrier s r.dst r.index) r.id (some 0)

/-- An operation waits for the thread's earlier accesses and operations to the same core (14 R342, 10 R248), for what its
core has sent there before over the cluster's crossbar (01 R28), and for its route (01 R10). -/
def barBefore (s : State) (r : BarReq) : Bool :=
  s.flight.pool.any (fun e => e.src = r.src && e.dst = r.dst && e.id < r.id && !e.arrived)
    || s.flight.bars.any (fun e => e.src = r.src && e.dst = r.dst && e.id < r.id && e.reply.isNone && !e.read)
    || crossBefore s r.src.core r.dst r.id || otherRoute s (coreDie r.src.core) (coreDie r.dst) r.via r.id

/-- A seam on the way of an operation is held (16 R383, 18 R426). -/
def barHeld (s : State) (r : BarReq) : Bool := r.dst < 192 && seamHeld s (coreDie r.src.core) (coreDie r.dst)

/-- The issuer's cluster is still being set up, which only the waits of a resumed block are there for: they are taken up once
every member has its block again (14 R360). -/
def issuerPlacing (s : State) (r : BarReq) : Bool := (coreCluster s r.src.core).any fun c => c.state = .placing

/-- REMOTE_BARRIER_OP (14 R342): the operation reaches its target in its turn. -/
def execRemoteBarrierOp (id : Nat) (s : State) : Host.Outcome State Fault Refusal :=
  match getBarReq s id with
  | none => .next s
  | some r =>
    event s (r.reply.isNone && !r.read && !barBefore s r && !issuerPlacing s r && !barHeld s r)
      (match barTarget s r.src.core r.dst r.index with
      | none => (match r.op with
        | .unlink _ => dropBarReq s id
        | _ => answerBar s id none)
      | some o => match r.op with
        | .expect n => if o.state = 0 then answerBar s id none else answerBar (expectBytes s r.dst r.index n) id (some 0)
        | .query k _ _ => answerBar s id (some (barValue o k.toNat))
        | .read n _ e _ => readAtTarget s r o n e
        | .link m => linkAtTarget s r o m
        | .unlink m =>
          let cut (o : Barrier) : Barrier := { o with cmask := putBit o.cmask m.toNat false, carr := putBit o.carr m.toNat false }
          evalBarrier (modBar (dropBarReq s id) r.dst r.index cut) r.dst r.index)

/-- The issuer of an operation. -/
def barWaiting (r : BarReq) : Waiting := { core := r.src.core, who := r.src.who, split := r.split }

/-- An acknowledged operation ends the wait of its issuer (14 R342). -/
def endBarReq (s : State) (r : BarReq) (v : Option DWord) : State :=
  let w := barWaiting r
  let s := dropBarReq s r.id
  let s := match r.op with
    | .read _ _ _ _ => setWatch s r.dst r.index
    | _ => s
  match v with
  | none => faultWait s w (barErr r.spot)
  | some v => endWait (match r.op with
    | .query _ half rd => regsWait s w rd.toNat [halfOf half v] [v]
    | .read _ p _ _ => destWait s w p.toNat (v ≠ 0)
    | .link _ => initObject s r.src.core r.loc r.src (some r.spot)
    | _ => s) w

/-- BARRIER_REPLY (14 R342). -/
def execBarrierReply (id : Nat) (s : State) : Host.Outcome State Fault Refusal :=
  match getBarReq s id with
  | some r => (match r.reply with
    | some v => event s (canEnd s (barWaiting r) (.barrierReply id) && !barHeld s r) (endBarReq s r v)
    | none => .next s)
  | none => .next s

/-- ABS_WAIT_POLL (14 R352): a wait on an object outside the cluster reads it again. -/
def execAbsWaitPoll (id : Nat) (s : State) : Host.Outcome State Fault Refusal :=
  match getBarReq s id with
  | none => .next s
  | some r => match r.op with
    | .read n _ e inCl => event s (r.read && r.reply.isNone && !inCl) (match barTarget s r.src.core r.dst r.index with
      | some o => readAtTarget s r o n e
      | none => answerBar s id none)
    | _ => .next s

/-- The wait of a thread for a phase of a local object: what a read tells it. -/
def localVerdict (s : State) (core : Nat) (a n : Word) : Verdict :=
  match getBar s core a.toNat with
  | some o => verdict o n
  | none => .err

/-- BTWAIT_TIMEOUT (14 R357): t cycles have passed and a read has found the phase incomplete. Completion in the cycle in
which t expires wins: the time-out comes about after that cycle. -/
def execBtwaitTimeout (core who split : Nat) (s : State) : Host.Outcome State Fault Refusal :=
  let x : Who := if who = 64 then .fe else .grp who
  let w : Waiting := { core := core, who := x, split := split }
  match waitOf s w with
  | .barrier a n p (some e) told =>
    event s (threadLive s core x && e < s.clk.cycle && told.isNone && localVerdict s core a n = .open_)
      (setWatch (endWait (destWait s w p.toNat false) w) core a.toNat)
  | .barrierReply id => (match getBarReq s id with
    | some r => (match r.op with
      | .read _ _ (some e) _ => event s (threadLive s core x && r.read && r.reply.isNone && e < s.clk.cycle) (endBarReq s r (some 0))
      | _ => .next s)
    | none => .next s)
  | _ => .next s

/-- The verdict of a local wait: what the notice of completion told it, or else what a read of the object tells it now. -/
def waitVerdict (s : State) (core : Nat) (a n : Word) (told : Option Bool) : Verdict :=
  match told with
  | some ok => .done ok
  | none => localVerdict s core a n

/-- A local wait for a phase ends when the phase is complete (14 R346, R352, R357). What a read of the object tells a BTWAIT
that has expired comes too late. -/
def endPhaseWait (s : State) (w : Waiting) (a n : Word) (p : BitVec 3) (e : Option Nat) (told : Option Bool) : State :=
  match waitVerdict s w.core a n told with
  | .done ok => setWatch (endWait (destWait s w p.toNat (ok && (told.isSome || !expired s.clk.cycle e))) w) w.core a.toNat
  | .err => setWatch (faultWait s w (barErr (BitVec.ofNat 16 (memberOf s w.core * 256 + a.toNat)))) w.core a.toNat
  | .open_ => s

/-! ## Messages between the objects of a cluster (14 R346, R347) -/

/-- A message under way. -/
def getBarMsg (s : State) (id : Nat) : Option BarMsg := s.flight.barMsgs.find? fun m => m.id = id

/-- A message reaches its member, after the earlier ones between the two. -/
def takeBarMsg (s : State) (m : BarMsg) : State := modFlight s fun f => { f with barMsgs := f.barMsgs.filter fun x => x.id ≠ m.id }

/-- Nothing that the sending member has sent before to the other is still to arrive (01 R28), and no seam on the way is held (16
R383). -/
def barMsgTurn (s : State) (m : BarMsg) : Bool :=
  match getCl s m.cluster with
  | some cl =>
    let a := memberCore cl m.fromMember
    let b := memberCore cl m.toMember
    !crossBefore s a b m.id && !seamHeld s (coreDie a) (coreDie b)
  | none => true

/-- The core of a member of a cluster. -/
def msgCore (s : State) (m : BarMsg) : Option Nat := (getCl s m.cluster).map fun cl => memberCore cl m.toMember

/-- A child arrives at its parent: normally, or in error (14 R346, R347). -/
def childArrives (s : State) (m : BarMsg) (core : Nat) : State :=
  match getBar s core m.index with
  | none => s
  | some o =>
    if o.state = 0 || !o.cmask.getLsbD m.fromMember then s
    else
      let s := modBar s core m.index fun o => { o with carr := putBit o.carr m.fromMember true, touched := true, arrived := true }
      if m.error then agentFault s core m.index m.code else evalBarrier s core m.index


/-- The waits of a member for a completed phase of another member's object are answered (14 R346). -/
def noticeWaits (s : State) (m : BarMsg) (core : Nat) : State :=
  match (getCl s m.cluster).map fun cl => memberCore cl m.fromMember with
  | none => s
  | some src => modFlight s fun f => { f with bars := f.bars.map fun r =>
      if r.src.core = core && r.dst = src && r.index = m.index && r.read && r.reply.isNone then
        (match r.op with
          | .read n _ e _ =>
            if n = m.phase then { r with reply := some (some (verdictValue (!m.error && !expired s.clk.cycle e))) } else r
          | _ => r)
      else r }

/-- A child completes its phase with its parent's outcome (14 R346, R347): an error phase, unless the child recorded the
error of this phase after the parent had completed normally. -/
def childCompletes (s : State) (core i : Nat) (err : Bool) (code : Byte) : State :=
  match getBar s core i with
  | none => s
  | some o =>
    if o.state = 0 || (!err && !o.fwd) then s
    else
      let s := if err && o.state ≠ 2 then modBar s core i fun o =>
          { o with ecode := code, ephase := o.phase, eend := o.phase, state := 2, blkh := 0 } else s
      let normal := !err && o.state = 2 && o.ephase = o.phase
      let s := completePhase s core i (err || (o.state = 2 && !normal))
      let s := if normal then modBar s core i fun o => { o with ephase := o.phase, eend := o.phase } else s
      evalBarrier s core i

/-- The objects of a core whose parent is an object of a member. -/
def childrenOf (s : State) (core member i : Nat) : List Nat :=
  (List.range (((getBlk s core).map fun b => b.hdr.barriers).getD 0)).filter fun k =>
    (getBar s core k).any fun o => o.parent = BitVec.ofNat 16 (member * 256 + i)

/-- A completion notice reaches a member's waiting threads, or its child objects (14 R346). -/
def noticeArrives (s : State) (m : BarMsg) (core : Nat) : State :=
  if m.kind = 2 then noticeWaits s m core
  else foldSt (fun s i => childCompletes s core i m.error m.code) s (childrenOf s core m.fromMember m.index)

/-- No route between the cores of a message's members is left. -/
def barMsgLost (s : State) (m : BarMsg) : Bool :=
  (getCl s m.cluster).any fun cl =>
    !routeBy s keeps (coreDie (memberCore cl m.fromMember)) (coreDie (memberCore cl m.toMember))

/-- A message between members loses its route: the child that has arrived, or that waits for the notice, completes its phase in
error with LINK_DOWN; a notice to waiting threads is lost, and their waits are answered LINK_DOWN themselves (16 R385, log entry
91). -/
def cutBarMsg (s : State) (m : BarMsg) : State :=
  match getCl s m.cluster with
  | none => s
  | some cl =>
    let cut (core parent : Nat) : State :=
      foldSt (fun s i => childCompletes s core i true cLINK_DOWN) s (childrenOf s core parent m.index)
    match m.kind with
    | 2 => s
    | 3 => cut (memberCore cl m.toMember) m.fromMember
    | _ => cut (memberCore cl m.fromMember) m.toMember

/-- A message of one kind arrives, or is lost with its route. -/
def barMsgStep (s : State) (id : Nat) (kinds : List Nat) (f : State → BarMsg → Nat → State) : Host.Outcome State Fault Refusal :=
  match getBarMsg s id with
  | none => .next s
  | some m => event s (kinds.contains m.kind && barMsgTurn s m)
      (if barMsgLost s m then cutBarMsg (takeBarMsg s m) m
      else match msgCore s m with
        | some core => f (takeBarMsg s m) m core
        | none => takeBarMsg s m)

/-- CHILD_ARRIVAL (14 R346). -/
def execChildArrival (id : Nat) (s : State) : Host.Outcome State Fault Refusal := barMsgStep s id [0] childArrives

/-- ERROR_ARRIVAL (14 R347). -/
def execErrorArrival (id : Nat) (s : State) : Host.Outcome State Fault Refusal := barMsgStep s id [1] childArrives

/-- PHASE_NOTICE (14 R346). -/
def execPhaseNotice (id : Nat) (s : State) : Host.Outcome State Fault Refusal := barMsgStep s id [2, 3] noticeArrives

/-! ## Batch arrivals (13 R331, 14 R344, R356) -/

/-- The arrival of a group's oldest closed batch is held at an object (14 R356). -/
def batchHeld (s : State) (core i g : Nat) : Bool := (getBar s core i).any fun o => o.heldBatches.any fun x => x.1 = g

/-- A batch of a group arrives at an object: as the group's arrival, or held when the group has arrived already, so that
the batch stays with its group. err: a command of the batch completed with SLOT (13 R332). -/
def batchArrives (s : State) (core i g : Nat) (err : Bool) : State :=
  match getBar s core i with
  | none => modGrp s core g takeBatch
  | some o =>
    if o.state = 0 then modGrp s core g takeBatch
    else if o.larr.getLsbD g then modBar s core i fun o => { o with heldBatches := o.heldBatches ++ [(g, err)] }
    else
      let s := modBar (modGrp s core g takeBatch) core i fun o => arrive o (.grp g)
      if err then agentFault s core i cSLOT else evalBarrier s core i

end Sys2Proof.Machine
end

