-- ==== Sys2Proof/Machine/Float.lean ====
section
/-! DEFINITION. Floating-point, special-function and signal instructions (09 R220 to R241). -/
namespace Sys2Proof.Machine

/-- Rounding by the unit's MOD (09 R222). -/
def modRnd (c : GC) : Rnd :=
  { mode := (modRm (grpMod c)).toNat, sat := modSat (grpMod c), nsf8 := modNsf8 (grpMod c) }

/-- A result as a word with flags. -/
def asWord (r : Nat × BitVec 5) : Word × BitVec 5 := (BitVec.ofNat 32 r.1, r.2)

/-- A binary32 operand. -/
def fval (w : Word) : Val := valOf f32 w.toNat

/-- A floating-point instruction of one destination (09 R220). -/
def fltOp (s : State) (g d : Nat) (srcs : List Nat) (f : GC → Nat → Word × BitVec 5) :
    Host.Outcome State Fault Refusal :=
  vecOp s false g d srcs ruleUG f

/-! ## Binary32 arithmetic -/

/-- FADD (09 R224). -/
def execFadd (g : BitVec 3) (d a b : BitVec 7) (s : State) : Host.Outcome State Fault Refusal :=
  fltOp s g.toNat d.toNat [a.toNat, b.toNat] fun c i =>
    asWord (sumRound f32 (modRnd c) [termOf (fval (vreg c a.toNat i)), termOf (fval (vreg c b.toNat i))])

/-- FSUB (09 R224). -/
def execFsub (g : BitVec 3) (d a b : BitVec 7) (s : State) : Host.Outcome State Fault Refusal :=
  fltOp s g.toNat d.toNat [a.toNat, b.toNat] fun c i =>
    asWord (sumRound f32 (modRnd c) [termOf (fval (vreg c a.toNat i)), termNeg (termOf (fval (vreg c b.toNat i)))])

/-- FMUL (09 R224). -/
def execFmul (g : BitVec 3) (d a b : BitVec 7) (s : State) : Host.Outcome State Fault Refusal :=
  fltOp s g.toNat d.toNat [a.toNat, b.toNat] fun c i =>
    asWord (sumRound f32 (modRnd c) [termMul (fval (vreg c a.toNat i)) (fval (vreg c b.toNat i))])

/-- A fused multiply-add with the signs of its two addends (09 R225). -/
def fmaOp (s : State) (g d a b : Nat) (np nc : Bool) : Host.Outcome State Fault Refusal :=
  fltOp s g d [a, b, d] fun c i =>
    let p := termMul (fval (vreg c a i)) (fval (vreg c b i))
    let z := termOf (fval (vreg c d i))
    asWord (sumRound f32 (modRnd c) [if np then termNeg p else p, if nc then termNeg z else z])

/-- FFMA (09 R225). -/
def execFfma (g : BitVec 3) (d a b : BitVec 7) (s : State) : Host.Outcome State Fault Refusal :=
  fmaOp s g.toNat d.toNat a.toNat b.toNat false false

/-- FFMS (09 R225). -/
def execFfms (g : BitVec 3) (d a b : BitVec 7) (s : State) : Host.Outcome State Fault Refusal :=
  fmaOp s g.toNat d.toNat a.toNat b.toNat false true

/-- FNMA (09 R225). -/
def execFnma (g : BitVec 3) (d a b : BitVec 7) (s : State) : Host.Outcome State Fault Refusal :=
  fmaOp s g.toNat d.toNat a.toNat b.toNat true false

/-- A word is a binary32 NaN. -/
def isNan (w : Word) : Bool :=
  match fval w with
  | .nan _ => true
  | _ => false

/-- A binary32 word that is no NaN, as a number in its order; -0 below +0 (09 R226). -/
def fkey (w : Word) : Int := if w.getLsbD 31 then -(w.toNat % 2 ^ 31 : Nat) - 1 else (w.toNat : Int)

/-- minimumNumber or maximumNumber (09 R226). -/
def fpick (big : Bool) (a b : Word) : Word × BitVec 5 :=
  let nv := flagIf (fval a = .nan true || fval b = .nan true) fNV
  if isNan a && isNan b then (BitVec.ofNat 32 (nanCode f32), nv)
  else if isNan a then (b, nv)
  else if isNan b then (a, nv)
  else (if (fkey a < fkey b) = big then b else a, nv)

/-- FMIN (09 R226). -/
def execFmin (g : BitVec 3) (d a b : BitVec 7) (s : State) : Host.Outcome State Fault Refusal :=
  fltOp s g.toNat d.toNat [a.toNat, b.toNat] fun c i => fpick false (vreg c a.toNat i) (vreg c b.toNat i)

/-- FMAX (09 R226). -/
def execFmax (g : BitVec 3) (d a b : BitVec 7) (s : State) : Host.Outcome State Fault Refusal :=
  fltOp s g.toNat d.toNat [a.toNat, b.toNat] fun c i => fpick true (vreg c a.toNat i) (vreg c b.toNat i)

/-- FABS (09 R227). -/
def execFabs (g : BitVec 3) (d a : BitVec 7) (s : State) : Host.Outcome State Fault Refusal :=
  fltOp s g.toNat d.toNat [a.toNat] fun c i => (vreg c a.toNat i &&& 0x7FFFFFFF, 0)

/-- FNEG (09 R227). -/
def execFneg (g : BitVec 3) (d a : BitVec 7) (s : State) : Host.Outcome State Fault Refusal :=
  fltOp s g.toNat d.toNat [a.toNat] fun c i => (vreg c a.toNat i ^^^ 0x80000000, 0)

/-! ## Comparison, classification, rounding to integer -/

/-- The conditions of FCMP with the flags they raise (03 R67, 09 R228). -/
def fcond (k : Nat) (a b : Word) : Bool × BitVec 5 :=
  let un := isNan a || isNan b
  let sig := fval a = .nan true || fval b = .nan true
  -- -0 and +0 compare equal
  let x := if fkey a = -1 then 0 else fkey a
  let y := if fkey b = -1 then 0 else fkey b
  let v := match k with
    | 0 => !un && x = y
    | 1 => un || x ≠ y
    | 2 => !un && x < y
    | 3 => !un && x ≤ y
    | 4 => !un && y < x
    | 5 => !un && y ≤ x
    | 6 => un
    | _ => !un
  (v, flagIf (if 2 ≤ k && k ≤ 5 then un else sig) fNV)

/-- FCMP (09 R228). -/
def execFcmp (g p : BitVec 3) (k : BitVec 4) (a b : BitVec 7) (s : State) : Host.Outcome State Fault Refusal :=
  predOp s g.toNat p.toNat [a.toNat, b.toNat] (k.toNat ≤ 7) (cmpUniform g.toNat [a.toNat, b.toNat]) fun c act =>
    (laneMask act fun i => (fcond k.toNat (vreg c a.toNat i) (vreg c b.toNat i)).1,
     act.foldl (fun f i => f ||| (fcond k.toNat (vreg c a.toNat i) (vreg c b.toNat i)).2) 0)

/-- The class of a binary32 word (09 R229). -/
def fclass (w : Word) : Nat :=
  let neg := w.getLsbD 31
  let e := bitsOf w.toNat 30 23
  match fval w with
  | .nan sig => if sig then 8 else 9
  | .inf n => if n then 0 else 7
  | .num _ m _ => if m = 0 then (if neg then 3 else 4) else if e = 0 then (if neg then 2 else 5) else if neg then 1 else 6

/-- FCLASS (09 R229). -/
def execFclass (g : BitVec 3) (d a : BitVec 7) (s : State) : Host.Outcome State Fault Refusal :=
  fltOp s g.toNat d.toNat [a.toNat] fun c i => (BitVec.ofNat 32 (2 ^ fclass (vreg c a.toNat i)), 0)

/-- A binary32 word rounded to an integral value (09 R230). -/
def froundWord (mode : Nat) (x : Bool) (w : Word) : Word × BitVec 5 :=
  match fval w with
  | .nan sig => (BitVec.ofNat 32 (nanCode f32), flagIf sig fNV)
  | .inf _ => (w, 0)
  | .num neg m e =>
    let q := fracOf m e
    let (k, exact) := roundNat mode neg q.1 q.2
    let r := roundTo f32 rne neg k 1
    (BitVec.ofNat 32 r.1, flagIf (x && !exact) fIX)

/-- FROUND (09 R230). -/
def execFround (g : BitVec 3) (d a : BitVec 7) (x : BitVec 1) (s : State) : Host.Outcome State Fault Refusal :=
  fltOp s g.toNat d.toNat [a.toNat] fun c i => froundWord (modRm (grpMod c)).toNat (x == 1) (vreg c a.toNat i)

/-! ## Conversions -/

/-- Element pos of width w of a word (02 R40). -/
def elemGet (w : Nat) (x : Word) (pos : Nat) : Nat := bitsOf x.toNat (w * pos + w - 1) (w * pos)

/-- A word with one element replaced (02 R40). -/
def elemPut (w : Nat) (x : Word) (pos v : Nat) : Word :=
  let m : Word := BitVec.ofNat 32 ((2 ^ w - 1) * 2 ^ (w * pos))
  (x &&& ~~~ m) ||| (BitVec.ofNat 32 (v % 2 ^ w * 2 ^ (w * pos)))

/-- A narrow element converted to binary32 (09 R232). -/
def widen (f : Fmt) (w : Nat) (x : Word) (pos : Nat) : Word × BitVec 5 :=
  asWord (convertVal f32 rne (valOf f (elemGet w x pos)))

/-- A binary32 word converted into one element of another (09 R232). -/
def narrow (f : Fmt) (w : Nat) (r : Rnd) (old x : Word) (pos : Nat) : Word × BitVec 5 :=
  let y := convertVal f r (fval x)
  (elemPut w old pos y.1, y.2)

/-- The result of a CVT (09 R231, R232): code, position, source word, old destination word. -/
def cvtWord (r : Rnd) (op pos : Nat) (x old : Word) : Word × BitVec 5 :=
  match op with
  | 0 => let y := convertInt r.mode (-2 ^ 31) (2 ^ 31 - 1) (fval x); (BitVec.ofInt 32 y.1, y.2)
  | 1 => let y := convertInt r.mode 0 (2 ^ 32 - 1) (fval x); (BitVec.ofInt 32 y.1, y.2)
  | 2 => asWord (roundTo f32 r (x.toInt < 0) x.toInt.natAbs 1)
  | 3 => asWord (roundTo f32 r false x.toNat 1)
  | 4 => narrow f16 16 r old x pos
  | 5 => narrow bf16 16 r old x pos
  | 6 => widen f16 16 x pos
  | 7 => widen bf16 16 x pos
  | 8 => narrow e4m3 8 r old x pos
  | 9 => narrow e5m2 8 r old x pos
  | 10 => widen e4m3 8 x pos
  | _ => widen e5m2 8 x pos

/-- The greatest POS of a CVT code (09 R231). -/
def cvtMaxPos (op : Nat) : Nat := if op ≤ 3 then 0 else if op ≤ 7 then 1 else 3

/-- The CVT code is narrowing, so that it reads vd. -/
def cvtNarrows (op : Nat) : Bool := op = 4 || op = 5 || op = 8 || op = 9

/-- CVT (09 R231, R232). A LIT extends the code: a payload other than 0 takes it out of the table (03 R76). -/
def execCvt (g : BitVec 3) (d a : BitVec 7) (o : BitVec 4) (n : BitVec 3) (s : State) :
    Host.Outcome State Fault Refusal :=
  let op := o.toNat
  let srcs := if cvtNarrows op then [a.toNat, d.toNat] else [a.toNat]
  grpInstr s true fun c =>
    if regsPending s c (d.toNat :: srcs) then .hold 2
    else
      chk ((11 < op || cvtMaxPos op < n.toNat || (grpLit c).getD 0 != 0, cILLEGAL)
        :: vecChecks c [(d.toNat, 1)] (srcs.map fun r => (r, 1)) (shapeUG (srcs.map (vtag c)))
          ++ [bankCheck c g.toNat (d.toNat :: srcs)]) <|
      let f (i : Nat) := cvtWord (modRnd c) op n.toNat (vreg c a.toNat i) (vreg c d.toNat i)
      let act := activeLanes c g.toNat
      let s := writeReg s c d.toNat act fun i => (f i).1
      .retire (raiseFlags s c.core c.g (act.foldl (fun x i => x ||| (f i).2) 0))

/-- The floating formats by TYPE of 02 R54. -/
def typeFmt (t : Nat) : Option Fmt :=
  match t with
  | 1 => some e4m3
  | 2 => some e5m2
  | 3 => some e3m2
  | 4 => some e2m3
  | 5 => some e2m1
  | 11 => some bf16
  | 12 => some f16
  | _ => none

/-- Bits of an element's container by TYPE (02 R36, R40). -/
def typeBits (t : Nat) : Nat := if t = 5 || t = 8 || t = 10 then 4 else if t = 11 || t = 12 then 16 else 8

/-- The bounds of an integer TYPE (02 R38, R39). -/
def typeRange (t : Nat) : Int × Int :=
  match t with
  | 6 => (-128, 127)
  | 7 => (0, 255)
  | 8 => (-7, 7)
  | 9 => (0, 255)
  | _ => (0, 15)

/-- The value of an integer element: two's complement, .i4 code 1000b as -7, .q codes unsigned (02 R38). -/
def intElem (t code : Nat) : Int :=
  match t with
  | 6 => (BitVec.ofNat 8 code).toInt
  | 8 => let x := (BitVec.ofNat 4 code).toInt; if x = -8 then -7 else x
  | _ => code

/-- An integer as a value. -/
def intVal (x : Int) : Val := .num (x < 0) x.natAbs 0

/-- A scale of an MX block (02 R37). -/
def e8m0Val (c : Nat) : Val := if c = 0xFF then .nan false else .num false 1 ((c : Int) - 127)

/-- The value of an element of a scaled type before its scale: its code less the zero point (02 R39). -/
def elemVal (t code zp : Nat) : Val :=
  match typeFmt t with
  | some f => valOf f (code % 2 ^ (magBits f + 1))
  | none => intVal (intElem t code - if t = 9 || t = 10 then (zp : Int) else 0)

/-- A quotient of two finite values as a signed fraction (02 R49). -/
def quotFrac (x y : Val) : Option (Bool × Nat × Nat) :=
  match x, y with
  | .num n m e, .num n' m' e' =>
    if m' = 0 then none
    else let p := pow2Frac (e - e'); some (n != n', m * p.1, m' * p.2)
  | _, _ => none

/-- Expansion of an element: exact v × S rounded into a format (02 R49, 09 R234). -/
def expandElem (f : Fmt) (r : Rnd) (v scale : Val) : Nat × BitVec 5 :=
  match scale with
  | .nan _ => (nanCode f, fNV)
  | _ => match v with
    | .nan _ => (nanCode f, 0)
    | _ => sumRound f r [termMul v scale]

/-- A value with the sign of another: what an infinite x over a finite scale is. -/
def infOver (x y : Val) : Val :=
  match x, y with
  | .inf n, .num n' _ _ => .inf (n != n')
  | v, _ => v

/-- The scale is zero, infinite or NaN. -/
def scaleBad (y : Val) : Bool :=
  match y with
  | .num _ m _ => m = 0
  | _ => true

/-- Compression to an integer element: rounded x/S plus the zero point, clamped; clamping raises NV and not IX (02 R51,
09 R234). -/
def compressInt (mode t zp : Nat) (x scale : Val) : Nat × BitVec 5 :=
  let q := t = 9 || t = 10
  let (lo, hi) := typeRange t
  let z : Int := if q then zp else 0
  let nan := match x with
    | .nan _ => true
    | _ => false
  if scaleBad scale || nan then (if q then min zp hi.toNat else 0, fNV)
  else match quotFrac x scale with
    | some (neg, n, d) =>
      let (k, exact) := roundNat mode neg n d
      let v : Int := (if neg then -(k : Int) else k) + z
      if v < lo then ((lo % 256).toNat, fNV) else if hi < v then (hi.toNat, fNV)
      else ((v % 256).toNat, flagIf (!exact) fIX)
    | none => match infOver x scale with
      | .inf true => ((lo % 256).toNat, fNV)
      | _ => (hi.toNat, fNV)

/-- Compression to a floating element (02 R49, 09 R234). -/
def compressFlt (f : Fmt) (r : Rnd) (x scale : Val) : Nat × BitVec 5 :=
  if scaleBad scale then (nanCode f, fNV)
  else match quotFrac x scale with
    | some (neg, n, d) => roundTo f r neg n d
    | none => convertVal f r (infOver x scale)

/-- One lane of CVTX (09 R233, R234): control word, source word, old destination word. -/
def cvtxWord (r : Rnd) (w x old : Word) : Word × BitVec 5 :=
  let t := bitsOf w.toNat 3 0
  let dir := w.getLsbD 7
  let bits := typeBits t
  let pos := if bits = 4 then bitsOf w.toNat 6 4 else bitsOf w.toNat 5 4
  let zp := bitsOf w.toNat 15 8
  let q := t = 9 || t = 10
  let scale := if q || w.getLsbD 8 then valOf f16 (bitsOf w.toNat 31 16) else e8m0Val (bitsOf w.toNat 23 16)
  if t = 0 || 10 < t then (if dir then old else BitVec.ofNat 32 (nanCode f32), fNV)
  else if !dir then asWord (expandElem f32 r (elemVal t (elemGet bits x pos) zp) scale)
  else
    let y := match typeFmt t with
      | some f => compressFlt f r (fval x) scale
      | none => compressInt r.mode t zp (fval x) scale
    (elemPut bits old pos y.1, y.2)

/-- CVTX (09 R233, R234). Compression reads vd, whose shape then counts; the direction is each lane's own, so vd
counts whenever a lane of the split compresses, whatever the guard (03 R73, log entry 34). -/
def execCvtx (g : BitVec 3) (d a b : BitVec 7) (s : State) : Host.Outcome State Fault Refusal :=
  grpInstr s false fun c =>
    if regsPending s c [d.toNat, a.toNat, b.toNat] then .hold 2
    else
      let act := activeLanes c g.toNat
      let compress := (lanesOf c.spl.lanes).any fun i => (vreg c b.toNat i).getLsbD 7
      let srcs := if compress then [a.toNat, b.toNat, d.toNat] else [a.toNat, b.toNat]
      chk (vecChecks c [(d.toNat, 1)] [(a.toNat, 1), (b.toNat, 1)] (shapeUG (srcs.map (vtag c)))
        ++ [bankCheck c g.toNat [d.toNat, a.toNat, b.toNat]]) <|
      let f (i : Nat) := cvtxWord (modRnd c) (vreg c b.toNat i) (vreg c a.toNat i) (vreg c d.toNat i)
      let s := writeReg s c d.toNat act fun i => (f i).1
      .retire (raiseFlags s c.core c.g (act.foldl (fun x i => x ||| (f i).2) 0))

/-! ## Packed half precision (09 R235) -/

/-- Both halves of a packed operation. -/
def packed (f : Nat → Nat × BitVec 5) : Word × BitVec 5 :=
  (BitVec.ofNat 32 ((f 0).1 + (f 1).1 * 65536), (f 0).2 ||| (f 1).2)

/-- Element j of a packed register. -/
def halfVal (f : Fmt) (w : Word) (j : Nat) : Val := valOf f (elemGet 16 w j)

/-- A packed addition. -/
def haddOp (f : Fmt) (s : State) (g d a b : Nat) : Host.Outcome State Fault Refusal :=
  fltOp s g d [a, b] fun c i => packed fun j =>
    sumRound f (modRnd c) [termOf (halfVal f (vreg c a i) j), termOf (halfVal f (vreg c b i) j)]

/-- A packed multiplication. -/
def hmulOp (f : Fmt) (s : State) (g d a b : Nat) : Host.Outcome State Fault Refusal :=
  fltOp s g d [a, b] fun c i => packed fun j =>
    sumRound f (modRnd c) [termMul (halfVal f (vreg c a i) j) (halfVal f (vreg c b i) j)]

/-- A packed fused multiply-add. -/
def hfmaOp (f : Fmt) (s : State) (g d a b : Nat) : Host.Outcome State Fault Refusal :=
  fltOp s g d [a, b, d] fun c i => packed fun j =>
    sumRound f (modRnd c)
      [termMul (halfVal f (vreg c a i) j) (halfVal f (vreg c b i) j), termOf (halfVal f (vreg c d i) j)]

/-- HADD2.f16 (09 R235). -/
def execHadd2F16 (g : BitVec 3) (d a b : BitVec 7) (s : State) : Host.Outcome State Fault Refusal :=
  haddOp f16 s g.toNat d.toNat a.toNat b.toNat
/-- HMUL2.f16 (09 R235). -/
def execHmul2F16 (g : BitVec 3) (d a b : BitVec 7) (s : State) : Host.Outcome State Fault Refusal :=
  hmulOp f16 s g.toNat d.toNat a.toNat b.toNat
/-- HFMA2.f16 (09 R235). -/
def execHfma2F16 (g : BitVec 3) (d a b : BitVec 7) (s : State) : Host.Outcome State Fault Refusal :=
  hfmaOp f16 s g.toNat d.toNat a.toNat b.toNat
/-- HADD2.bf16 (09 R235). -/
def execHadd2Bf16 (g : BitVec 3) (d a b : BitVec 7) (s : State) : Host.Outcome State Fault Refusal :=
  haddOp bf16 s g.toNat d.toNat a.toNat b.toNat
/-- HMUL2.bf16 (09 R235). -/
def execHmul2Bf16 (g : BitVec 3) (d a b : BitVec 7) (s : State) : Host.Outcome State Fault Refusal :=
  hmulOp bf16 s g.toNat d.toNat a.toNat b.toNat
/-- HFMA2.bf16 (09 R235). -/
def execHfma2Bf16 (g : BitVec 3) (d a b : BitVec 7) (s : State) : Host.Outcome State Fault Refusal :=
  hfmaOp bf16 s g.toNat d.toNat a.toNat b.toNat

/-! ## Dot products (09 R236) -/

/-- A dot product of n packed elements of w bits with a binary32 addend. -/
def dotOp (f : Fmt) (w n : Nat) (s : State) (g d a b : Nat) : Host.Outcome State Fault Refusal :=
  fltOp s g d [a, b, d] fun c i =>
    let x := vreg c a i
    let y := vreg c b i
    asWord (sumRound f32 rne (((List.range n).map fun j => termMul (valOf f (elemGet w x j)) (valOf f (elemGet w y j)))
      ++ [termOf (fval (vreg c d i))]))

/-- DOT4.e4m3 (09 R236). -/
def execDot4E4m3 (g : BitVec 3) (d a b : BitVec 7) (s : State) : Host.Outcome State Fault Refusal :=
  dotOp e4m3 8 4 s g.toNat d.toNat a.toNat b.toNat
/-- DOT4.e5m2 (09 R236). -/
def execDot4E5m2 (g : BitVec 3) (d a b : BitVec 7) (s : State) : Host.Outcome State Fault Refusal :=
  dotOp e5m2 8 4 s g.toNat d.toNat a.toNat b.toNat
/-- DOT2.bf16 (09 R236). -/
def execDot2Bf16 (g : BitVec 3) (d a b : BitVec 7) (s : State) : Host.Outcome State Fault Refusal :=
  dotOp bf16 16 2 s g.toNat d.toNat a.toNat b.toNat
/-- IDP4.i8 (09 R236). -/
def execIdp4I8 (g : BitVec 3) (d a b : BitVec 7) (s : State) : Host.Outcome State Fault Refusal :=
  fltOp s g.toNat d.toNat [a.toNat, b.toNat, d.toNat] fun c i =>
    let x := vreg c a.toNat i
    let y := vreg c b.toNat i
    (BitVec.ofInt 32 ((List.range 4).foldl
      (fun t j => t + intElem 6 (elemGet 8 x j) * intElem 6 (elemGet 8 y j)) (vreg c d.toNat i).toInt), 0)

/-! ## Special functions (02 R60, 09 R237) -/

/-- The canonical NaN of binary32 with the flag of a NaN operand. -/
def nanOut (sig : Bool) : Word × BitVec 5 := (BitVec.ofNat 32 (nanCode f32), flagIf sig fNV)

/-- An infinity of binary32. -/
def infOut (neg : Bool) (f : BitVec 5) : Word × BitVec 5 := (BitVec.ofNat 32 (withSign f32 neg (infCode f32)), f)

/-- A zero of binary32. -/
def zeroOut (neg : Bool) : Word × BitVec 5 := (BitVec.ofNat 32 (withSign f32 neg 0), 0)

/-- FRCP of a word. -/
def rcpWord (w : Word) : Word × BitVec 5 :=
  match fval w with
  | .nan s => nanOut s
  | .inf n => zeroOut n
  | .num n m e =>
    if m = 0 then infOut n fDZ else let p := pow2Frac (-e); asWord (roundTo f32 rne n p.1 (m * p.2))

/-- FRSQ of a word. -/
def rsqWord (w : Word) : Word × BitVec 5 :=
  match fval w with
  | .nan s => nanOut s
  | .inf n => if n then nanOut true else zeroOut false
  | .num n m e => if m = 0 then infOut n fDZ else if n then nanOut true else asWord (rsqrtRound f32 m e)

/-- FSQRT of a word. -/
def sqrtWord (w : Word) : Word × BitVec 5 :=
  match fval w with
  | .nan s => nanOut s
  | .inf n => if n then nanOut true else infOut false 0
  | .num n m e => if m = 0 then zeroOut n else if n then nanOut true else asWord (sqrtRound f32 m e)

/-- FEXP2 of a word: the integer part scales the power of the fraction, exactly for an integer. -/
def exp2Word (w : Word) : Word × BitVec 5 :=
  match fval w with
  | .nan s => nanOut s
  | .inf n => if n then zeroOut false else infOut false 0
  | .num n m e =>
    let q := fracOf m e
    let x : Int := if n then -(q.1 : Int) else q.1
    if 128 * (q.2 : Int) ≤ x then infOut false (fOF ||| fIX)
    else if x < -(200 * (q.2 : Int)) then asWord (roundTo f32 rne false 1 (2 ^ 200))
    else
      let k := x / (q.2 : Int)
      let r := x % (q.2 : Int)
      let p := pow2Frac k
      if r = 0 then asWord (roundTo f32 rne false p.1 p.2)
      else
        let v := (fixExp2 (r * fixOne / (q.2 : Int))).natAbs
        asWord (roundTo f32 rne false ((2 * v + 1) * p.1) (2 ^ 321 * p.2))

/-- FLOG2 of a word: exponent plus the logarithm of the mantissa, exactly for a power of two. -/
def log2Word (w : Word) : Word × BitVec 5 :=
  match fval w with
  | .nan s => nanOut s
  | .inf n => if n then nanOut true else infOut false 0
  | .num n m e =>
    if m = 0 then infOut true fDZ
    else if n then nanOut true
    else
      let k := Nat.log2 m
      let x : Int := (k : Int) + e
      if m = 2 ^ k then asWord (roundTo f32 rne (x < 0) x.natAbs 1)
      else asWord (roundFix f32 (x * fixOne + fixLn ((m : Int) * fixOne / (2 ^ k : Nat)) * fixOne / fixLn2))

/-- FSINP and FCOSP of a word; half is 1 for the cosine, which is the sine half a turn of π on. -/
def sinpWord (half : Nat) (w : Word) : Word × BitVec 5 :=
  match fval w with
  | .nan s => nanOut s
  | .inf _ => nanOut true
  | .num n m e =>
    let q := fracOf m e
    -- the argument of the sine in units of half turns: (2 q1 + half q2) / (2 q2)
    let p := 2 * q.1 + half * q.2
    if p % q.2 = 0 then
      let k := p / q.2 % 4
      if k % 2 = 0 then zeroOut (half = 0 && n)
      else asWord (roundTo f32 rne ((k = 3) != (half = 0 && n)) 1 1)
    else
      let v := fixSinPi p (2 * q.2)
      asWord (roundFix f32 (if half = 0 && n then -v else v))

/-- A special-function instruction: long-latency, with its clause flag (07 R172). The unit's result is written in the
same step, so the flag has fallen again when the next word issues. -/
def sfuOp (s : State) (g : BitVec 3) (d a : BitVec 7) (f : Word → Word × BitVec 5) :
    Host.Outcome State Fault Refusal :=
  grpInstr s false fun c =>
    heldBy [(regsPending s c [d.toNat, a.toNat], 2), (flagFull c.grp.flags c.spl.clause, 1)] <|
      chk (vecChecks c [(d.toNat, 1)] [(a.toNat, 1)] (shapeUG [vtag c a.toNat]) ++ [bankCheck c g.toNat [d.toNat, a.toNat]]) <|
      let act := activeLanes c g.toNat
      let s := writeReg s c d.toNat act fun i => (f (vreg c a.toNat i)).1
      let s := raiseFlags s c.core c.g (act.foldl (fun x i => x ||| (f (vreg c a.toNat i)).2) 0)
      .retire (onSplit s c fun x => { x with clause := clauseUsed x.clause })

/-- FRCP (09 R237). -/
def execFrcp (g : BitVec 3) (d a : BitVec 7) (s : State) : Host.Outcome State Fault Refusal := sfuOp s g d a rcpWord
/-- FRSQ (09 R237). -/
def execFrsq (g : BitVec 3) (d a : BitVec 7) (s : State) : Host.Outcome State Fault Refusal := sfuOp s g d a rsqWord
/-- FSQRT (09 R237). -/
def execFsqrt (g : BitVec 3) (d a : BitVec 7) (s : State) : Host.Outcome State Fault Refusal := sfuOp s g d a sqrtWord
/-- FEXP2 (09 R237). -/
def execFexp2 (g : BitVec 3) (d a : BitVec 7) (s : State) : Host.Outcome State Fault Refusal := sfuOp s g d a exp2Word
/-- FLOG2 (09 R237). -/
def execFlog2 (g : BitVec 3) (d a : BitVec 7) (s : State) : Host.Outcome State Fault Refusal := sfuOp s g d a log2Word
/-- FSINP (09 R237). -/
def execFsinp (g : BitVec 3) (d a : BitVec 7) (s : State) : Host.Outcome State Fault Refusal :=
  sfuOp s g d a (sinpWord 0)
/-- FCOSP (09 R237). -/
def execFcosp (g : BitVec 3) (d a : BitVec 7) (s : State) : Host.Outcome State Fault Refusal :=
  sfuOp s g d a (sinpWord 1)

/-! ## Signal processing (09 R238 to R240) -/

/-- Write several consecutive registers, every source having been read before. -/
def writeRegs (s : State) (c : GC) (d n : Nat) (act : List Nat) (f : Nat → Nat → Word) : State :=
  foldSt (fun s j => writeReg s c (d + j) act (f j)) s (List.range n)

/-- N of a TWID is a power of two from 2 to 2^30 (02 R61). -/
def twidOk (n : Nat) : Bool := 2 ≤ n && n ≤ 2 ^ 30 && n = 2 ^ Nat.log2 n

/-- One component of a twiddle: sin(π p/(n/2)), exact at multiples of a quarter turn; zero is +0 (02 R61). -/
def twidPart (p n : Nat) : Word × BitVec 5 :=
  let p := p % n
  if 4 * p % n = 0 then
    let k := 4 * p / n
    if k % 2 = 0 then zeroOut false else asWord (roundTo f32 rne (k = 3) 1 1)
  else asWord (roundFix f32 (fixSinPi (2 * p) n))

/-- A twiddle: cos(2πr/N) and -sin(2πr/N). The cosine is the sine a quarter turn on, the negated sine that of -r; angles
are taken in units of 1/(4N) turn so that the quarter is whole. -/
def twidWord (k : Int) (n j : Nat) : Word × BitVec 5 :=
  if !twidOk n then (BitVec.ofNat 32 (nanCode f32), fNV)
  else
    let r := (k % (n : Int)).toNat
    if j = 0 then twidPart (4 * r + n) (4 * n) else twidPart (4 * (n - r)) (4 * n)

/-- TWID (09 R238). -/
def execTwid (g : BitVec 3) (d a b : BitVec 7) (s : State) : Host.Outcome State Fault Refusal :=
  grpInstr s false fun c =>
    let d := d.toNat
    heldBy [(regsPending s c [d, d + 1, a.toNat, b.toNat], 2), (flagFull c.grp.flags c.spl.clause, 1)] <|
      chk [(outOfRange c d 2 || outOfRange c a.toNat 1 || outOfRange c b.toNat 1, cREG_RANGE),
        (vtag c a.toNat ≠ .general || vtag c b.toNat ≠ .uniform || vtag c d ≠ .general || vtag c (d + 1) ≠ .general,
          cSHAPE), bankCheck c g.toNat [d, d + 1, a.toNat, b.toNat]] <|
      let act := activeLanes c g.toNat
      let f (j i : Nat) := twidWord (vreg c a.toNat i).toInt (vreg c b.toNat i).toNat j
      let s := writeRegs s c d 2 act fun j i => (f j i).1
      let s := raiseFlags s c.core c.g (act.foldl (fun x i => x ||| (f 0 i).2 ||| (f 1 i).2) 0)
      .retire (onSplit s c fun x => { x with clause := clauseUsed x.clause })

/-- An instruction on pairs: destinations (first, how many), sources, and the value of each destination word. -/
def pairOp (s : State) (g : Nat) (dst : Nat × Nat) (srcs : List (Nat × Nat)) (f : GC → Nat → Nat → Word × BitVec 5) :
    Host.Outcome State Fault Refusal :=
  grpInstr s false fun c =>
    if regsPending s c (regNames (dst :: srcs)) then .hold 2
    else
      chk (vecChecks c [dst] srcs (shapeUG ((regNames srcs).map (vtag c))) ++ [bankCheck c g (regNames (dst :: srcs))]) <|
      let act := activeLanes c g
      let s := writeRegs s c dst.1 dst.2 act fun j i => (f c j i).1
      .retire (raiseFlags s c.core c.g
        (act.foldl (fun x i => (List.range dst.2).foldl (fun x j => x ||| (f c j i).2) x) 0))

/-- The terms of a component of a complex product (02 R62). -/
def complexTerms (im : Bool) (xr xi yr yi : Word) : List Term :=
  if im then [termMul (fval xr) (fval yi), termMul (fval xi) (fval yr)]
  else [termMul (fval xr) (fval yr), termNeg (termMul (fval xi) (fval yi))]

/-- BFLY2 (09 R239). -/
def execBfly2 (g : BitVec 3) (d a b : BitVec 7) (s : State) : Host.Outcome State Fault Refusal :=
  pairOp s g.toNat (d.toNat, 4) [(a.toNat, 2), (b.toNat, 4)] fun c j i =>
    let im := j % 2 = 1
    let r (n : Nat) := vreg c n i
    let b := b.toNat
    let ts := complexTerms im (r (b + 2)) (r (b + 3)) (r b) (r (b + 1))
    asWord (sumRound f32 rne (termOf (fval (r (a.toNat + j % 2))) :: if j < 2 then ts else ts.map termNeg))

/-- CMUL (09 R240). -/
def execCmul (g : BitVec 3) (d a b : BitVec 7) (s : State) : Host.Outcome State Fault Refusal :=
  pairOp s g.toNat (d.toNat, 2) [(a.toNat, 2), (b.toNat, 2)] fun c j i =>
    let r (n : Nat) := vreg c n i
    asWord (sumRound f32 rne (complexTerms (j = 1) (r a.toNat) (r (a.toNat + 1)) (r b.toNat) (r (b.toNat + 1))))

/-- CMAD (09 R240). -/
def execCmad (g : BitVec 3) (d a b : BitVec 7) (s : State) : Host.Outcome State Fault Refusal :=
  pairOp s g.toNat (d.toNat, 2) [(a.toNat, 2), (b.toNat, 2), (d.toNat, 2)] fun c j i =>
    let r (n : Nat) := vreg c n i
    asWord (sumRound f32 rne (complexTerms (j = 1) (r a.toNat) (r (a.toNat + 1)) (r b.toNat) (r (b.toNat + 1))
      ++ [termOf (fval (r (d.toNat + j)))]))

/-! ## Reductions (02 R59, 09 R241) -/

/-- Combine neighbours of one level of the tree. -/
def treeLevel (op : Word → Word → Word × BitVec 5) : List (Option Word) → List (Option Word) × BitVec 5
  | x :: y :: r =>
    let (t, f) := treeLevel op r
    match x, y with
    | some x, some y => let z := op x y; (some z.1 :: t, f ||| z.2)
    | some x, none => (some x :: t, f)
    | none, y => (y :: t, f)
  | l => (l, 0)

/-- The five levels of the tree. -/
def treeFold (op : Word → Word → Word × BitVec 5) : Nat → List (Option Word) → List (Option Word) × BitVec 5
  | 0, l => (l, 0)
  | n + 1, l =>
    let (t, f) := treeLevel op l
    let (r, f') := treeFold op n t
    (r, f ||| f')

/-- A reduction over the active lanes in the fixed tree; with no active lane nothing is written (09 R241). -/
def fredOp (s : State) (g d a : Nat) (op : Word → Word → Word × BitVec 5) : Host.Outcome State Fault Refusal :=
  vecOp s false g d [a] (fun _ => shapeIs .uniform) fun c _ =>
    let m := guarded c g
    let r := treeFold op 5 ((List.range 32).map fun i => if m.getLsbD i then some (vreg c a i) else none)
    ((r.1.getD 0 none).getD 0, r.2)

/-- FREDADD (09 R241). -/
def execFredadd (g : BitVec 3) (d a : BitVec 7) (s : State) : Host.Outcome State Fault Refusal :=
  fredOp s g.toNat d.toNat a.toNat fun x y => asWord (sumRound f32 rne [termOf (fval x), termOf (fval y)])
/-- FREDMAX (09 R241). -/
def execFredmax (g : BitVec 3) (d a : BitVec 7) (s : State) : Host.Outcome State Fault Refusal :=
  fredOp s g.toNat d.toNat a.toNat (fpick true)
/-- FREDMIN (09 R241). -/
def execFredmin (g : BitVec 3) (d a : BitVec 7) (s : State) : Host.Outcome State Fault Refusal :=
  fredOp s g.toNat d.toNat a.toNat (fpick false)

end Sys2Proof.Machine
end

