-- ==== Sys2Proof/Machine/Pages.lean ====
section
/-! DEFINITION. Walks, shootdowns, re-striping and the page instructions (15 R361 to R381). -/
namespace Sys2Proof.Machine

/-! ## Walks (15 R363, R364) -/

/-- A page of a context is under re-striping and covers an address. -/
def migPage (m : Migration) (ctx va : Nat) : Bool :=
  m.ctx = ctx && m.stage ≠ .queued && (match m.old with
    | some l => m.va ≤ va && va < m.va + pageBytes l.size
    | none => false)

/-- New walks of a page that is being published are held (15 R375). -/
def walkHeld (s : State) (w : Walk) : Bool := s.pages.queue.any fun m => m.stage = .publishing && migPage m w.ctx w.va

/-- Post a walk to the host-link walk mailbox (15 R363, 16 R386). -/
def postWalk (s : State) (w : Walk) : State :=
  let s := modFlight s fun f => { f with walks := f.walks.map fun x => if x.id = w.id then { x with posted := true } else x }
  raiseIrq { s with host := { s.host with walkCtx := w.ctx, walkVa := BitVec.ofNat 64 w.va, walkFor := some w.id } } 2

/-- Note the leaf with an unusable placement word that a walk found. -/
def noteSeen (s : State) (id : Nat) (l : Option Leaf) : State :=
  modFlight s fun f => { f with walks := f.walks.map fun x => if x.id = id then { x with seen := l } else x }

/-- A walk takes one of the 32 walkers of its die: those beyond queue in arrival order (01 R12, 15 R365). -/
def walkerFree (s : State) (w : Walk) : Bool :=
  (s.flight.walks.filter fun x => x.res.isNone && !x.posted && x.id < w.id && coreDie x.core = coreDie w.core).length < 32

/-- PAGE_WALK (15 R363): the hardware walk, or with WALK = 0 the post to the mailbox. -/
def execPageWalk (id : Nat) (s : State) : Host.Outcome State Fault Refusal :=
  match s.flight.walks.find? fun w => w.id = id with
  | some w =>
    let free := w.res.isNone && w.zeroing.isNone && !w.posted && !walkHeld s w
    if s.mode.getLsbD 1 then event s (free && walkerFree s w) (ownWalk (noteSeen s id (rawLeaf s w.ctx w.va)) w (walkPage s w.ctx w.va))
    else event s (free && s.host.walkFor.isNone) (postWalk s w)
  | none => .next s

/-- FRAME_OWNER_ZEROING (15 R364). -/
def execFrameOwnerZeroing (id : Nat) (s : State) : Host.Outcome State Fault Refusal :=
  match s.flight.walks.find? fun w => w.id = id with
  | some w => match w.zeroing with
    | some l => .next (endWalk (takeFrames s w.ctx l) w (.leaf l))
    | none => .next s
  | none => .next s

/-- The walk that the mailbox holds. -/
def mailWalk (s : State) : Option Walk := s.host.walkFor.bind fun i => s.flight.walks.find? fun w => w.id = i

/-- Free the walk mailbox. -/
def freeWalkMail (s : State) : State := { s with host := { s.host with walkFor := none } }

/-- The checks on a leaf that the host returns (15 R363); it maps the 64 KiB of the address (log entry 22). -/
def hostLeaf (s : State) (e : Nat) : WalkRes :=
  if !bitOf e 0 || !bitOf e 1 || entryReserved e true then .code cTRANSLATION else leafCheck s (leafOf e 0 0)

/-- WALK_MAILBOX_DONE (15 R363). -/
def execWalkMailboxDone (leaf : BitVec 128) (s : State) : Host.Outcome State Fault Refusal :=
  match mailWalk s with
  | some w => .next (ownWalk (noteSeen (freeWalkMail s) w.id (some (leafOf leaf.toNat 0 0))) w (hostLeaf s leaf.toNat))
  | none => .next s

/-- WALK_MAILBOX_FAULT (15 R363). -/
def execWalkMailboxFault (s : State) : Host.Outcome State Fault Refusal :=
  match mailWalk s with
  | some w => .next (endWalk (freeWalkMail s) w (.code cTRANSLATION))
  | none => .next s

/-! ## Shootdowns (15 R366) -/

/-- The addresses a shootdown names: a range, or every page of the context. -/
def shootCovers (w0 w1 : Nat) (ctx va n : Nat) : Bool :=
  ctx = bitsOf w1 11 0
    && (bitsOf w1 13 12 = 3 || overlap (bitsOf w0 55 0) (bitsOf w1 47 16 * pageBytes (bitsOf w1 13 12)) va n)

/-- A walk whose leaf is no longer to be used: an outcome is forgotten, and one that zeroes frames walks again. -/
def dropWalk (which : TEntry → Bool) (w : Walk) : Option Walk :=
  let named (l : Leaf) : Bool := which { ctx := w.ctx, va := pageBase l w.va, leaf := l }
  match w.res, w.zeroing with
  | some (.leaf l), _ => if named l then none else some w
  | _, some l => some (if named l then { w with zeroing := none } else w)
  | _, _ => some w

/-- The translation that a copy command keeps is no longer to be used. -/
def dropKept (which : TEntry → Bool) (ctx : Nat) (c : CopyCmd) : CopyCmd :=
  { c with kept := c.kept.filter fun k => !which { ctx := ctx, va := k.1, leaf := k.2 } }

/-- A lane of an ATG that has been translated and not sent (11 R283). -/
def unsentLane (which : TEntry → Bool) (r : GlobalReq) : Bool :=
  r.stage = .translate && r.leaf.any fun l => which { ctx := r.ctx, va := pageBase l r.va, leaf := l }

/-- Drop the translations that a condition picks from every cache, walk, copy command and lane not yet sent. -/
def dropTranslations (s : State) (which : TEntry → Bool) : State :=
  let lanes := s.flight.global.filter (unsentLane which)
  let s := { s with
    flight := { s.flight with
      walks := s.flight.walks.filterMap (dropWalk which)
      global := s.flight.global.map fun r => if unsentLane which r then { r with leaf := none } else r }
    cores := s.cores.map fun c => (c.1, { c.2 with
      tcache := c.2.tcache.filter fun e => !which e
      block := c.2.block.map fun b => { b with copy := { b.copy with cmds := b.copy.cmds.map (dropKept which b.ctx) } } })
    dies := s.dies.map fun d => (d.1, { d.2 with tcache := d.2.tcache.filter fun e => !which e }) }
  foldSt (fun s r => startWalk s r.thread.core r.ctx r.va false) s lanes

/-- The accesses under way that were translated for the addresses a condition picks, of the caches another picks. -/
def translated (s : State) (here : Nat → Nat → Bool) (which : Nat → Nat → Bool) : List Nat :=
  ((s.flight.global.filter fun r => r.leaf.isSome && r.stage = .atHome && here r.thread.core r.die && which r.ctx r.va).map
    GlobalReq.id)
  ++ ((s.flight.reads.filter fun r => here r.core r.die && (match getBlk s r.core with
      | some b => which b.ctx r.va
      | none => false)).map ReadReq.id)

/-- An access under way is still to be performed. -/
def stillOut (s : State) (id : Nat) : Bool :=
  (s.flight.global.any fun r => r.id = id && r.stage = .atHome) || s.flight.reads.any fun r => r.id = id

/-- SHOOTDOWN (15 R366): a write of word 1. A write while one runs is ignored (log entry 23). -/
def execShootdown (word0 word1 : BitVec 64) (s : State) : Host.Outcome State Fault Refusal :=
  let w0 := word0.toNat
  let w1 := word1.toNat
  let set (st : BitVec 2) (waiting : List Nat) (s : State) : State :=
    { s with pages := { s.pages with shoot := { word0 := word0, word1 := word1, status := st, waiting := waiting } } }
  let busy := s.pages.queue.any fun m => m.stage ≠ .queued && (match m.old with
    | some l => shootCovers w0 w1 m.ctx m.va (pageBytes l.size)
    | none => false)
  event s (s.pages.shoot.status ≠ 1)
    (if (bitsOf w1 13 12 ≠ 3 && bitsOf w1 47 16 = 0) || busy then set 3 [] s
    else
      let ids := translated s (fun _ _ => true) fun ctx va => shootCovers w0 w1 ctx va 128
      set 1 ids (dropTranslations s fun e => shootCovers w0 w1 e.ctx e.va (pageBytes e.leaf.size)))

/-- SHOOTDOWN_COMPLETE (15 R366). -/
def execShootdownComplete (s : State) : Host.Outcome State Fault Refusal :=
  event s (s.pages.shoot.status = 1 && !s.pages.shoot.waiting.any (stillOut s))
    { s with pages := { s.pages with shoot := { s.pages.shoot with status := 2, waiting := [] } } }

/-! ## Re-striping (15 R373 to R376, R380) -/

/-- A request the restriper holds. -/
def getMig (s : State) (id : Nat) : Option Migration := s.pages.queue.find? fun m => m.id = id

/-- Change a request the restriper holds. -/
def modMig (s : State) (id : Nat) (f : Migration → Migration) : State :=
  { s with pages := { s.pages with queue := s.pages.queue.map fun m => if m.id = id then f m else m } }

/-- Remove a request from the restriper. -/
def dropMig (s : State) (id : Nat) : State :=
  { s with pages := { s.pages with queue := s.pages.queue.filter fun m => m.id ≠ id } }

/-- The bytes of the entry of a leaf, as memory holds it now; a leaf that the host returned has none (log entry 22). -/
def entryNow (s : State) (l : Leaf) : Nat := bytesNat (physBytes s geoQuad l.entry 16)

/-- The device writes STATE in a leaf, and no other field (15 R362). -/
def writeState (s : State) (l : Leaf) (st : BitVec 3) : State :=
  if l.entry = 0 then s else physPut s geoQuad (l.entry + 8) [BitVec.ofNat 8 (bitsOf (entryNow s l) 71 67 * 8 + st.toNat)]

/-- The publish writes the frame, the placement word and STATE of a leaf; the rest of the entry is software's (15 R362,
R375). -/
def writeLeafFrame (s : State) (l : Leaf) (pa : Nat) (p : Word) : State :=
  if l.entry = 0 then s
  else
    let e := entryNow s l
    physPut s geoQuad l.entry (natBytes 16 (bitsOf e 11 0 + pa / 4096 * 2 ^ 12 + bitsOf e 63 52 * 2 ^ 52
      + bitsOf e 95 67 * 2 ^ 67 + p.toNat * 2 ^ 96))

/-- The state of a page as its leaf's entry holds it now (15 R362). -/
def leafState (s : State) (l : Leaf) : BitVec 3 :=
  if l.entry = 0 then l.state else BitVec.ofNat 3 (bitsOf (entryNow s l) 66 64)

/-- The state code of a stage (15 R373). -/
def stageCode : MigStage → Nat
  | .queued => 0
  | .copying => 1
  | .frozen => 2
  | .publishing => 3

/-- The page of a re-stripe shares a location with its new frame (15 R380). -/
def sharesLocation (l : Leaf) (pa : Nat) (p : Word) : Bool :=
  placeTier l.place = placeTier p && (List.range (pageBytes l.size / 256)).any fun i =>
    match delocate l.place (locate p (pa + 256 * i)) with
    | some a => l.pa ≤ a && a < l.pa + pageBytes l.size
    | none => false

/-- A PGPROBE or PGMIG asks for its translation: the leaf, with an unusable placement word too, when there is an outcome. -/
def probeAsk (s : State) (core ctx va : Nat) : State × Option (Option Leaf) :=
  let seen := (s.flight.walks.find? fun w => w.core = core && w.ctx = ctx && samePiece w.va va && w.keep && w.res.isSome).bind Walk.seen
  match askLeaf s core ctx va with
  | (s, some (.leaf l)) => (s, some (some l))
  | (s, some (.code c)) => (s, some (if c = cPLACEMENT then seen else none))
  | (s, none) => (s, none)

/-- The leaf of the page that a request is to move, once it is known: a PGMIG translates as its core does, the device
itself by a walk (15 R365, R380). The entry of a leaf that the host returned is the one the tables hold (log entry 22). -/
def migLeaf (s : State) (m : Migration) : State × Option (Option Leaf) :=
  let r := match m.by_ with
    | .pgmig core _ _ _ => probeAsk s core m.ctx m.va
    | _ => if devWalks s m.ctx m.va then (s, some (rawLeaf s m.ctx m.va)) else match devTranslate s m.ctx m.va with
      | (s, .leaf l) => (s, some (some l))
      | (s, .code _) => (s, some none)
  let full (l : Leaf) : Leaf := match l.entry, rawLeaf s m.ctx m.va with
    | 0, some x => { l with entry := x.entry, size := x.size }
    | _, _ => l
  (r.1, r.2.map fun o => o.map fun l => { full l with state := leafState s (full l) })

/-- A die of the new geometry leaves admission, or is being reset (15 R373, R376). -/
def lostDie (s : State) (m : Migration) : Bool :=
  !placeRemote m.newPlace && (placeDies m.newPlace).any fun d => !dieAdmitted s d || (s.dreset.busy && s.dreset.die.toNat = d)

/-- Why the restriper refuses a request, in the order of 15 R380. -/
def migCode (s : State) (m : Migration) (leaf : Option Leaf) : Option Byte :=
  match leaf with
  | none => some cTRANSLATION
  | some l =>
    let n := pageBytes l.size
    let p := m.newPlace
    firstOf [(!aligned m.va n || !aligned m.newPa n, cMISALIGN),
      (l.state ≠ 0 || s.pages.queue.any (fun o => o.id ≠ m.id && migPage o m.ctx m.va), cPLACEMENT),
      (!placeRemote p && (placeDies p).any (fun d => dieHomeDown s d
          || (s.dreset.busy && s.dreset.die.toNat = d && !dieAdmitted s d)), cHOME_DOWN),
      (placeRemote p || placeUnusable s p m.newPa n, cPLACEMENT),
      (retiredFrame s p m.newPa n, cPLACEMENT),
      (sharesLocation l m.newPa p, cPLACEMENT),
      ((List.range (n / 65536)).any (fun i =>
          let o := frameOwner s (placeTier p) (m.newPa + 65536 * i)
          o ≠ 0xFFFF && o ≠ m.ctx), cPERMISSION)]

/-- The core holds a block of the cluster. -/
def holdsCluster (s : State) (core cluster : Nat) : Bool := (getBlk s core).any fun b => b.cluster = cluster

/-- An error of a re-stripe: for a PGMIG the phase of its barrier becomes an error phase and a record of kind A is appended
(15 R380); a page of a failed unit is to be moved again (15 R377). -/
def migFail (s : State) (m : Migration) (code : Byte) (reached : Nat) : State :=
  let s := dropMig s m.id
  match m.by_ with
  | .pgmig core cl bar rec_ =>
    let s := agentRecord s m.ctx
      { rec_ with code := code, gts := s.clk.gts, detail := BitVec.ofNat 32 (0xEE + reached * 256) }
    match bar with
    | some n => if holdsCluster s core cl then agentFault s core n code else s
    | none => s
  | .retire u => { s with pages := { s.pages with posts := s.pages.posts ++ [(m.ctx, m.va, u)] } }
  | .evacuate => s

/-- RESTRIPE_CHECK (15 R380). -/
def execRestripeCheck (id : Nat) (s : State) : Host.Outcome State Fault Refusal :=
  match getMig s id with
  | none => .next s
  | some m =>
    if m.stage ≠ .queued then .next s
    else match migLeaf s m with
    | (s, none) => .next s
    | (s, some leaf) => .next (match migCode s m leaf, leaf with
      | none, some l =>
        let s := foldSt (fun s i =>
          let pa := m.newPa + 65536 * i
          if frameOwner s (placeTier m.newPlace) pa = 0xFFFF then setOwner s (placeTier m.newPlace) pa m.ctx else s) s
          (List.range (pageBytes l.size / 65536))
        modMig (writeState s l 1) id fun m => { m with stage := .copying, old := some l, pass := 0, dirty := [] }
      | some c, _ => migFail s m c 0
      | none, none => s)

/-- A word of the new frames has an uncorrectable error that did not come with the page (15 R373, log entry 24). -/
def newFrameBad (s : State) (m : Migration) (l : Leaf) : Bool :=
  (List.range (pageBytes l.size / 4)).any fun i =>
    badAt s m.newPlace (m.newPa + 4 * i) 4 && !badAt s l.place (l.pa + 4 * i) 4

/-- A re-stripe goes on: the abort row of 15 R373 does not apply. -/
def goesOn (s : State) (m : Migration) : Bool :=
  !lostDie s m && (m.stage = .publishing || !m.old.any (newFrameBad s m))

/-- Copy one line of a page to its new home, through the old home's L2; a word's uncorrectable error goes with it, and that
of its unit or its block's metadata becomes one of each of its words (15 R372, R374, R377, log entry 24). -/
def moveLine (s : State) (m : Migration) (l : Leaf) (o : Nat) : State :=
  let a := l.pa + o
  let b := m.newPa + o
  let data := (homeLine s l.place a).data
  let bad := (List.range 32).filter fun i => badAt s l.place (a + 4 * i) 4
  let s := { s with dies := s.dies.map fun d => (d.1, { d.2 with visitor := tdel (lineKey m.newPlace b) d.2.visitor }) }
  let s := putHome (clearBad s (locNum m.newPlace b) 128) m.newPlace b { data := data, dirty := true, dup := l.dup }
  { s with bad := bad.foldl (fun t i => tput (locNum m.newPlace (b + 4 * i) / 4) true t) s.bad }

/-- Copy granules of 256 bytes of a page. -/
def moveGranules (s : State) (m : Migration) (gs : List Nat) : State :=
  match m.old with
  | some l => foldSt (fun s g => moveLine (moveLine s m l (256 * g)) m l (256 * g + 128)) s gs
  | none => s

/-- The granules of a page. -/
def allGranules (m : Migration) : List Nat := List.range (((m.old.map fun l => pageBytes l.size).getD 0) / 256)

/-- The dirty granules. -/
def dirtyGranules (m : Migration) : List Nat := m.dirty.map Prod.fst

/-- The dirty granules homed on each die total at most 256 KiB (15 R374). -/
def withinBound (m : Migration) : Bool :=
  match m.old with
  | some l => (List.range 4).all fun d =>
      ((dirtyGranules m).filter fun g => homeDie l.place (l.pa + 256 * g) = d).length ≤ 1024
  | none => true

/-- The words of a page that are registered, in the registry of a die: their keys. -/
def pageWords (s : State) (l : Leaf) (d : Nat) (which : RegWord → Bool) : List Nat :=
  ((getDie s d).registry.filter fun e =>
    which e.2 && placeSame (keyPlace (e.1 / 32)) = placeSame l.place && l.pa ≤ keyAddr (e.1 / 32)
      && keyAddr (e.1 / 32) < l.pa + pageBytes l.size).map Prod.fst

/-- Recall every registration of a page's words (15 R374): the words returned dirty mark their granules. -/
def recallPage (s : State) (l : Leaf) : State :=
  foldSt (fun s d => foldSt (fun s k =>
    let a := keyAddr (k / 32) + 4 * (k % 32)
    recallWord (markDirty s l.place a) l.place a) s (pageWords s l d fun w => w.owner ≠ 0)) s (List.range 4)

/-- RESTRIPE_PASS_END (15 R374): the granules are copied; the page makes another pass or enters FROZEN. -/
def execRestripePassEnd (id : Nat) (s : State) : Host.Outcome State Fault Refusal :=
  match getMig s id with
  | none => .next s
  | some m =>
    event s (m.stage = .copying && goesOn s m)
      (let ok := withinBound m
      let s := moveGranules s m (if m.pass = 0 then allGranules m else dirtyGranules m)
      let s := modMig s id fun m => { m with pass := m.pass + 1, dirty := [] }
      match m.old with
      | some l => if ok then
          recallPage (modMig (writeState s l 2) id fun m => { m with stage := .frozen }) l
        else s
      | none => s)

/-- RESTRIPE_FINAL_COPY (15 R375): the remaining granules are copied; PUBLISHING starts with the shootdown. -/
def execRestripeFinalCopy (id : Nat) (s : State) : Host.Outcome State Fault Refusal :=
  match getMig s id with
  | none => .next s
  | some m =>
    event s (m.stage = .frozen && goesOn s m) (match m.old with
      | some l =>
        let s := moveGranules s m (dirtyGranules m)
        let here (c : Nat) (core die : Nat) : Bool := if c < 192 then core = c else die = c - 192
        let page (ctx va : Nat) : Bool := ctx = m.ctx && m.va ≤ va && va < m.va + pageBytes l.size
        let waiting := ((List.range 196).map fun c => (c, translated s (here c) page)).filter fun e => !e.2.isEmpty
        let s := dropTranslations (writeState s l 3) fun e => page e.ctx e.va
        modMig s id fun m => { m with stage := .publishing, dirty := [], final := true, acks := [], waiting := waiting }
      | none => s)

/-- The key of a word at its new home. -/
def movedKey (m : Migration) (l : Leaf) (k : Nat) : Nat :=
  lineKey m.newPlace (m.newPa + (keyAddr (k / 32) - l.pa)) * 32 + k % 32

/-- A request under way carries the generation that the publish will give the page: it must first be performed or
returned (15 R375). -/
def genInUse (s : State) (m : Migration) (l : Leaf) : Bool :=
  let g := placeGen (placeWithGen l.place (placeGen l.place + 1))
  let page (ctx va : Nat) (x : Leaf) : Bool := ctx = m.ctx && m.va ≤ va && va < m.va + pageBytes l.size && placeGen x.place = g
  s.flight.global.any (fun r => r.stage = .atHome && r.leaf.any (page r.ctx r.va))
    || s.flight.reads.any fun r => (getBlk s r.core).any fun b => page b.ctx r.va r.leaf

/-- What the registries and the copies still held of the new frames, from an earlier use of them, is forgotten (15 R374). -/
def forgetFrames (s : State) (m : Migration) (n : Nat) : State :=
  let new (k : Nat) : Bool :=
    placeSame (keyPlace k) = placeSame m.newPlace && m.newPa ≤ keyAddr k && keyAddr k < m.newPa + n
  { s with
    dies := s.dies.map fun d => (d.1, { d.2 with
      registry := d.2.registry.filter fun e => !new (e.1 / 32)
      regOrder := d.2.regOrder.filter fun k => !new k
      visitor := d.2.visitor.filter fun e => !new e.1 })
    flight := { s.flight with linkWords := s.flight.linkWords.filter fun w => !new w.key } }

/-- The lines that the groups of a block have stored to, for AFENCE, under the keys they have after a publish (11 R294). -/
def moveStored (move : Nat → Nat) (b : Block) : Block :=
  { b with groups := b.groups.map fun g => (g.1, { g.2 with stored := g.2.stored.map move }) }

/-- The publish (15 R375): the last granules, release marks and owner-lost bits move, the visitor copies are discarded,
the leaf names the new frame with the next generation, and waiters wait at the new home. -/
def publish (s : State) (m : Migration) (l : Leaf) : State :=
  let s := recallPage s l
  let s := moveGranules s m (((getMig s m.id).map dirtyGranules).getD [])
  let s := forgetFrames s m (pageBytes l.size)
  let inPage (k : Nat) : Bool := placeSame (keyPlace k) = placeSame l.place && l.pa ≤ keyAddr k && keyAddr k < l.pa + pageBytes l.size
  let s := foldSt (fun s d => foldSt (fun s k =>
    let w := tgetD {} k (getDie s d).registry
    let k' := movedKey m l k
    let s := modDie s d fun x => { x with registry := tdel k x.registry }
    if !w.lost && w.marks.isEmpty then s
    else modReg (registerLine s m.newPlace (keyAddr (k' / 32))) m.newPlace (keyAddr (k' / 32) + 4 * (k' % 32)) fun _ =>
      { w with owner := 0 })
    s (pageWords s l d fun _ => true)) s (List.range 4)
  let moved (k : Nat) : Nat := if inPage k then lineKey m.newPlace (m.newPa + (keyAddr k - l.pa)) else k
  let move (w : Waiter) : Waiter := { w with key := moved w.key }
  let leave (x : Die) : Die :=
    { x with visitor := x.visitor.filter fun e => !inPage e.1
             regOrder := x.regOrder.filter fun k => !inPage k
             waiters := x.waiters.map move }
  let failing := tdel (framePart (placeTier l.place) l.pa) s.pages.failing
  let s := { s with
    dies := s.dies.map fun d => (d.1, leave d.2)
    pages := { s.pages with failing := failing }
    cores := s.cores.map fun c => (c.1, { c.2 with block := c.2.block.map (moveStored moved) })
    sched := { s.sched with clusters := s.sched.clusters.map fun c => (c.1, { c.2 with
      saved := c.2.saved.map fun k => { k with block := moveStored moved k.block } }) } }
  writeLeafFrame s l m.newPa (placeWithGen m.newPlace (placeGen l.place + 1))

/-- The frames that a retirement has left are never placed again (15 R377). -/
def retireFrames (s : State) (l : Leaf) : State :=
  let r := (leafParts l).foldl (fun t pa => tput (framePart (placeTier l.place) pa) true t) s.pages.retired
  { s with pages := { s.pages with retired := r } }

/-- A re-stripe has succeeded: the page size is credited to the barrier of a PGMIG (15 R380), or the old frames are
retired (15 R377). -/
def migDone (s : State) (m : Migration) (l : Leaf) : State :=
  let s := dropMig s m.id
  match m.by_ with
  | .pgmig core cl (some n) _ => if holdsCluster s core cl then creditBytes s core n (pageBytes l.size) else s
  | .retire _ => retireFrames s l
  | _ => s

/-- RESTRIPE_SHOOTDOWN_ACK (15 R375): a cache has acknowledged; after the last the page is published. -/
def execRestripeShootdownAck (id cache : Nat) (s : State) : Host.Outcome State Fault Refusal :=
  match getMig s id with
  | none => .next s
  | some m =>
    event s (m.stage = .publishing && goesOn s m && cache < 196 && !tgetD false cache m.acks
        && !(tgetD [] cache m.waiting).any (stillOut s) && !(m.acks.length = 195 && m.old.any (genInUse s m)))
      (let m' := { m with acks := tput cache true m.acks }
      let s := modMig s id fun _ => m'
      match m.old with
      | some l => if m'.acks.length = 196 then migDone (publish s m' l) m' l else s
      | none => s)

/-- RESTRIPE_ABORT (15 R373): an error in the new frames, or the loss of a die of the new geometry, which ends a PGMIG in
PUBLISHING too (15 R376). -/
def execRestripeAbort (id : Nat) (dieLoss : Bool) (s : State) : Host.Outcome State Fault Refusal :=
  match getMig s id with
  | none => .next s
  | some m =>
    match m.old with
    | none => .next s
    | some l =>
      let cause := if dieLoss then m.stage ≠ .queued && lostDie s m
        else (m.stage = .copying || m.stage = .frozen) && newFrameBad s m l
      event s cause
        (migFail (writeState s l 0) m (if dieLoss then cHOME_DOWN else cDATA_UNCORRECTABLE) (stageCode m.stage))

/-! ## Page instructions (15 R378 to R381) -/

/-- The information word of PGPROBE (15 R379). -/
def probeInfo (s : State) (l : Leaf) : DWord :=
  let f (b : Bool) (i : Nat) : Nat := if b then 2 ^ i else 0
  BitVec.ofNat 64 (l.place.toNat + (leafState s l).toNat * 2 ^ 32 + l.size * 2 ^ 35 + f l.r 37 + f l.w 38 + f l.x 39 + f l.dup 40)

/-- The result registers of PGPROBE: the words of a group, the pieces of the front-end. -/
def probeRegs (s : State) (va : Nat) (l : Option Leaf) : List Word × List DWord :=
  match l with
  | some l =>
    let a := BitVec.ofNat 64 (physAddr l va)
    let i := probeInfo s l
    ([a.truncate 32, a.extractLsb' 32 32, i.truncate 32, i.extractLsb' 32 32], [a, i])
  | none => ([0, 0, 0, 0], [0, 0])

/-- PGPROBE has its translation (15 R379). -/
def probeEnd (s : State) (w : Waiting) (va : Nat) (pd : BitVec 3) (rb : Nat) (l : Option Leaf) : State :=
  let r := probeRegs s va l
  endWait (regsWait (destWait s w pd.toNat l.isSome) w rb r.1 r.2) w

/-- PGPROBE (15 R379). -/
def execPgprobe (p : BitVec 3) (a b : BitVec 6) (s : State) : Host.Outcome State Fault Refusal :=
  sharedInstr s false [(a.toNat, 2), (b.toNat, 4)] [a.toNat, b.toNat, b.toNat + 1] false (62 < b.toNat) anyOne (.dest p) fun i =>
    .wait (startWait s i (.walk (opWide i a.toNat).toNat p b.toNat))

/-- PGMIG (15 R380). -/
def execPgmig (p : BitVec 3) (a b : BitVec 6) (x : BitVec 1) (n : BitVec 6) (s : State) : Host.Outcome State Fault Refusal :=
  sharedInstr s true [(a.toNat, 3), (b.toNat, 2)] [a.toNat, a.toNat + 1, b.toNat] false (62 < a.toNat) privileged (.dest p) fun i =>
    let blk := issBlk i
    if x = 0 && blk.hdr.barriers ≤ n.toNat then .fault { code := cBARRIER_ERR, bar := BitVec.ofNat 16 (blk.member * 256 + n.toNat) }
    else if 16 ≤ s.pages.queue.length then .retire (putDest s i p.toNat false)
    else
      let t := issThread i
      let place := match i with
        | .grp c => vreg c (a.toNat + 2) 0
        | .fe c => low (sreg c (a.toNat + 1))
      let va := (opWide i a.toNat).toNat
      let rec_ : FaultRec := { blockRecord s t.core blk t.who 0 2 with
        handle := handleOf blk t.core t.who, pc := issPc i, addr := BitVec.ofNat 64 va
        barrier := if x = 0 then BitVec.ofNat 16 (blk.member * 256 + n.toNat) else 0xFFFF }
      let m : Migration := { id := nextId s, ctx := blk.ctx, va := va
                             by_ := .pgmig t.core blk.cluster (if x = 0 then some n.toNat else none) rec_
                             newPa := (opWide i b.toNat).toNat, newPlace := place }
      let s := bumpId { s with pages := { s.pages with queue := s.pages.queue ++ [m] } }
      .retire (putDest s i p.toNat true)

/-- The job that executes is the fault-service job of its context (04 R110). FSJOB is compared whole with the record's
address, whose low byte is clear (log entry 134). -/
def isFsjob (s : State) (core : Nat) : Bool :=
  match getBlk s core with
  | some b => (getJob s b.job).any fun j => j.recAddr = (getCtx s b.ctx).fsjob && j.recAddr ≠ 0
  | none => false

/-- Privilege, or the fault-service job of the context. -/
def serviceRight (s : State) (core : Nat) : Bool := privileged s core || isFsjob s core

/-- PGSCRUB (15 R381). -/
def execPgscrub (g : BitVec 3) (a : BitVec 6) (s : State) : Host.Outcome State Fault Refusal :=
  sharedInstr s false [(a.toNat, 2)] [a.toNat] false false serviceRight (.guard g) fun i =>
    let va := (opWide i a.toNat).toNat
    let id := nextId s
    let t := bumpId (modFlight s fun f => { f with scans := f.scans ++
      [{ id := id, thread := issThread i, split := issSplit i, ctx := (issBlk i).ctx, va := va, dies := [0, 1, 2, 3] }] })
    .wait (startWait t i (.scrub id))

/-- Clear the owner-lost bits of a page's words (15 R381). -/
def scrubPage (s : State) (l : Leaf) : State :=
  foldSt (fun s d => foldSt (fun s k => modDie s d fun x =>
    { x with registry := tputD {} k { tgetD {} k x.registry with lost := false } x.registry })
    s (pageWords s l d RegWord.lost)) s (List.range 4)

/-- PGSCRUB_SCAN_DONE (15 R381): not while the page is under re-striping. -/
def execPgscrubScanDone (id : Nat) (s : State) : Host.Outcome State Fault Refusal :=
  match s.flight.scans.find? fun x => x.id = id && x.dies.length = 4 with
  | none => .next s
  | some x =>
    let w : Waiting := { core := x.thread.core, who := x.thread.who, split := x.split }
    let drop (s : State) : State := modFlight s fun f => { f with scans := f.scans.filter fun y => y.id ≠ id }
    let waits := match w.who with
      | .grp _ => (waitingSplit s w).any fun y => y.wait = .scrub id
      | .fe => (getBlk s w.core).any fun b => b.fe.wait = .scrub id
    if !waits || s.pages.queue.any fun m => migPage m x.ctx x.va then .next s
    else match askLeaf s x.thread.core x.ctx x.va with
      | (s, some (.leaf l)) => .next (endWait (scrubPage (drop s) l) w)
      | (s, some (.code c)) => .next (faultWait (drop s) w { code := asTranslation c, addr := BitVec.ofNat 64 x.va })
      | (s, none) => .next s

end Sys2Proof.Machine
end

