-- ==== Sys2Proof/Machine/Copy.lean ====
section
/-! DEFINITION. The tensor copy engine (12 R296 to R319): commands, their checks, the transfers, slot fills and
compressing stores, multicast ids, completion, streams. -/
namespace Sys2Proof.Machine

/-! ## Storage formats (12 R304, R305) -/

/-- TYPE of a FMT. -/
def fmtType (f : Byte) : Nat := f.toNat % 16
/-- SKIND of a FMT. -/
def fmtKind (f : Byte) : Nat := bitsOf f.toNat 5 4
/-- GSZ of a FMT. -/
def fmtGsz (f : Byte) : Nat := bitsOf f.toNat 7 6

/-- Storage bits of an element (12 R304). -/
def storeBits (t : Nat) : Nat := if t = 3 || t = 4 then 6 else typeBits t

/-- The K-group of a type (02 R54). -/
def kGroup (t : Nat) : Nat := if t = 11 || t = 12 then 8 else 32

/-- The scale group G in elements (02 R54). -/
def scaleGroup (sk gsz : Nat) : Nat := if sk = 1 then 32 else 32 * 2 ^ gsz

/-- Bytes of a scale entry in storage (12 R304). -/
def entryBytes (sk : Nat) : Nat := if sk = 0 then 0 else if sk = 1 then 1 else if sk = 2 then 2 else 4

/-- Scale entries of a row: every K-group has one (log entry 26). -/
def scaleEntries (sk gsz k : Nat) : Nat :=
  if sk = 0 then 0 else (k + scaleGroup sk gsz - 1) / scaleGroup sk gsz

/-- SKIND is permitted for a type (02 R54). -/
def kindAllowed (t sk : Nat) : Bool :=
  if t = 0 || 12 < t then false
  else if t = 9 || t = 10 then sk = 3
  else if t = 11 || t = 12 then sk = 0
  else sk < 3

/-- The most elements a row of a slot holds by its bytes (02 R52). -/
def rowMax (t : Nat) : Nat := 2048 / typeBits t

/-- The groups a row's side band holds (02 R53). -/
def sideGroups (sk : Nat) : Nat := if sk = 1 then 16 else if sk = 2 then 8 else 4

/-- A header with these fields is valid (02 R55). -/
def headerValid (t sk gsz k : Nat) : Bool :=
  kindAllowed t sk && (sk ≠ 1 || gsz = 0) && (sk < 2 || gsz ≠ 3) && 0 < k && k % kGroup t = 0 && k ≤ rowMax t
    && (sk = 0 || k ≤ sideGroups sk * scaleGroup sk gsz)

/-- The header word of a slot (02 R54). -/
def headerWord (t sk gsz k : Nat) : Word := BitVec.ofNat 32 (t + sk * 16 + k / 8 * 64 + gsz * 2 ^ 13)

/-- The codes of a storage row: n elements of b bits, ascending from bit 0 (12 R304). -/
def storageCodes (b n : Nat) (bs : List Byte) : List Nat :=
  let x := bytesNat bs
  (List.range n).map fun i => x / 2 ^ (b * i) % 2 ^ b

/-- Codes packed at b bits each, in bytes. -/
def packCodes (b : Nat) (cs : List Nat) : List Byte :=
  natBytes ((b * cs.length + 7) / 8) ((List.range cs.length).foldl (fun x i => x + cs.getD i 0 % 2 ^ b * 2 ^ (b * i)) 0)

/-! ## Descriptors (12 R297, R298) -/

/-- Row stride in pool. -/
def poolStride (rowb ps : Nat) : Nat := if ps = 0 then (rowb + 15) / 16 * 16 else ps

/-- A command as its descriptor words give it; its transfers are still to be made. -/
def readDesc (id op : Nat) (pc : Word) (w0 w1 w2 w3 b : DWord) (cyc : Nat) : CopyCmd :=
  { id := id, op := op, pc := pc, src := w0, dst := w1
    rows := bitsOf w2.toNat 15 0, rowb := bitsOf w2.toNat 31 16, gstride := (w2.extractLsb' 32 32).toInt
    fmt := w3.truncate 8, mask := w3.extractLsb' 8 12
    pstride := poolStride (bitsOf w2.toNat 31 16) (bitsOf w3.toNat 39 20), use := w3.extractLsb' 40 8
    acq := w3.getLsbD 48, rel := w3.getLsbD 49, scope := w3.extractLsb' 50 2, dead := w3.getLsbD 52
    scat := w3.getLsbD 53, mcid := w3.extractLsb' 54 4, bar := b.truncate 16, issuedAt := cyc, transfers := [] }

/-- The command reads global memory. -/
def readsGlobal (op : Nat) : Bool := op = 0xB0 || op = 0xB1 || op = 0xB2 || op = 0xB5

/-- The command writes global memory. -/
def writesGlobal (op : Nat) : Bool := op = 0xB4 || op = 0xB6

/-- The command fills a slot. -/
def fillsSlot (op : Nat) : Bool := op = 0xB2 || op = 0xB3

/-- A compressing TSTORE (12 R307). -/
def compresses (c : CopyCmd) : Bool := c.op = 0xB4 && c.fmt ≠ 0

/-- The members of MASK, ascending. -/
def maskMembers (c : CopyCmd) : List Nat := setBits 12 c.mask

/-- Elements of a row, of a fill or a compressing store (12 R305, R307). -/
def rowElems (c : CopyCmd) : Nat := if fillsSlot c.op then 8 * c.rowb / storeBits (fmtType c.fmt) else c.rowb / 4

/-- Bytes of a row's scale entries in storage. -/
def rowScales (c : CopyCmd) : Nat :=
  if fillsSlot c.op || compresses c then
    scaleEntries (fmtKind c.fmt) (fmtGsz c.fmt) (rowElems c) * entryBytes (fmtKind c.fmt)
  else 0

/-- Scale bytes of a row that the command reads: a fill's, or those of a TSTORE whose program supplies them (12 R307). -/
def rowScalesRead (c : CopyCmd) : Nat := if fillsSlot c.op || 2 ≤ fmtKind c.fmt then rowScales c else 0

/-- Bytes read for a row. -/
def rowTotal (c : CopyCmd) : Nat := c.rowb + rowScalesRead c

/-- round_up(x, 256). -/
def up256 (x : Nat) : Nat := (x + 255) / 256 * 256

/-- A 64-bit address sum (12 R300). -/
def wrap64 (x : Int) : Nat := (x % 2 ^ 64).toNat

/-- The global base of the command. -/
def globalBase (c : CopyCmd) : DWord := if readsGlobal c.op || c.op = 0xB7 then c.src else c.dst

/-- The pool address of the command's rows. -/
def poolBase (c : CopyCmd) : Nat :=
  if c.op = 0xB0 || c.op = 0xB5 then bitsOf c.dst.toNat 31 0 else bitsOf c.src.toNat 31 0

/-- The pool address of the index list (12 R300). -/
def listBase (c : CopyCmd) : Nat := if c.op = 0xB5 then bitsOf c.dst.toNat 63 32 else bitsOf c.src.toNat 63 32

/-- The command has an index list. -/
def hasList (op : Nat) : Bool := op = 0xB5 || op = 0xB6

/-- The global address of a row; idx is its index (12 R299, R300). -/
def rowGlobal (c : CopyCmd) (r idx : Nat) : Nat :=
  wrap64 ((globalBase c).toNat + (if hasList c.op then (idx : Int) else (r : Int)) * c.gstride)

/-- The global address of the scale entries of a row (12 R304). -/
def scaleGlobal (c : CopyCmd) (r : Nat) : Nat :=
  (up256 ((globalBase c).toNat + c.rows * c.gstride.toNat) + r * rowScales c) % 2 ^ 64

/-- The pool address of the scale entries of a row. -/
def scalePool (c : CopyCmd) (r : Nat) : Nat := up256 (poolBase c + c.rows * c.pstride) + r * rowScales c

/-- Rows of one transfer: a block of a scatter, or all (12 R301). -/
def blockRows (c : CopyCmd) : Nat :=
  if c.op = 0xB1 && c.scat then c.rows / max 1 (maskMembers c).length else c.rows

/-- The first row of transfer j. -/
def firstRow (c : CopyCmd) (j : Nat) : Nat := j * blockRows c

/-- The row after the last of transfer j. -/
def endRow (c : CopyCmd) (j : Nat) : Nat := firstRow c j + blockRows c

/-! ## Checks at issue (12 R302) -/

/-- Item 1: ILLEGAL. -/
def copyIllegal (c : CopyCmd) : Bool :=
  let t := fmtType c.fmt
  let sk := fmtKind c.fmt
  let stride := if c.op = 0xB2 || c.op = 0xB4 then c.gstride else (c.pstride : Int)
  let n := (maskMembers c).length
  let shape := 8 * c.rowb % storeBits t = 0 && headerValid t sk (fmtGsz c.fmt) (8 * c.rowb / storeBits t)
  (c.rowb = 0 && 0 < c.rows)
    || (if c.op = 0xB7 then false
        else if fillsSlot c.op then c.rows = 0 || 64 < c.rows || !shape || (sk ≠ 0 && stride ≤ 0)
        else if c.op = 0xB4 then c.fmt ≠ 0 && (c.rowb % 4 ≠ 0 || !headerValid t sk (fmtGsz c.fmt) (c.rowb / 4)
            || (sk ≠ 0 && stride ≤ 0))
        else c.fmt ≠ 0)
    || (c.op = 0xB1 && (n = 0 || (c.scat && c.rows % n ≠ 0)))

/-- Item 2: MISALIGN, with the address (12 R302). raw is PSTRIDE as the descriptor has it. -/
def copyMisaligned (c : CopyCmd) (raw : Nat) : Option Nat :=
  let glob := c.op ≠ 0xB3
  let pool := c.op ≠ 0xB2 && c.op ≠ 0xB7
  let base := if c.op = 0xB1 then bitsOf c.dst.toNat 18 0 else poolBase c
  if glob && ((globalBase c).toNat % 16 ≠ 0 || c.gstride % 16 ≠ 0) then some (globalBase c).toNat
  else if pool && (base % 16 ≠ 0 || raw % 16 ≠ 0) then some base
  else if hasList c.op && listBase c % 4 ≠ 0 then some (listBase c) else none

/-- The pool ranges of a command, address and bytes: every row by itself, the index list, and the scales that it reads row by
row (12 R302 item 3). The rows of a TCOPYM lie in the pool of each member, at offsets that grow (12 R301): their extent up to
the last. -/
def poolRanges (c : CopyCmd) : List (Nat × Nat) :=
  if c.rows = 0 || c.op = 0xB2 || c.op = 0xB7 then []
  else if c.op = 0xB1 then
    (maskMembers c).map fun m => (m * 2 ^ 19 + bitsOf c.dst.toNat 18 0, (blockRows c - 1) * c.pstride + c.rowb)
  else
    (List.range c.rows).map (fun r => (poolBase c + r * c.pstride, c.rowb))
      ++ (if hasList c.op then [(listBase c, 4 * c.rows)] else [])
      ++ (if rowScalesRead c = 0 then [] else (List.range c.rows).map fun r => (scalePool c r, rowScales c))

/-- Bytes from a pool address to the end of the part of the address space that names one pool (01 R23). -/
def windowLeft (a : Nat) : Nat := 2 ^ 19 - a % 2 ^ 19

/-- n bytes at a pool address are legal (01 R24). Those of a TCOPYM all lie in one member's pool; other ranges may go on in
the pool that the next addresses name. -/
def rangeLegal (s : State) (core : Nat) (one : Bool) (a n : Nat) : Bool :=
  let k := if one then n else min n (windowLeft a)
  let ok (a n : Nat) : Bool := a < 2 ^ 32 && (poolTarget s core (BitVec.ofNat 32 a) n).isSome
  ok a k && (k = n || ok (a + k) (n - k))

/-- Item 3: the first pool range that fails 01 R24. -/
def poolRangeBad (s : State) (core : Nat) (c : CopyCmd) : Option Nat :=
  ((poolRanges c).find? fun r => !rangeLegal s core (c.op = 0xB1) r.1 r.2).map Prod.fst

/-- Item 4: the barrier address of 12 R297 is none, or names an object of the cluster. -/
def copyBarOk (s : State) (core : Nat) (b : Block) (bar : BitVec 16) : Bool :=
  bar = 0xFFFF || (match coreCluster s core with
    | some cl => bar.toNat / 256 < cl.w * cl.h && bar.toNat % 256 < b.hdr.barriers
    | none => false)

/-- The core and index of a command's barrier. -/
def copyBar (s : State) (core : Nat) (bar : BitVec 16) : Option (Nat × Nat) :=
  if bar = 0xFFFF then none
  else (coreCluster s core).map fun cl => (memberCore cl (bar.toNat / 256), bar.toNat % 256)

/-! ## Acceptance (12 R303, R306, R309) -/

/-- Change the copy engine of a core's block. -/
def modCopy (s : State) (core : Nat) (f : CopyEngine → CopyEngine) : State :=
  modBlk s core fun b => { b with copy := f b.copy }

/-- Change a queued command. -/
def modCmd (s : State) (core id : Nat) (f : CopyCmd → CopyCmd) : State :=
  modCopy s core fun e => { e with cmds := e.cmds.map fun c => if c.id = id then f c else c }

/-- A queued command. -/
def getCmd (s : State) (core id : Nat) : Option CopyCmd :=
  (getBlk s core).bind fun b => b.copy.cmds.find? fun c => c.id = id

/-- Change a transfer of a command. -/
def modTr (s : State) (core id j : Nat) (f : Transfer → Transfer) : State :=
  modCmd s core id fun c => { c with transfers := c.transfers.set j (f (c.transfers.getD j { member := 0 })) }

/-- Change a slot. -/
def modSlot (s : State) (core n : Nat) (f : Slot → Slot) : State :=
  modCore s core fun k => { k with slots := tputD {} n (f (tgetD {} n k.slots)) k.slots }

/-- A slot of a core. -/
def getSlot (s : State) (core n : Nat) : Slot := tgetD {} n (getCore s core).slots

/-- The slot a fill names. -/
def cmdSlot (c : CopyCmd) : Nat := bitsOf c.dst.toNat 5 0

/-- The member that a transfer's records name (12 R311). -/
def transferMember (s : State) (core : Nat) (b : Block) (c : CopyCmd) (j : Nat) : Nat :=
  if c.op = 0xB1 then (if c.scat then (maskMembers c).getD j 0xF else 0xF)
  else if c.op = 0xB0 || c.op = 0xB5 then
    match poolTarget s core (BitVec.ofNat 32 (poolBase c)) 0, coreCluster s core with
    | some t, some cl =>
      let y := t.1
      if (clusterCores cl).contains y then coreX y - cl.x + cl.w * (coreY y - cl.y) else 0xF
    | _, _ => 0xF
  else b.member

/-- The transfers of a command (12 R311). -/
def makeTransfers (s : State) (core : Nat) (b : Block) (c : CopyCmd) : List Transfer :=
  let n := if c.op = 0xB1 && c.scat then (maskMembers c).length else 1
  (List.range n).map fun j =>
    { member := transferMember s core b c j, row := firstRow c j, ended := c.rows = 0 }

/-- A transfer meets its fault: its cycle, code, address and row, and LASTF (12 R311, R318). -/
def noteFault (s : State) (core id j : Nat) (code : Byte) (addr row : Nat) : State :=
  let f := (s.clk.cycle, code, BitVec.ofNat 64 addr, row)
  let s := modTr s core id j fun t => { t with ended := true, got := none, fault := t.fault.or (some f) }
  modCopy s core fun e => { e with lastf := code }

/-- A fill takes its slot: CLAIMED, FULL and FAULTED become FILLING; FREE, RELEASED and a number at or beyond SLOTS end
the command with SLOT (12 R306). -/
def takeSlot (s : State) (core : Nat) (b : Block) (c : CopyCmd) : State :=
  let n := cmdSlot c
  let st := (getSlot s core n).state
  if b.hdr.slots ≤ n || st = 0 || st = 5 then modCmd (noteFault s core c.id 0 cSLOT 0 0) core c.id fun c => { c with started := true }
  else modSlot s core n fun x => { x with state := 2, filling := true }

/-- The slot is being filled by an earlier command. -/
def slotBusy (s : State) (core : Nat) (c : CopyCmd) : Bool := (getSlot s core (cmdSlot c)).filling

/-- The id is DRAINING as a core's replica shows it (12 R309). -/
def mcidDraining (b : Block) (m : BitVec 4) : Bool := tgetD false m.toNat b.copy.mcids

/-- A multicast id is claimed: the own replica at once, the others by message (12 R309). -/
def claimMcid (s : State) (core : Nat) (m : BitVec 4) : State :=
  match getBlk s core, coreCluster s core with
  | some b, some cl =>
    let s := modCopy s core fun e => { e with mcids := tput m.toNat true e.mcids }
    let s := modCl s b.cluster fun x => { x with draining := if x.draining.contains m then x.draining else x.draining ++ [m] }
    foldSt (fun s c => if c = core then s else
      bumpId (modFlight s fun f => { f with mcids := f.mcids ++ [{ id := nextId s, src := core, core := c, mcid := m, claim := true }] }))
      s (clusterCores cl)
  | _, _ => s

/-- A command that passed its checks enters the queue (12 R303, R306). -/
def acceptCmd (s : State) (core : Nat) (b : Block) (c : CopyCmd) : State :=
  let c := { c with transfers := makeTransfers s core b c }
  let s := bumpId (modCopy s core fun e => { e with cmds := e.cmds ++ [c] })
  let s := if c.op = 0xB1 then claimMcid s core c.mcid else s
  if fillsSlot c.op && !(slotBusy s core c && cmdSlot c < b.hdr.slots && (getSlot s core (cmdSlot c)).state = 2) then
    takeSlot s core b c else s

/-- The declared lines of a stream, in row order (12 R315). -/
def streamLines (st : Stream) : List Nat :=
  (List.range st.rows).flatMap fun r =>
    let a := wrap64 (st.src.toNat + (r : Nat) * st.gstride)
    (List.range ((a + st.rowb + 127) / 128 - a / 128)).map fun i => (a / 128 + i) * 128

/-- TSTREAM takes effect (12 R315): a stream is stopped, or declared in place of one of its number. -/
def declareStream (s : State) (core : Nat) (c : CopyCmd) : State :=
  let n := bitsOf c.dst.toNat 10 8
  let st : Stream := { src := c.src, rows := c.rows, rowb := c.rowb, gstride := c.gstride, use := c.use, dead := c.dead
                       depth := bitsOf c.dst.toNat 7 0 }
  modCopy s core fun e =>
    { e with streams := if c.dst.getLsbD 15 || c.rows = 0 then tdel n e.streams else tput n st e.streams }

/-- The checks of 12 R302 in their order, for a command other than a STOP. -/
def copyChecks (s : State) (core : Nat) (b : Block) (c : CopyCmd) (raw : Nat) (k : Eff) : Eff :=
  if copyIllegal c || (c.op = 0xB7 && bitsOf c.dst.toNat 7 0 = 0) then .fault { code := cILLEGAL }
  else match copyMisaligned c raw with
    | some a => .fault { code := cMISALIGN, addr := BitVec.ofNat 64 a }
    | none => match poolRangeBad s core c with
      | some a => .fault { code := cPOOL_ADDR, addr := BitVec.ofNat 64 a }
      | none => if c.op ≠ 0xB7 && !copyBarOk s core b c.bar then .fault { code := cBARRIER_ERR, bar := c.bar } else k

/-- A data command of the front-end (12 R296 to R303). -/
def copyIssue (s : State) (op p a b : Nat) : Host.Outcome State Fault Refusal :=
  feInstr s false fun c =>
    if sregsPending s c [a, a + 1, a + 2, a + 3, b] then .hold 2
    else chk [(60 < a, cILLEGAL)] <|
      let w3 := sreg c (a + 3)
      let k := readDesc (nextId s) op c.blk.fe.pc (sreg c a) (sreg c (a + 1)) (sreg c (a + 2)) w3 (sreg c b) s.clk.cycle
      let stop := op = 0xB7 && k.dst.getLsbD 15
      let room := c.blk.copy.cmds.length < 32
      let accept : Eff :=
        if !room || (op = 0xB1 && mcidDraining c.blk k.mcid) then .retire (writeFpred s c.core p false)
        else .retire (writeFpred (if op = 0xB7 then declareStream s c.core k else acceptCmd s c.core c.blk k) c.core p true)
      if stop then accept else copyChecks s c.core c.blk k (bitsOf w3.toNat 39 20) accept

/-- TCOPY (12 R299). -/
def execTcopy (p : BitVec 3) (a b : BitVec 6) (s : State) : Host.Outcome State Fault Refusal :=
  copyIssue s 0xB0 p.toNat a.toNat b.toNat

/-- TCOPYM (12 R301). -/
def execTcopym (p : BitVec 3) (a b : BitVec 6) (s : State) : Host.Outcome State Fault Refusal :=
  copyIssue s 0xB1 p.toNat a.toNat b.toNat

/-- TFILL (12 R299, R305). -/
def execTfill (p : BitVec 3) (a b : BitVec 6) (s : State) : Host.Outcome State Fault Refusal :=
  copyIssue s 0xB2 p.toNat a.toNat b.toNat

/-- TSLOT (12 R299, R305). -/
def execTslot (p : BitVec 3) (a b : BitVec 6) (s : State) : Host.Outcome State Fault Refusal :=
  copyIssue s 0xB3 p.toNat a.toNat b.toNat

/-- TSTORE (12 R299, R307). -/
def execTstore (p : BitVec 3) (a b : BitVec 6) (s : State) : Host.Outcome State Fault Refusal :=
  copyIssue s 0xB4 p.toNat a.toNat b.toNat

/-- TGATHER (12 R299, R300). -/
def execTgather (p : BitVec 3) (a b : BitVec 6) (s : State) : Host.Outcome State Fault Refusal :=
  copyIssue s 0xB5 p.toNat a.toNat b.toNat

/-- TSCATTER (12 R299, R300). -/
def execTscatter (p : BitVec 3) (a b : BitVec 6) (s : State) : Host.Outcome State Fault Refusal :=
  copyIssue s 0xB6 p.toNat a.toNat b.toNat

/-- TSTREAM (12 R315). -/
def execTstream (p : BitVec 3) (a b : BitVec 6) (s : State) : Host.Outcome State Fault Refusal :=
  copyIssue s 0xB7 p.toNat a.toNat b.toNat

/-- TWAIT (12 R316). -/
def execTwait (g : BitVec 3) (n : BitVec 9) (s : State) : Host.Outcome State Fault Refusal :=
  feInstr s true fun c =>
    if !fpred c g.toNat then .retire s
    else if c.blk.copy.cmds.length ≤ (imm9 (feLit c) n).toNat then .retire s else .hold 13

/-- The status word (12 R318). -/
def copyStatus (e : CopyEngine) : DWord :=
  e.i4rsv ++ (0 : BitVec 8) ++ e.lastf ++ BitVec.ofNat 8 (32 - e.cmds.length) ++ BitVec.ofNat 8 e.cmds.length

/-- TQUERY (12 R317). -/
def execTquery (g : BitVec 3) (d : BitVec 6) (n : BitVec 9) (s : State) : Host.Outcome State Fault Refusal :=
  feInstr s true fun c =>
    let sel := (imm9 (feLit c) n).toNat
    if sregsPending s c [d.toNat] then .hold 2
    else chk [(2 < sel, cILLEGAL)] <|
      if !fpred c g.toNat then .retire s
      else
        let e := c.blk.copy
        let ids := (List.range 16).filter fun i => tgetD false i e.mcids
        let v := if sel = 1 then maskOf 64 (ids ++ e.streams.map fun x => 16 + x.1) else copyStatus e
        let s := if sel = 2 then modCopy s c.core fun e => { e with i4rsv := 0 } else s
        .retire (writeS s c.core d.toNat v)

/-! ## Pool side -/

/-- The core and offset of a pool address whose legality was checked at issue. -/
def poolPlace (s : State) (core a : Nat) : Nat × Nat :=
  let off := a % 2 ^ 19
  if a < 2 ^ 31 then
    match coreCluster s core with
    | some cl => (memberCore cl (a / 2 ^ 19), off)
    | none => (core, off)
  else (a / 2 ^ 19 % 2 ^ 8, off)

/-- No earlier pool access of the front-end to a core is still to be performed (12 R312), and the crossbar owes the core
nothing that this one sent before (01 R28); its pool is not under test (18 R426), no seam on the way is held, and nothing is
under way over the other route (01 R10, 16 R383). -/
def poolTurn (s : State) (core target : Nat) (c : CopyCmd) : Bool :=
  !(s.flight.pool.any fun r => r.src = ⟨core, .fe⟩ && r.dst = target && r.id < c.id && !r.arrived)
    && !crossBefore s core target (nextId s) && !coreTested s 1 target
    && !seamHeld s (coreDie core) (coreDie target)
    && !otherRoute s (coreDie core) (coreDie target) (viaOf s (coreDie core) (coreDie target)) (nextId s)

/-- No route leads to the pool of a core: the access is answered LINK_DOWN (01 R10). -/
def engineCut (s : State) (core target : Nat) : Bool := !routeUp s (coreDie core) (coreDie target)

/-- The handle the engine's accesses carry. -/
def feHandle (s : State) (core : Nat) : Word := threadHandle s ⟨core, .fe⟩

/-- The watchpoints of a target core see an access of the engine at its port (17 R409). -/
def copyPortWatch (s : State) (core : Nat) (c : CopyCmd) (t : Nat × Nat) (kind n : Nat) (data : DWord) : State :=
  watchCheck s t.1 false kind t.2 n core (feHandle s core) c.pc data

/-- The watchpoints of the issuing core see a row the engine sends (17 R409). -/
def copyRowWatch (s : State) (core : Nat) (c : CopyCmd) (kind addr n : Nat) (data : DWord) : State :=
  watchCheck s core true kind addr n core (feHandle s core) c.pc data

/-! ## Start (12 R312) -/

/-- Every earlier command has started, a slot held by an earlier fill is free, and a release may be performed. -/
def mayStart (s : State) (core : Nat) (b : Block) (c : CopyCmd) : Bool :=
  let earlier := b.copy.cmds.filter fun k => k.id < c.id
  earlier.all (fun k => k.started) && !(fillsSlot c.op && earlier.any fun k => fillsSlot k.op && cmdSlot k = cmdSlot c)
    && (!c.rel || ((!s.flight.pool.any fun r => r.src = ⟨core, .fe⟩ && r.id < c.id)
        && (!s.flight.global.any fun r => r.thread = ⟨core, .fe⟩ && r.id < c.id)
        && !earlier.any fun k => writesGlobal k.op))

/-- A command starts: a held fill takes its slot, and REL ends the release epoch (12 R306, R312). -/
def startCmd (s : State) (core : Nat) (b : Block) (c : CopyCmd) : State :=
  let ep := (getDie s (coreDie core)).epoch
  let s := modCmd s core c.id fun c => { c with started := true, epoch := ep }
  let s := if fillsSlot c.op && !slotBusy s core c then takeSlot s core b c else s
  if c.rel then releaseAt s core c.scope else s

/-! ## Global reads (10 R254, R257, R263, 12 R314) -/

/-- The words of a line that n bytes from an address touch. -/
def touchedWords (a n : Nat) : List Nat := (List.range ((a % 128 + n + 3) / 4 - a % 128 / 4)).map fun i => a % 128 / 4 + i

/-- Read rights and the home's answer for n bytes at a physical address, as a die's copy would meet them. answer: the
code of the way there; local_: the die's visitor copy serves every word, so that the home is not asked. -/
def readFaultBy (answer : State → Nat → Word → Nat → Option Byte) (s : State) (die : Nat) (l : Leaf) (a n : Nat)
    (local_ : Bool) : Option Byte :=
  match leafRight l true false false with
  | some c => some c
  | none =>
    let v := visitorOf s die (lineKey l.place a)
    if local_ then
      if (touchedWords a n).any fun i => (v.clean &&& v.bad).getLsbD i then some cDATA_UNCORRECTABLE else none
    else match answer s die l.place a with
      | some c => some c
      | none =>
        if placeRemote l.place then none
        else (List.range ((a + n + 3) / 4 - a / 4)).findSome? fun i =>
          let w := (a / 4 + i) * 4
          let o := (regWord s l.place w).owner
          if (regWord s l.place w).lost then some cOWNER_LOST
          -- a word registered to another owner is forwarded there (10 R257)
          else if o ≠ 0 then (if o ≠ ownerOfDie die && ownerCut s o l.place w then some cLINK_DOWN else none)
          else if badAt s l.place w 4 then some cDATA_UNCORRECTABLE else none

/-- The fault of a read that has been sent. -/
def readFault (s : State) (die : Nat) (l : Leaf) (a n : Nat) (local_ : Bool) : Option Byte :=
  readFaultBy homeCode s die l a n local_

/-- The fault of a read that is to be sent. -/
def sendFault (s : State) (die : Nat) (l : Leaf) (a n : Nat) (local_ : Bool) : Option Byte :=
  readFaultBy sendCode s die l a n local_

/-- The line is a visitor on the die: homed elsewhere, or of the host or peer tier. -/
def isVisitor (die : Nat) (p : Word) (a : Nat) : Bool := placeRemote p || homeDie p a ≠ die

/-- The die's visitor copy holds every word. -/
def visitorHits (s : State) (die : Nat) (p : Word) (a n : Nat) : Bool :=
  let v := visitorOf s die (lineKey p a)
  (touchedWords a n).all fun i => (v.clean ||| v.owned).getLsbD i

/-- A read is served on its own die at once. -/
def servedHere (s : State) (die : Nat) (p : Word) (a n : Nat) : Bool :=
  if isVisitor die p a then visitorHits s die p a n
  else (foreignWords s p (alignDown a 128) (touchedWords a n) (ownerOfDie die)).isEmpty

/-- The bytes a read of a die returns: its visitor copy's words, and the current ones for the others (10 R254, R257). -/
def readLine (s : State) (die : Nat) (p : Word) (a n : Nat) : List Byte :=
  let v := visitorOf s die (lineKey p a)
  (List.range n).map fun j =>
    let i := (a + j) % 128 / 4
    if isVisitor die p a && (v.clean ||| v.owned).getLsbD i then lineByte v.data ((a + j) % 128)
    else currentByte s p (a + j)

/-- The use count a fill attaches (12 R314). -/
def fillUse (c : CopyCmd) (p : Word) : Nat := if c.use = 0 then placeUseCount p else c.use.toNat

/-- A command's read hits a line with a count: it falls once per command (12 R314). none: the line is freed. -/
def countDown (use : Nat) (dead seen : Bool) : Option (Nat × Bool) :=
  if use = 0 || seen then some (use, dead)
  else if use = 1 then (if dead then none else some (0, dead)) else some (use - 1, dead)

/-- The command has counted a line. -/
def counted (s : State) (core : Nat) (c : CopyCmd) (k : Nat) : State :=
  modCmd s core c.id fun c => if c.counted.contains k then c else { c with counted := k :: c.counted }

/-- A read at a home slice hits the line or fills it (12 R314). -/
def touchHome (s : State) (core : Nat) (c : CopyCmd) (l : Leaf) (a : Nat) : State :=
  let k := lineKey l.place a
  match tfind k (getDie s (homeDie l.place a)).home with
  | some h =>
    if h.use = 0 then s
    else
      let s := counted s core c k
      match countDown h.use h.dead (c.counted.contains k) with
      | some (u, d) => putHome s l.place a { h with use := u, dead := d }
      | none => modDie s (homeDie l.place a) fun x => { x with home := tdel k x.home }
  | none => putHome s l.place a { homeLine s l.place a with use := fillUse c l.place, dead := c.dead, dup := l.dup }

/-- A read of a visitor line that is there (12 R314). -/
def touchVisitor (s : State) (core : Nat) (c : CopyCmd) (die : Nat) (p : Word) (a : Nat) : State :=
  let k := lineKey p a
  let v := visitorOf s die k
  if v.use = 0 then s
  else
    let s := counted s core c k
    match countDown v.use v.dead (c.counted.contains k) with
    | some (u, d) => putVisitor s die k { v with use := u, dead := d }
    | none => if v.owned = 0 then modDie s die fun x => { x with visitor := tdel k x.visitor } else s

/-- The command's global rows are MX blocks. -/
def mxGlobal (c : CopyCmd) : Bool := fmtKind c.fmt = 1 && (c.op = 0xB2 || compresses c)

/-- A visitor line is filled from its home: the unregistered words that are INVALID arrive CLEAN (10 R254). A word
registered to another owner is forwarded and stays INVALID (10 R257). A read of an MX block takes no word that was CLEAN
before: elements and scale come from the home as one unit (10 R265). -/
def fillVisitor (s : State) (core : Nat) (c : CopyCmd) (die : Nat) (l : Leaf) (a : Nat) : State :=
  let p := l.place
  let k := lineKey p a
  let base := alignDown a 128
  let there := (tfind k (getDie s die).visitor).isSome
  let v := visitorOf s die k
  let v := if mxGlobal c then { v with clean := 0 } else v
  let ws := (List.range 32).filter fun i => !(v.clean ||| v.owned).getLsbD i
    && (placeRemote p || ((regWord s p (base + 4 * i)).owner = 0 && !(regWord s p (base + 4 * i)).lost
        && !badAt s p (base + 4 * i) 4))
  let v' := ws.foldl (fun x i => { x with data := lineSetWord x.data i (currentWord s p (base + 4 * i)), clean := putBit x.clean i true, bad := putBit x.bad i false }) v
  let s := putVisitor s die k { v' with
    dup := v.dup || l.dup, use := if there then v.use else fillUse c p, dead := if there then v.dead else c.dead }
  let s := if placeTier p = 3 then bumpFree s else s
  if there then touchVisitor s core c die p a else s

/-- A stream's index of the line a command reads: the highest read moves on (12 R315). -/
def streamRead (s : State) (core va : Nat) : State :=
  modCopy s core fun e => { e with streams := e.streams.map fun x =>
    (x.1, let ls := streamLines x.2
          let hits := (List.range ls.length).filter fun i => ls.getD i 0 = alignDown va 128
          { x.2 with read := max x.2.read (match hits.getLast? with
            | some i => i + 1
            | none => 0) }) }

/-! ## The next piece of a transfer -/

/-- The element rows of an MX command in global memory: command, first byte, bytes (12 R308). -/
def mxRow (c : CopyCmd) (r : Nat) : Nat × Nat :=
  (rowGlobal c r 0, if c.op = 0xB4 then rowElems c * storeBits (fmtType c.fmt) / 8 else c.rowb)

/-- The rows of a command whose elements and scales are now being read or written. -/
def mxOpen (s : State) (core : Nat) (c : CopyCmd) : List Nat :=
  c.transfers.flatMap (fun t =>
    if !t.ended && c.started && (t.col ≠ 0 || t.got.isSome || s.flight.reads.any fun r => r.core = core && r.cmd = c.id)
    then [t.row] else [])
  ++ s.flight.global.filterMap fun r => match r.copy with
    | some g => if g.cmd = c.id && r.thread.core = core then some g.row else none
    | none => none

/-- Another command of the context holds the pairing lock of a row (10 R265, 12 R308): one of the two writes. -/
def mxLocked (s : State) (core ctx : Nat) (c : CopyCmd) (r : Nat) : Bool :=
  mxGlobal c && s.cores.any fun k => match k.2.block with
    | some b => b.ctx = ctx && b.copy.cmds.any fun o =>
        !(k.1 = core && o.id = c.id) && mxGlobal o && (writesGlobal o.op || writesGlobal c.op)
          && (mxOpen s k.1 o).any fun r' => overlap (mxRow o r').1 (mxRow o r').2 (mxRow c r).1 (mxRow c r).2
    | none => false

/-- The index of the row, when the command has a list: kept, or read now (12 R300). -/
def rowIndex (s : State) (core : Nat) (c : CopyCmd) (t : Transfer) : Nat :=
  match t.idx with
  | some i => i
  | none =>
    if hasList c.op then
      let p := poolPlace s core (listBase c + 4 * t.row)
      bytesNat (poolBytes s p.1 p.2 4)
    else 0

/-- The global address of the next byte of a read. -/
def readAddr (s : State) (core : Nat) (c : CopyCmd) (t : Transfer) : Nat :=
  if t.col < c.rowb then (rowGlobal c t.row (rowIndex s core c t) + t.col) % 2 ^ 64
  else scaleGlobal c t.row + (t.col - c.rowb)

/-- The pool address of the next byte of a read. -/
def readPool (c : CopyCmd) (t : Transfer) : Nat :=
  if t.col < c.rowb then poolBase c + t.row * c.pstride + t.col else scalePool c t.row + (t.col - c.rowb)

/-- Bytes left before the end of the part of the row that the next byte lies in. -/
def partLeft (c : CopyCmd) (t : Transfer) : Nat := if t.col < c.rowb then c.rowb - t.col else rowTotal c - t.col

/-- Bytes of the next piece: up to the end of its part, of the line on its global side, and of a pool (01 R23). -/
def pieceLen (s : State) (core : Nat) (c : CopyCmd) (t : Transfer) : Nat :=
  let line := if readsGlobal c.op then 128 - readAddr s core c t % 128
    else if writesGlobal c.op && !compresses c then 128 - (rowGlobal c t.row (rowIndex s core c t) + t.col) % 128
    else 128
  min (partLeft c t) (min line (if c.op = 0xB1 || c.op = 0xB2 then 128 else windowLeft (readPool c t)))

/-- Bytes of the row's part that begins here, which the engine sends as one row (17 R409). -/
def atPartStart (c : CopyCmd) (t : Transfer) : Bool := t.col = 0 || t.col = c.rowb

/-- The list and pool sides of a read wait for the front-end's earlier accesses (12 R312). -/
def readTurn (s : State) (core : Nat) (c : CopyCmd) (t : Transfer) : Bool :=
  (!hasList c.op || t.idx.isSome || poolTurn s core (poolPlace s core (listBase c + 4 * t.row)).1 c)
    && (readsGlobal c.op || poolTurn s core (poolPlace s core (readPool c t)).1 c)

/-- The translation that a command uses at an address: the one it keeps, or the one its core finds (15 R365). -/
def copyLeaf (s : State) (core ctx : Nat) (c : CopyCmd) (va : Nat) : Option WalkRes :=
  match cmdLeaf s core c.id va with
  | some l => some (.leaf l)
  | none => peekLeaf s core ctx va

/-- The words of a line serve a command on its own die: no acquire read, and for an MX block no CLEAN copy (10 R262,
R265). -/
def copyHere (s : State) (die : Nat) (c : CopyCmd) (p : Word) (a n : Nat) : Bool :=
  !c.acq && !(mxGlobal c && isVisitor die p a) && servedHere s die p a n

/-- An earlier command with ACQ has not completed (12 R312). -/
def behindAcquire (b : Block) (c : CopyCmd) : Bool := b.copy.cmds.any fun k => k.id < c.id && k.acq

/-- Why the engine cannot read n bytes at a pool address: no route leads there, or an uncorrectable error (01 R10, 18 R428). -/
def poolReadCode (s : State) (core a n : Nat) : Option (Byte × Nat) :=
  let p := poolPlace s core a
  if engineCut s core p.1 then some (cLINK_DOWN, a)
  else if badIn s (poolNum p.1 p.2) n then some (cDATA_UNCORRECTABLE, a) else none

/-- The fault of a read of the pool side: of the index list, or of the source rows. -/
def poolReadBad (s : State) (core : Nat) (c : CopyCmd) (t : Transfer) : Option (Byte × Nat) :=
  (if hasList c.op && t.idx.isNone then poolReadCode s core (listBase c + 4 * t.row) 4 else none).orElse fun _ =>
    if readsGlobal c.op then none else poolReadCode s core (readPool c t) (pieceLen s core c t)

/-- Keep the row's index, which the engine reads from the list's pool (12 R300, 17 R409). -/
def keepIndex (s : State) (core j : Nat) (c : CopyCmd) (t : Transfer) : State :=
  let s' := modTr s core c.id j fun x => { x with idx := some (rowIndex s core c t), resend := none }
  if hasList c.op && t.idx.isNone then copyPortWatch s' core c (poolPlace s core (listBase c + 4 * t.row)) 3 4 0 else s'

/-- A read that is served at once on its own die waits: for the way or the home that serves it, and for what its core has sent
to that home before (01 R16, 18 R426). -/
def hereHeld (s : State) (core : Nat) (p : Word) (a : Nat) : Bool :=
  if isVisitor (coreDie core) p a then visitorTested s (coreDie core) (lineKey p a)
  else homeTested s p a || s.flight.global.any (reqBefore s core (nextId s) p a) || s.flight.reads.any (readBefore s core (nextId s) p a)

/-- A transfer reads its next piece of global memory: at once where its die serves it, else by a request (10 R254,
R257). none: it is not its turn. -/
def readGlobal (s : State) (core : Nat) (b : Block) (c : CopyCmd) (j : Nat) (t : Transfer) : Option State :=
  let va := readAddr s core c t
  let n := pieceLen s core c t
  let die := coreDie core
  if behindAcquire b c || !readTurn s core c t || resentBefore s ⟨core, .fe⟩ c.id va
      || (atPartStart c t && t.col = 0 && mxLocked s core b.ctx c t.row) then none
  else match copyLeaf s core b.ctx c va with
    | none => some (startWalk s core b.ctx va true)
    | some (.code _) => none
    | some (.leaf l) =>
      let a := physAddr l va
      let here := copyHere s die c l.place a n
      if (poolReadBad s core c t).isSome || (sendFault s die l a n (here && isVisitor die l.place a)).isSome
          || (here && hereHeld s core l.place a) then none
      else
        let s := keepIndex (keepLeaf (takeWalk s core b.ctx va) core c.id va l) core j c t
        let s := if atPartStart c t then copyRowWatch s core c 3 va (partLeft c t) 0 else s
        let s := streamRead s core va
        if here then
          let bs := readLine s die l.place a n
          let s := if isVisitor die l.place a then touchVisitor s core c die l.place a else touchHome s core c l a
          some (modTr s core c.id j fun t => { t with got := some bs })
        else
          some (bumpId (modFlight s fun f => { f with reads := f.reads ++
            [{ id := nextId s, core := core, cmd := c.id, tr := j, die := die, va := va, n := n, leaf := l
               fill := isVisitor die l.place a && !c.acq, acq := c.acq
               via := !placeRemote l.place && viaOf s die (homeDie l.place a) }] }))

/-- A transfer reads its next piece from a pool at its port. -/
def readPoolPiece (s : State) (core : Nat) (b : Block) (c : CopyCmd) (j : Nat) (t : Transfer) : Option State :=
  let p := poolPlace s core (readPool c t)
  let n := pieceLen s core c t
  if behindAcquire b c || !readTurn s core c t || (poolReadBad s core c t).isSome
      || (compresses c && t.col = 0 && mxLocked s core b.ctx c t.row) then none
  else
    let bs := poolBytes s p.1 p.2 n
    let s := copyPortWatch (keepIndex s core j c t) core c p 3 n 0
    some (modTr s core c.id j fun t => { t with got := some bs })

/-! ## Landing -/

/-- The next byte of the transfer; the last byte of the last row ends it. -/
def advanceTr (c : CopyCmd) (j n : Nat) (t : Transfer) : Transfer :=
  let t := { t with col := t.col + n, dest := 0, got := none }
  if t.col < rowTotal c then t
  else { t with row := t.row + 1, col := 0, idx := none, rowBuf := [], ended := endRow c j ≤ t.row + 1 }

/-- The pool addresses that a piece of a row lands at (12 R299, R301). -/
def landings (c : CopyCmd) (j : Nat) (t : Transfer) : List Nat :=
  let at_ := (t.row - firstRow c j) * c.pstride + t.col
  if c.op = 0xB1 then
    let ms := if c.scat then [(maskMembers c).getD j 0] else maskMembers c
    ms.map fun m => m * 2 ^ 19 + bitsOf c.dst.toNat 18 0 + at_
  else [poolBase c + at_]

/-- The granules at these offsets in a row have had their last byte written: no later row covers them (12 R310). -/
def lastWrite (c : CopyCmd) (j : Nat) (t : Transfer) (x : Nat) : Bool := x < c.pstride || endRow c j ≤ t.row + 1

/-- Set the full bits of the granules of a piece that a condition on their offsets in the row picks, and satisfy who
waits (10 R250, R251). -/
def fillGranules (s : State) (t : Nat × Nat) (col n : Nat) (which : Nat → Bool) : State :=
  let gs := (List.range ((n + 15) / 16)).filter fun i => which (col + 16 * i)
  satisfyFe (modCore s t.1 fun k => { k with full := gs.foldl (fun f i => tputD false (t.2 / 16 + i) true f) k.full }) t.1

/-- Credit bytes to the barrier of a command (12 R310). -/
def creditCmd (s : State) (core : Nat) (c : CopyCmd) (n : Nat) : State :=
  match copyBar s core c.bar with
  | some (k, i) => sendCredit s core k i n none
  | none => s

/-- A credit reaches the barrier of another core, in the order of the cluster crossbar (01 R28, 12 R310); with no route left it is
lost (16 R385, log entry 91). -/
def landCredit (id : Nat) (s : State) : Host.Outcome State Fault Refusal :=
  match s.flight.credits.find? fun m => m.id = id with
  | some m => event s (!crossBefore s m.src m.core id && !seamHeld s (coreDie m.src) (coreDie m.core))
      (let s := modFlight s fun f => { f with credits := f.credits.filter fun e => e.id ≠ id }
      if !routeBy s keeps (coreDie m.src) (coreDie m.core) then s
      else match m.fault with
        | some k => agentFault s m.core m.index k
        | none => creditBytes s m.core m.index m.bytes)
  | none => .next s

/-- A piece lands at one destination: its bytes and full bits in one step, then the credit (10 R250, 12 R310). -/
def landPool (s : State) (core : Nat) (c : CopyCmd) (j : Nat) (t : Transfer) (bs : List Byte) : Option State :=
  let ds := landings c j t
  let p := poolPlace s core (ds.getD t.dest 0)
  if !poolTurn s core p.1 c || engineCut s core p.1 then none
  else
    let s := poolPut s p.1 p.2 bs
    let s := copyPortWatch s core c p 4 bs.length (BitVec.ofNat 64 (bytesNat (bs.take 8)))
    let s := fillGranules s p t.col bs.length (lastWrite c j t)
    let s := creditCmd s core c bs.length
    some (modTr s core c.id j fun t =>
      if t.dest + 1 < ds.length then { t with dest := t.dest + 1 } else advanceTr c j bs.length t)

/-! ## Slot rows (12 R305, R311) -/

/-- The sub-arrays of a mode, each with its A and B slots (13 R320). -/
def modeSubs (m a b : Nat) : List (Nat × Nat × Nat) :=
  if m < 4 then [(m, a, b)]
  else (List.range 4).map fun k =>
    if m = 4 then (k, a, b + k) else if m = 5 then (k, a + k / 2, b + k % 2) else (k, a + k, b)

/-- The slots a command reads, ascending. -/
def mmaSlots (m : MmaCmd) : List Nat :=
  (List.range 64).filter fun n => (modeSubs m.mode.toNat m.aslot m.bslot).any fun x => x.2.1 = n || x.2.2 = n

/-- A matrix command that has started reads the slot (13 R320, R322). -/
def slotRead (b : Block) (n : Nat) : Bool := b.mma.any fun m => m.started && (mmaSlots m).contains n

/-- Put bytes in a map of bytes. -/
def putMap (m : Table Byte) (off : Nat) (bs : List Byte) : Table Byte :=
  (List.range bs.length).foldl (fun t i => tputD 0 (off + i) (bs.getD i 0) t) m

/-- The 256 bytes of a slot row: the codes in their containers, and zero beyond K (02 R52, 12 R305). -/
def slotRow (t k : Nat) (codes : List Nat) : List Byte :=
  let bs := packCodes (typeBits t) (codes.take k)
  (List.range 256).map fun i => bs.getD i 0

/-- The 16 bytes of a row's side band (02 R53). -/
def sideRow (sk n : Nat) (raw : List Byte) : List Byte :=
  (List.range 16).map fun i =>
    match sk with
    | 1 => if i < n then raw.getD i 0 else 0
    | 2 => if i < 2 * n then raw.getD i 0 else 0
    | 3 =>
      if i < 8 then (if i / 2 < n then raw.getD (4 * (i / 2) + i % 2) 0 else 0)
      else if i < 12 && i - 8 < n then raw.getD (4 * (i - 8) + 2) 0 else 0
    | _ => 0

/-- Write a slot row and its side band, count reserved .i4 codes, and credit 256 bytes (12 R305, R310, R311). The codes count as
a whole row lands (02 R38, log entry 123). -/
def landSlot (s : State) (core : Nat) (c : CopyCmd) (r : Nat) (image : List Byte) : State :=
  let t := fmtType c.fmt
  let sk := fmtKind c.fmt
  let codes := storageCodes (storeBits t) (rowElems c) (image.take c.rowb)
  let side := sideRow sk (scaleEntries sk (fmtGsz c.fmt) (rowElems c)) (image.drop c.rowb)
  let s := modSlot s core (cmdSlot c) fun x => { x with
    data := putMap x.data (256 * r) (slotRow t (rowElems c) codes), side := putMap x.side (16 * r) side }
  let n := if t = 8 then (codes.filter (· = 8)).length else 0
  let s := modCopy s core fun e => { e with i4rsv := BitVec.ofNat 32 (min (2 ^ 32 - 1) (e.i4rsv.toNat + n)) }
  creditCmd s core c 256

/-! ## Compressing stores (12 R307, 02 R49 to R51) -/

/-- RNE that saturates, as the copy engine compresses (02 R47, R49). -/
def rneSat : Rnd := { mode := 0, sat := true }

/-- The least exponent of a floating type's largest binade (02 R50). -/
def mxEmax (t : Nat) : Option Int :=
  match t with
  | 1 => some 8
  | 2 => some 15
  | 3 => some 4
  | 4 => some 2
  | 5 => some 2
  | _ => none

/-- A value is finite. -/
def finiteVal (v : Val) : Bool :=
  match v with
  | .num _ _ _ => true
  | _ => false

/-- floor(log2) of the largest magnitude of finite values; none when all are zero. -/
def maxLog2 (vs : List Val) : Option Int :=
  vs.foldl (fun m v => match v with
    | .num _ man e => if man = 0 then m else
        let g : Int := Nat.log2 man + e
        some (match m with
          | some x => max x g
          | none => g)
    | _ => m) none

/-- The scale code of an MX block (02 R50). An integer type has no emax in 02 R50: the code of a block that is not all
zero is a free value. -/
def mxCode (t : Nat) (free : Byte) (vs : List Val) : Nat :=
  if !vs.all finiteVal then 0xFF
  else match maxLog2 vs, mxEmax t with
    | none, _ => 0
    | some _, none => free.toNat
    | some g, some em => (max (-127) (min 127 (g - em)) + 127).toNat

/-- A number as an exact value. -/
def oneVal : Val := .num false 1 0

/-- One element compressed under a scale, or converted with S = 1 where there is none (02 R47, R50, 12 R307). -/
def compressElem (t zp : Nat) (x : Val) (scale : Option Val) : Nat :=
  match typeFmt t, scale with
  | some f, none => (convertVal f rne x).1
  | some f, some y => if t = 11 || t = 12 then (convertVal f rne x).1 else (compressFlt f rneSat x y).1
  | none, y => (compressInt 0 t zp x (y.getD oneVal)).1

/-- The scale of a group: computed, or read with its zero point (12 R307). -/
def groupScale (c : CopyCmd) (free : Byte) (vs : List Val) (entry : List Byte) : Option Val × Nat × List Byte :=
  let t := fmtType c.fmt
  match fmtKind c.fmt with
  | 0 => (some oneVal, 0, [])
  | 1 =>
    let k := mxCode t free vs
    -- a block with a NaN or an infinity is converted with S = 1
    (if vs.all finiteVal then some (e8m0Val k) else none, 0, [BitVec.ofNat 8 k])
  | 2 => (some (valOf f16 (bytesNat (entry.take 2))), 0, entry)
  | _ => (some (valOf f16 (bytesNat (entry.take 2))), (entry.getD 2 0).toNat, entry)

/-- A row in storage layout: element bytes and scale bytes (12 R304, R307). -/
def compressRow (c : CopyCmd) (free : Nat → Byte) (image : List Byte) : List Byte × List Byte :=
  let t := fmtType c.fmt
  let sk := fmtKind c.fmt
  let k := rowElems c
  let g := if sk = 0 then k else scaleGroup sk (fmtGsz c.fmt)
  let xs := (List.range k).map fun i => valOf f32 (bytesNat ((image.drop (4 * i)).take 4))
  let e := entryBytes sk
  let groups := (List.range ((k + g - 1) / max 1 g)).map fun n =>
    let vs := (xs.drop (n * g)).take g
    let q := groupScale c (free n) vs ((image.drop (c.rowb + n * e)).take e)
    (vs.map fun x => compressElem t q.2.1 x q.1, q.2.2)
  (packCodes (storeBits t) (groups.flatMap Prod.fst), groups.flatMap Prod.snd)

/-! ## Global writes (12 R310, R312) -/

/-- The bytes of one line of a write: its address and the bytes. -/
def splitLines : Nat → Nat → List Byte → List (Nat × List Byte)
  | 0, _, _ => []
  | f + 1, a, bs => if bs.isEmpty then [] else
    let n := 128 - a % 128
    (a, bs.take n) :: splitLines f ((a + n) % 2 ^ 64) (bs.drop n)

/-- Send a write of a command to one line: a plain store, or a release-qualified one under REL at package or system
scope (12 R312). -/
def sendCopyWrite (s : State) (core : Nat) (b : Block) (c : CopyCmd) (j row va : Nat) (bs : List Byte) (n : Nat) : State :=
  let op : GlobalOp := if c.rel && 2 ≤ c.scope.toNat then .relStore c.scope else .store
  issueReq (bumpId s)
    { id := nextId s, inst := 0, thread := ⟨core, .fe⟩, split := 0, die := coreDie core, ctx := b.ctx, pc := c.pc
      va := va, op := op, bytes := (List.range bs.length).map fun i => (va % 128 + i, 0, bs.getD i 0)
      epoch := c.epoch, copy := some { cmd := c.id, tr := j, row := row, bytes := n, bar := copyBar s core c.bar } }

/-- Send the lines of a row or of its scales; scale bytes are not counted (12 R310). -/
def sendLines (s : State) (core : Nat) (b : Block) (c : CopyCmd) (j row va : Nat) (bs : List Byte) (count : Bool) : State :=
  foldSt (fun s (x : Nat × List Byte) => sendCopyWrite s core b c j row x.1 x.2 (if count then x.2.length else 0)) s
    (splitLines (bs.length / 128 + 2) va bs)

/-- A piece of a raw store leaves for its line (12 R299). -/
def landGlobal (s : State) (core : Nat) (b : Block) (c : CopyCmd) (j : Nat) (t : Transfer) (bs : List Byte) : State :=
  let row := rowGlobal c t.row (rowIndex s core c t)
  let s := if t.col = 0 then copyRowWatch s core c 4 row c.rowb (BitVec.ofNat 64 (bytesNat (bs.take 8))) else s
  let s := sendCopyWrite s core b c j t.row ((row + t.col) % 2 ^ 64) bs bs.length
  modTr s core c.id j (advanceTr c j bs.length)

/-- A row of a compressing store leaves with its scales as one unit (12 R307, R308). -/
def landCompressed (s : State) (core : Nat) (b : Block) (c : CopyCmd) (j : Nat) (t : Transfer) (image : List Byte) : State :=
  let base := s.free
  let out := compressRow c (fun n => (Config.freeValue (base + n)).truncate 8) image
  let s := if fmtKind c.fmt = 1 && (mxEmax (fmtType c.fmt)).isNone then { s with free := base + rowElems c / 32 } else s
  let row := rowGlobal c t.row 0
  let s := copyRowWatch s core c 4 row out.1.length (BitVec.ofNat 64 (bytesNat (out.1.take 8)))
  let s := sendLines s core b c j t.row row out.1 true
  let s := if out.2.isEmpty then s
    else copyRowWatch s core c 4 (scaleGlobal c t.row) out.2.length (BitVec.ofNat 64 (bytesNat (out.2.take 8)))
  sendLines s core b c j t.row (scaleGlobal c t.row) out.2 false

/-- Bytes of a row gathered: a whole row is written, or the next piece is read. -/
def gatherRow (s : State) (core : Nat) (b : Block) (c : CopyCmd) (j : Nat) (t : Transfer) (bs : List Byte) : Option State :=
  let image := t.rowBuf ++ bs
  if t.col + bs.length < rowTotal c then
    some (modTr s core c.id j fun t => { t with col := t.col + bs.length, got := none, rowBuf := image })
  else if compresses c then
    some (modTr (landCompressed s core b c j t image) core c.id j (advanceTr c j bs.length))
  else if slotRead b (cmdSlot c) then none
  else some (modTr (landSlot s core c t.row image) core c.id j (advanceTr c j bs.length))

/-- What has been read lands (12 R310), unless the grist store it goes to is under test (18 R426). -/
def landPiece (s : State) (core : Nat) (b : Block) (c : CopyCmd) (j : Nat) (t : Transfer) (bs : List Byte) : Option State :=
  if fillsSlot c.op && coreTested s 2 core then none
  else if fillsSlot c.op || compresses c then gatherRow s core b c j t bs
  else if writesGlobal c.op then some (landGlobal s core b c j t bs)
  else landPool s core c j t bs

/-- The next step of a transfer: its command starts, its next piece is read, or what was read lands. -/
def transferStep (s : State) (core : Nat) (b : Block) (c : CopyCmd) (j : Nat) (t : Transfer) : Option State :=
  if !c.started then (if mayStart s core b c then some (startCmd s core b c) else none)
  else if t.ended then none
  else match t.got with
    | some bs => landPiece s core b c j t bs
    | none =>
      if s.flight.reads.any fun r => r.core = core && r.cmd = c.id && r.tr = j then none
      else if readsGlobal c.op then readGlobal s core b c j t else readPoolPiece s core b c j t

/-- COPY_DATA_LAND (12 R310). -/
def execCopyDataLand (core cmd tr : Nat) (s : State) : Host.Outcome State Fault Refusal :=
  match getBlk s core, getCmd s core cmd with
  | some b, some c =>
    match c.transfers[tr]? with
    | some t => (match transferStep s core b c tr t with
      | some t => .next t
      | none => .next s)
    | none => .next s
  | _, _ => .next s

/-! ## Reads at a home and fills (10 R254, R257, R262) -/

/-- A read request under way. -/
def getRead (s : State) (id : Nat) : Option ReadReq := s.flight.reads.find? fun r => r.id = id

/-- Forget a read request. -/
def dropRead (s : State) (id : Nat) : State := modFlight s fun f => { f with reads := f.reads.filter fun r => r.id ≠ id }

/-- The owner of a word waits with its answer to a forwarded read: a seam on the way is held, or the way of its copy is under
test (16 R383, 18 R426). -/
def ownerWaits (s : State) (p : Word) (a : Nat) : Bool :=
  let o := (regWord s p a).owner
  !placeRemote p && (ownerHeld s o p a || (0 < o.toNat && o.toNat ≤ 4 && visitorTested s (o.toNat - 1) (lineKey p a)))

/-- What the core of a read has sent before it to the same slice has not reached it, or an access of its page is being sent
again (01 R16, 10 R267). -/
def readBehind (s : State) (r : ReadReq) (a : Nat) : Bool :=
  s.flight.global.any (reqBefore s r.core r.id r.leaf.place a) || s.flight.reads.any (readBefore s r.core r.id r.leaf.place a)
    || resentBefore s ⟨r.core, .fe⟩ r.cmd r.va

/-- A read request still meets no fault, its generation is the page's, it has arrived in order, and nothing that serves it is
under test. -/
def readGoes (s : State) (r : ReadReq) : Bool :=
  let a := physAddr r.leaf r.va
  !staleRead s r && !homeTested s r.leaf.place a && !routeHeld s r.die r.leaf.place a
    && !(r.fill && visitorTested s r.die (lineKey r.leaf.place a))
    && !((touchedWords a r.n).any fun i => ownerWaits s r.leaf.place (alignDown a 128 + 4 * i))
    && (r.ordered || !readBehind s r a)
    && (placeRemote r.leaf.place || !otherRoute s r.die (homeDie r.leaf.place a) r.via r.id)
    && (readFault s r.die r.leaf a r.n false).isNone

/-- The bytes of a read reach its transfer. -/
def deliverRead (s : State) (r : ReadReq) (bs : List Byte) : State :=
  modTr (dropRead s r.id) r.core r.cmd r.tr fun t => if t.ended then t else { t with got := some bs }

/-- VISITOR_FILL (10 R254). -/
def execVisitorFill (id : Nat) (s : State) : Host.Outcome State Fault Refusal :=
  match getRead s id with
  | none => .next s
  | some r =>
    let a := physAddr r.leaf r.va
    event s (r.fill && readGoes s r) (match getCmd s r.core r.cmd with
      | some c =>
        let bs := if mxGlobal c then physBytes s r.leaf.place a r.n else readLine s r.die r.leaf.place a r.n
        deliverRead (fillVisitor s r.core c r.die r.leaf a) r bs
      | none => dropRead s id)

/-- The release marks on the words of a read whose owner is another die (10 R262). -/
def readMarks (s : State) (r : ReadReq) : List (Nat × (BitVec 3 × BitVec 16)) :=
  let a := physAddr r.leaf r.va
  (touchedWords a r.n).flatMap fun i =>
    ((regWord s r.leaf.place (alignDown a 128 + 4 * i)).marks.filter fun m => m.1 ≠ ownerOfDie r.die).map fun m => (i, m)

/-- An acquire read orders the drains of the marks it finds; the marks are then cleared (10 R262). -/
def orderReadDrains (s : State) (r : ReadReq) : State :=
  let a := physAddr r.leaf r.va
  let ms := readMarks s r
  let s := foldSt (fun s (m : Nat × (BitVec 3 × BitVec 16)) => orderDrain s (homeDie r.leaf.place a) r.id m.2) s ms
  let s := foldSt (fun s i => modReg s r.leaf.place (alignDown a 128 + 4 * i) fun x =>
    { x with marks := x.marks.filter fun m => m.1 = ownerOfDie r.die }) s (touchedWords a r.n)
  modFlight s fun f => { f with reads := f.reads.map fun x => if x.id = r.id then { x with ordered := true, drains := ms.length } else x }

/-- The acquire of a command with ACQ: at its SCOPE (12 R312). At cluster and die scope 10 R262 invalidates nothing and 10
R263 speaks of package scope: whether the die's CLEAN words become INVALID is a free value (log entry 30). -/
def acquireRead (s : State) (core : Nat) (c : CopyCmd) : State :=
  if 2 ≤ c.scope.toNat then acquireAt s core c.scope
  else bumpFree (if (freshValue s).getLsbD 0 then acquireAt s core 2 else s)

/-- The scope checker at a read of a command with ACQ: at most one record a command (17 R419). -/
def checkCopy (s : State) (core : Nat) (c : CopyCmd) (p : Word) (a va : Nat) : State :=
  match lineMismatch s core p a with
  | some t => if c.checked then s
      else scopeRecord (modCmd s core c.id fun c => { c with checked := true }) ⟨core, .fe⟩ c.pc va 3 t
  | none => s

/-- FORWARDED_READ (10 R257): a read at the home returns the owner's value; an acquire read first has the marks drained, and
then acquires (10 R262, 12 R312). -/
def execForwardedRead (id : Nat) (s : State) : Host.Outcome State Fault Refusal :=
  match getRead s id with
  | none => .next s
  | some r =>
    let a := physAddr r.leaf r.va
    let p := r.leaf.place
    event s (!r.fill && r.drains = 0 && readGoes s r)
      (if r.acq && !r.ordered && !placeRemote p then orderReadDrains s r
      else match getCmd s r.core r.cmd with
        | some c =>
          let bs := physBytes s p a r.n
          let s := if r.acq then checkCopy (acquireRead s r.core c) r.core c p a r.va else s
          let s := if placeRemote p then (if placeTier p = 3 then bumpFree s else s) else touchHome s r.core c r.leaf a
          deliverRead s r bs
        | none => dropRead s id)

/-! ## Faults (12 R311) -/

/-- The granules that wait for a row that will not come take their full bits: their last bytes have been written. -/
def settleGranules (s : State) (core : Nat) (c : CopyCmd) (j : Nat) (t : Transfer) : State :=
  if !(c.op = 0xB0 || c.op = 0xB1 || c.op = 0xB5) || c.rowb ≤ c.pstride then s
  else
    let fillRow (s : State) (r col n : Nat) (which : Nat → Bool) : State :=
      foldSt (fun s a => fillGranules s (poolPlace s core a) col n which) s
        (landings c j { t with row := r, col := col })
    let s := fillRow s t.row 0 t.col fun x => c.pstride ≤ x
    if firstRow c j < t.row then
      fillRow s (t.row - 1) 0 c.rowb fun x => c.pstride ≤ x && t.col ≤ x - c.pstride
    else s

/-- No route leads to the pool that a piece is to land in (01 R10): the address there (log entry 84). -/
def landFault (s : State) (core : Nat) (c : CopyCmd) (j : Nat) (t : Transfer) : Option (Byte × Nat) :=
  let a := (landings c j t).getD t.dest 0
  let p := poolPlace s core a
  if fillsSlot c.op || writesGlobal c.op || !poolTurn s core p.1 c || !engineCut s core p.1 then none else some (cLINK_DOWN, a)

/-- The fault that a transfer meets now: code and address. -/
def transferFault (s : State) (core : Nat) (b : Block) (c : CopyCmd) (j : Nat) (t : Transfer) : Option (Byte × Nat) :=
  if t.ended || !c.started then none
  else if t.got.isSome then landFault s core c j t
  else match s.flight.reads.find? fun r => r.core = core && r.cmd = c.id && r.tr = j with
    | some r => (readFault s r.die r.leaf (physAddr r.leaf r.va) r.n false).map fun k => (k, r.va)
    | none => if behindAcquire b c || !readTurn s core c t then none else match poolReadBad s core c t with
      | some f => some f
      | none =>
        if !readsGlobal c.op then none
        else
          let va := readAddr s core c t
          match copyLeaf s core b.ctx c va with
          | none => none
          | some (.code k) => some (k, va)
          | some (.leaf l) =>
            let a := physAddr l va
            let n := pieceLen s core c t
            let here := copyHere s (coreDie core) c l.place a n && isVisitor (coreDie core) l.place a
            (sendFault s (coreDie core) l a n here).map fun k => (k, va)

/-- A write of a transfer that was refused. -/
def refusedWrite (s : State) (core cmd j : Nat) : Option (GlobalReq × CopyTag × Byte) :=
  s.flight.global.findSome? fun r => match r.copy, r.stage with
    | some g, .faulted k => if r.thread.core = core && g.cmd = cmd && g.tr = j then some (r, g, k) else none
    | _, _ => none

/-- COPY_TRANSFER_FAULT (12 R311): the transfer ends; the bytes of a refused write that did land are credited. -/
def execCopyTransferFault (core cmd tr : Nat) (s : State) : Host.Outcome State Fault Refusal :=
  match getBlk s core, getCmd s core cmd with
  | some b, some c =>
    match c.transfers[tr]?, refusedWrite s core cmd tr with
    | some _, some (r, g, k) =>
      .next (noteFault (creditCopy (dropReq s r.id) core g (g.bytes - r.bytes.length)) core cmd tr k
        (r.va + (r.bytes.getD 0 (r.va % 128, 0, 0)).1 - r.va % 128) g.row)
    | some t, none => (match transferFault s core b c tr t with
      | some (k, va) =>
        let s := modFlight s fun f => { f with reads := f.reads.filter fun r => !(r.core = core && r.cmd = cmd && r.tr = tr) }
        .next (noteFault (settleGranules (takeWalk s core b.ctx va) core c tr t) core cmd tr k va t.row)
      | none => .next s)
    | none, _ => .next s
  | _, _ => .next s

/-! ## Completion (12 R305, R310, R311) -/

/-- The fill of a slot ends: FULL with its header and zero rows, or FAULTED; a RELEASED slot that nothing refers to is
FREE (12 R305, R306, 13 R322). -/
def endFill (s : State) (core : Nat) (c : CopyCmd) (ok : Bool) : State :=
  let t := fmtType c.fmt
  modSlot s core (cmdSlot c) fun x =>
    let x := { x with filling := false }
    let x := if ok then { x with
        header := headerWord t (fmtKind c.fmt) (fmtGsz c.fmt) (rowElems c)
        data := x.data.filter fun e => e.1 < 256 * c.rows, side := x.side.filter fun e => e.1 < 16 * c.rows } else x
    if x.state = 5 then (if x.refs = 0 then { x with state := 0, header := 0 } else x)
    else { x with state := if ok then 3 else 4 }

/-- Put a fault among those of other transfers: cycle, member, code, address, row, in ascending order of the first two. -/
def insertFault (x : Nat × Nat × Byte × DWord × Nat) :
    List (Nat × Nat × Byte × DWord × Nat) → List (Nat × Nat × Byte × DWord × Nat)
  | [] => [x]
  | y :: l => if x.1 < y.1 || (x.1 = y.1 && x.2.1 < y.2.1) then x :: y :: l else y :: insertFault x l

/-- The transfers of a command that faulted, in the order of their faults: of those of one cycle, the lowest destination
member first (12 R311). -/
def faultedTransfers (c : CopyCmd) : List (Nat × Byte × DWord × Nat) :=
  (c.transfers.foldl (fun l t => match t.fault with
    | some (n, k, a, r) => insertFault (n, t.member, k, a, r) l
    | none => l) []).map Prod.snd

/-- The record of kind A of a transfer (12 R311). -/
def copyRecord (s : State) (core : Nat) (b : Block) (c : CopyCmd) (f : Nat × Byte × DWord × Nat) : State :=
  agentRecord s b.ctx { blockRecord s core b .fe f.2.1 2 with
    pc := c.pc, addr := f.2.2.1, barrier := c.bar
    detail := BitVec.ofNat 32 (c.op + f.1 % 16 * 2 ^ 8 + f.2.2.2 % 2 ^ 16 * 2 ^ 12) }

/-- The slot was taken by this command, and not ended with SLOT. -/
def tookSlot (c : CopyCmd) : Bool := fillsSlot c.op && !c.transfers.any fun t => match t.fault with
  | some (_, k, _, _) => k = cSLOT
  | none => false

/-- Every transfer has ended and every write has been acknowledged or refused and reported. -/
def cmdEnded (s : State) (core : Nat) (b : Block) (c : CopyCmd) : Bool :=
  (c.started || c.rows = 0) && c.transfers.all Transfer.ended
    && (!s.flight.global.any fun r => match r.copy with
        | some g => r.thread.core = core && g.cmd = c.id
        | none => false)
    && !(tookSlot c && slotRead b (cmdSlot c))

/-- COPY_COMMAND_COMPLETE (12 R310, R311). -/
def execCopyCommandComplete (core cmd : Nat) (s : State) : Host.Outcome State Fault Refusal :=
  match getBlk s core, getCmd s core cmd with
  | some b, some c =>
    let fs := faultedTransfers c
    event s (cmdEnded s core b c)
      (let s := if tookSlot c then endFill s core c fs.isEmpty else s
      let s := foldSt (fun s f => copyRecord s core b c f) s fs
      let s := modCopy s core fun e => { e with cmds := e.cmds.filter fun k => k.id ≠ cmd }
      match fs, copyBar s core c.bar with
      | f :: _, some (k, i) => sendCredit s core k i 0 (some f.2.1)
      | _, _ => s)
  | _, _ => .next s

/-! ## Multicast ids (12 R309) -/

/-- MCID_REPLICA_UPDATE (12 R309): a claim or a release reaches a member's replica. -/
def execMcidReplicaUpdate (id : Nat) (s : State) : Host.Outcome State Fault Refusal :=
  match s.flight.mcids.find? fun m => m.id = id with
  | some m => event s (!(s.flight.mcids.any fun e => e.id < id && e.core = m.core && e.mcid = m.mcid)
      && !crossBefore s m.src m.core id && !seamHeld s (coreDie m.src) (coreDie m.core))
      (modCopy (modFlight s fun f => { f with mcids := f.mcids.filter fun e => e.id ≠ id }) m.core fun e =>
        { e with mcids := if m.claim then tput m.mcid.toNat true e.mcids else tdel m.mcid.toNat e.mcids })
  | none => .next s

/-- MCID_RELEASE (12 R309): no command with the id is pending in the cluster; the release goes to every replica. -/
def execMcidRelease (cl : Nat) (mcid : BitVec 4) (s : State) : Host.Outcome State Fault Refusal :=
  match getCl s cl with
  | some x =>
    let pending := (clusterCores x).any fun c => match getBlk s c with
      | some b => b.cluster = cl && b.copy.cmds.any fun k => k.op = 0xB1 && k.mcid = mcid
      | none => false
    event s (x.draining.contains mcid && !pending)
      (foldSt (fun s c => bumpId (modFlight s fun f => { f with mcids := f.mcids ++
          [{ id := nextId s, src := memberCore x 0, core := c, mcid := mcid, claim := false }] }))
        (modCl s cl fun x => { x with draining := x.draining.filter (· ≠ mcid) }) (clusterCores x))
  | none => .next s

/-! ## Streams (12 R315) -/

/-- End a stream. -/
def endStream (s : State) (core n : Nat) : State := modCopy s core fun e => { e with streams := tdel n e.streams }

/-- The next declared line is fetched into its home slice, with the stream's count and DEAD mark. -/
def fetchLine (s : State) (core n : Nat) (st : Stream) (l : Leaf) (va : Nat) : State :=
  let a := physAddr l va
  let use := if st.use = 0 then placeUseCount l.place else st.use.toNat
  let s := if placeRemote l.place || homeHeld s l.place a then s
    else putHome s l.place a { homeLine s l.place a with use := use, dead := st.dead, dup := l.dup }
  if (streamLines st).length ≤ st.next + 1 then endStream s core n
  else modCopy s core fun e => { e with streams := tmod n (fun x => { x with next := x.next + 1 }) e.streams }

/-- Change a stream. -/
def modStream (s : State) (core n : Nat) (f : Stream → Stream) : State :=
  modCopy s core fun e => { e with streams := tmod n f e.streams }

/-- The translation that a stream uses at an address: the one it keeps, or the one its core finds (15 R365). -/
def streamLeaf (s : State) (core ctx : Nat) (st : Stream) (va : Nat) : Option WalkRes :=
  match st.kept.filter fun k => pageBase k.2 va = k.1 with
  | some k => some (.leaf k.2)
  | none => peekLeaf s core ctx va

/-- The generation of a leaf is older than the page's (10 R267). -/
def staleLeaf (s : State) (ctx va : Nat) (l : Leaf) : Bool :=
  match walkPage s ctx va with
  | .leaf n => placeGen l.place ≠ placeGen n.place
  | .code _ => false

/-- STREAM_PREFETCH (12 R315): at most DEPTH lines ahead; the first line that cannot be read ends the stream. A request of an
old generation comes back and is translated again (10 R267). -/
def execStreamPrefetch (core : Nat) (stream : BitVec 3) (s : State) : Host.Outcome State Fault Refusal :=
  match getBlk s core with
  | none => .next s
  | some b =>
    match tfind stream.toNat b.copy.streams with
    | none => .next s
    | some st =>
      let va := (streamLines st).getD st.next 0
      let waits (l : Leaf) : Bool :=
        let a := physAddr l va
        homeTested s l.place a || routeHeld s (coreDie core) l.place a
          || s.flight.global.any (reqBefore s core (nextId s) l.place a) || s.flight.reads.any (readBefore s core (nextId s) l.place a)
      let r := streamLeaf s core b.ctx st va
      event s (st.next < st.read + st.depth && !(match r with
        | some (.leaf l) => waits l
        | _ => false)) (match r with
        | none => startWalk s core b.ctx va true
        | some (.code _) => endStream (takeWalk s core b.ctx va) core stream.toNat
        | some (.leaf l) =>
          let s := modStream (takeWalk s core b.ctx va) core stream.toNat fun x => { x with kept := some (pageBase l va, l) }
          if staleLeaf s b.ctx va l then
            dropEntry (modStream s core stream.toNat fun x => { x with kept := none }) core b.ctx va
          else if (sendFault s (coreDie core) l (physAddr l va) 128 false).isSome then endStream s core stream.toNat
          else fetchLine s core stream.toNat st l va)

end Sys2Proof.Machine
end

