-- ==== Sys2Proof/Machine/Jobs.lean ====
section
/-! DEFINITION. Job records and kernel headers (05 R114, R115, 06 R147 to R153), the sluice (05 R119 to R121),
termination weights (05 R134, R135), and wake writes (05 R136 to R139). -/
namespace Sys2Proof.Machine

/-! ## Records and headers -/

/-- The field of n bytes at an offset. -/
def fieldAt (b : List Byte) (o n : Nat) : Nat := bytesNat ((b.drop o).take n)

/-- A base and a length. -/
def regionAt (b : List Byte) (o : Nat) : DWord × DWord :=
  (BitVec.ofNat 64 (fieldAt b o 8), BitVec.ofNat 64 (fieldAt b (o + 8) 8))

/-- A job record from its 256 bytes (05 R114). -/
def parseRecord (b : List Byte) : JobRec :=
  { kernel := BitVec.ofNat 64 (fieldAt b 0 8), gx := fieldAt b 8 4, gy := fieldAt b 0x0C 2, gz := fieldAt b 0x0E 2
    shape := b.getD 0x10 0, affin := b.getD 0x11 0, corner := b.getD 0x12 0, flags := b.getD 0x13 0
    twshare := fieldAt b 0x14 4, deadline := BitVec.ofNat 64 (fieldAt b 0x18 8)
    budget := BitVec.ofNat 64 (fieldAt b 0x20 8), energy := fieldAt b 0x28 4
    params := (List.range 8).map fun i => BitVec.ofNat 64 (fieldAt b (0x30 + 8 * i) 8)
    rd := (List.range 4).map fun i => regionAt b (0x70 + 16 * i)
    wr := (List.range 4).map fun i => regionAt b (0xB0 + 16 * i)
    doneAddr := BitVec.ofNat 64 (fieldAt b 0xF0 8), wakeAddr := BitVec.ofNat 64 (fieldAt b 0xF8 8) }

/-- PERSIST, IDEM, GATEW, GATEM. -/
def recPersist (r : JobRec) : Bool := r.flags.getLsbD 0
def recIdem (r : JobRec) : Bool := r.flags.getLsbD 1
def recGateW (r : JobRec) : Bool := r.flags.getLsbD 2
def recGateM (r : JobRec) : Bool := r.flags.getLsbD 3
/-- BOND of the record, CORNERV, and the affinity mask, where 0 means all dies (05 R114). -/
def recBond (r : JobRec) : Bool := r.affin.getLsbD 4
def recCornerV (r : JobRec) : Bool := r.affin.getLsbD 5
def recDies (r : JobRec) : List Nat := if bitsOf r.affin.toNat 3 0 = 0 then [0, 1, 2, 3] else setBits 4 r.affin
/-- The deadline in the dispatcher's order (05 R114). -/
def recDeadline (r : JobRec) : Nat := if r.deadline = 0 then 2 ^ 64 - 1 else r.deadline.toNat

/-- A kernel header from its 64 bytes (06 R148), without its table. -/
def parseHeader (b : List Byte) : Header :=
  let n (o : Nat) : Nat := (b.getD o 0).toNat
  { groups := n 5, nu := n 6, na := n 7, ng := n 8, slots := n 9, tiles := n 0xA, barriers := n 0xB
    pool := fieldAt b 0xC 4, shapeW := n 0x10 % 16, shapeH := n 0x10 / 16, bond := (b.getD 0x11 0).getLsbD 0
    feEntry := BitVec.ofNat 32 (fieldAt b 0x14 4), grpEntry := BitVec.ofNat 32 (fieldAt b 0x18 4)
    codeStart := 0x40 + 8 * fieldAt b 0x12 2, codeSize := fieldAt b 0x1C 4
    dataOff := fieldAt b 0x20 4, dataSize := fieldAt b 0x24 4 }

/-- The idempotent table of n entries (06 R148). -/
def parseIdem (b : List Byte) (n : Nat) : List (Word × Word) :=
  (List.range n).map fun i => (BitVec.ofNat 32 (fieldAt b (8 * i) 4), BitVec.ofNat 32 (fieldAt b (8 * i + 4) 4))

/-- An entry point is misplaced (06 R149). -/
def entryBad (h : Header) (e : Word) : Bool :=
  !aligned e.toNat 4 || e.toNat < h.codeStart || h.codeStart + h.codeSize ≤ e.toNat

/-- The idempotent table breaks a rule (06 R147, R149): prev is the END of the entry before, if any. -/
def idemBad (h : Header) : Option Nat → List (Word × Word) → Bool
  | _, [] => false
  | prev, (a, b) :: r =>
    b.toNat ≤ a.toNat || !aligned a.toNat 4 || !aligned b.toNat 4 || a.toNat < h.codeStart || h.grpEntry.toNat < b.toNat
      || (prev.any fun p => a.toNat ≤ p) || idemBad h (some b.toNat) r

/-- The checks of 06 R149 on a header, but for its SHAPE row, in order. -/
def headerCode (raw : List Byte) (h : Header) : Option Byte :=
  firstOf [(fieldAt raw 0 4 ≠ 0x4B56494D || fieldAt raw 4 1 ≠ 1, cPLACEMENT),
    (h.groups = 0 || 64 < h.groups || 64 < h.slots || 16 < h.tiles || 64 < h.barriers, cPLACEMENT),
    (!aligned h.pool 16 || 524288 < h.pool, cPLACEMENT),
    (entryBad h h.feEntry || entryBad h h.grpEntry, cPLACEMENT),
    (16 < fieldAt raw 0x12 2 || idemBad h none h.idem, cPLACEMENT),
    (128 < h.nu + h.na + h.ng, cLAUNCH_REGS)]

/-- The shape in force (06 R153). -/
def shapeOf (r : JobRec) (h : Header) : Nat × Nat :=
  if r.shape = 0 then (h.shapeW, h.shapeH) else (r.shape.toNat % 16, r.shape.toNat / 16)

/-- The dies that a rectangle covers. -/
def rectDies (x y w h : Nat) : List Nat :=
  (List.range 4).filter fun d => (d % 2 = x / 6 || d % 2 = (x + w - 1) / 6) && (d / 2 = y / 8 || d / 2 = (y + h - 1) / 8)

/-- The block fits partitions of these capacities (01 R13). -/
def regsFit (h : Header) (cap : Nat → Nat) : Bool :=
  (List.range 4).all fun k => (h.groups + 3 - k) / 4 * groupCost h ≤ cap k

/-- PARTk of SY.RFCAP (01 R14, R15). -/
def partWords (s : State) (core k : Nat) : Nat := 16384 - 4096 * ((getCore s core).banksOut.filter fun b => b / 4 = k).length

/-- The checks of 05 R115 that follow those on the header, in order. -/
def gridCode (r : JobRec) (h : Header) : Option Byte :=
  let wh := shapeOf r h
  let w := wh.1
  let t := wh.2
  let bond := recBond r || h.bond
  let x := r.corner.toNat % 16
  let y := r.corner.toNat / 16
  let n := (rectDies x y w t).length
  firstOf [(r.gx = 0 || r.gy = 0 || r.gz = 0 || 2 ^ 32 ≤ r.gx * r.gy * r.gz, cPLACEMENT),
    (w = 0 || t = 0 || 12 < w * t || 12 < w || 16 < t || ((6 < w || 8 < t) && !bond), cPLACEMENT),
    (recCornerV r && (12 < x + w || 16 < y + t || 2 < n || (n = 2 && !bond)), cPLACEMENT),
    (!regsFit h fun _ => 16384, cLAUNCH_REGS)]

/-- A failed read, as acceptance reports it (05 R115). -/
def readCode (c : Byte) : Byte := if c = cPERMISSION then cPERMISSION else cTRANSLATION

/-- Read the kernel header and its table: the raw bytes and the header, or a code (05 R115, 06 R149). The spec gives KERNEL no
alignment check: an address that is no multiple of 256 is used as it is (log entry 143). -/
def readHeader (s : State) (ctx : Nat) (kernel : DWord) : State × (List Byte × Header ⊕ Byte) :=
  match devRead s ctx kernel.toNat 64 with
  | (s, .inr c) => (s, .inr (readCode c))
  | (s, .inl raw) =>
    let h := parseHeader raw
    let n := fieldAt raw 0x12 2
    if 16 < n || headerCode raw h = some cPLACEMENT then (s, .inl (raw, h))
    else match devRead s ctx (kernel.toNat + 64) (8 * n) with
      | (s, .inr c) => (s, .inr (readCode c))
      | (s, .inl t) => (s, .inl (raw, { h with idem := parseIdem t n }))

/-! ## Entries of the sluice (05 R87, R121) -/

/-- Entries held in the package. -/
def entriesHeld (s : State) : Nat := (s.sched.jobs.filter fun e => e.2.entry).length

/-- Entries a context holds. -/
def ctxEntries (s : State) (ctx : Nat) : Nat := (s.sched.jobs.filter fun e => e.2.entry && e.2.ctx = ctx).length

/-- Records drawn from the FIFOs of a context, or of all, that are still to take their entry (05 R118). -/
def entriesDue (s : State) (which : Nat → Bool) : Nat :=
  (s.sched.jobs.filter fun e => e.2.state = .accepting && !e.2.entry && which e.2.ctx).length

/-- A job of a context may take an entry. -/
def sluiceRoom (s : State) (ctx : Nat) : Bool := entriesHeld s < 1024 && ctxEntries s ctx < (getCtx s ctx).jobs

/-- Put a job. -/
def putJob (s : State) (n : Nat) (j : Job) : State :=
  { s with sched := { s.sched with jobs := tput n j s.sched.jobs } }

/-- Take the next job number; 0 is skipped (05 R115). -/
def takeNumber (s : State) : State :=
  { s with sched := { s.sched with nextJob := if s.sched.nextJob = 0xFFFFFFFF then 1 else s.sched.nextJob + 1 } }

/-- A root job that is to be accepted takes a number (05 R115, R134). A program's enqueue takes its entry at issue (05
R142); a record drawn from a FIFO takes it once its header has been checked (05 R121, 06 R158). -/
def newRoot (s : State) (ctx queue : Nat) (addr : DWord) (src : Option Thread) : State :=
  let n := s.sched.nextJob
  takeNumber (putJob s n.toNat
    { num := n, ctx := ctx, queue := some queue, recAddr := addr &&& ~~~ 0xFF, state := .accepting, weight := 2 ^ 32
      root := n.toNat, parent := 0, src := src, after := nextId s, entry := src.isSome })

/-- The job has ended. -/
def jobEnded (j : Job) : Bool := j.state = .retired || j.state = .failed

/-- A cluster of the job is still to end. -/
def hasClusters (s : State) (n : Nat) : Bool := s.sched.clusters.any fun e => e.2.job = n

/-- A cluster stands on cores. -/
def clResident (c : Cluster) : Bool := c.state = .placing || c.state = .running || c.state = .preempting

/-- A cluster of the job stands on cores: a FAILED job leaves the sluice once none does (05 R119). -/
def onCores (s : State) (n : Nat) : Bool := s.sched.clusters.any fun e => e.2.job = n && clResident e.2

/-- A saved, parked cluster waits on one of these comparisons. -/
def savedWaits (c : Cluster) (ids : List Nat) : Bool :=
  c.saved.any fun k =>
    let hit (w : Wait) : Bool := match w with
      | .waitw i => ids.contains i
      | _ => false
    hit k.block.fe.wait || k.block.groups.any fun g => g.2.splits.any fun x => hit x.2.wait

/-- The clusters of a FAILED job that were pre-empted are placed no more: they are given up, with their registrations (05
R119). -/
def dropSaved (s : State) (n : Nat) : State :=
  let gone := s.sched.clusters.filter fun e => e.2.job = n && !clResident e.2
  { s with
    dies := s.dies.map fun d => (d.1, { d.2 with waiters := d.2.waiters.filter fun w => !gone.any fun e => savedWaits e.2 [w.id] })
    sched := { s.sched with clusters := s.sched.clusters.filter fun e => e.2.job ≠ n || clResident e.2 } }

/-- A root whose completion word is still to be written (05 R121). -/
def treeOpen (n : Nat) (j : Job) : Bool := j.root = n && !j.treeDone

/-- A job that has ended frees its entry (05 R119, R121), and one of which nothing remains is forgotten. -/
def freeEntry (s : State) (n : Nat) : State :=
  match getJob s n with
  | some j =>
    if jobEnded j && !(if j.state = .failed then onCores s n else hasClusters s n) then
      let s := if j.state = .failed then dropSaved s n else s
      let s := if treeOpen n j && j.record.doneAddr ≠ 0 then s else modJob s n fun j => { j with entry := false }
      if treeOpen n j || !j.returns.isEmpty || j.owed ≠ 0 then s
      else { s with sched := { s.sched with jobs := tdel n s.sched.jobs } }
    else s
  | none => s

/-- ACTIVE returns to OPEN when no cluster is resident and no job is queued or in the sluice (04 R89). -/
def ctxIdle (s : State) (ctx : Nat) : State :=
  let busy := s.sched.clusters.any (fun e => clResident e.2 && (getJob s e.2.job).any fun j => j.ctx = ctx)
    || s.sched.jobs.any (fun e => e.2.ctx = ctx && !jobEnded e.2)
    || s.sched.queues.any fun e => e.2.state ≠ .free && e.2.owner = ctx && !e.2.fifo.isEmpty
  if (getCtx s ctx).state = .active && !busy then modCtx s ctx fun c => { c with state := .open_ } else s

/-! ## Job states (05 R119, R120, R139) -/

/-- A waiting job whose predecessors are done and whose gates are open enters the ready pool. -/
def becomeReady (s : State) (n : Nat) : State :=
  modJob s n fun j =>
    if j.state = .waiting && j.preds.isEmpty && !j.gateW && !j.gateM then { j with state := .ready } else j

/-- Two lists of regions share a byte (05 R114, R120). -/
def regionsMeet (a b : List (DWord × DWord)) : Bool :=
  a.any fun x => b.any fun y => overlap x.1.toNat x.2.toNat y.1.toNat y.2.toNat

/-- Job p becomes a predecessor of a new record (05 R120). -/
def precedes (p : Job) (r : JobRec) : Bool :=
  (p.state = .waiting || p.state = .ready || p.state = .running) && !recPersist p.record
    && (regionsMeet r.rd p.record.wr || regionsMeet r.wr p.record.rd || regionsMeet r.wr p.record.wr)

/-- An accepted job enters the sluice (05 R119, R120). -/
def enterSluice (s : State) (n : Nat) (j : Job) (h : Header) : State :=
  let wh := shapeOf j.record h
  let preds := (s.sched.jobs.filter fun e => e.1 ≠ n && e.2.ctx = j.ctx && precedes e.2 j.record).map Prod.fst
  becomeReady (modJob s n fun j => { j with
    state := .waiting, entry := true, hdr := h, w := wh.1, h := wh.2, preds := preds
    gateW := recGateW j.record, gateM := recGateM j.record }) n

/-! ## Wake writes (05 R136 to R139) -/

/-- Registrations that a condition picks end: their threads are un-parked (05 R136, R137). -/
def endRegistrations (s : State) (which : Nat → Waiter → Bool) : State :=
  let ids := s.dies.flatMap fun d => (d.2.waiters.filter (which d.1)).map Waiter.id
  { s with
    dies := s.dies.map fun d => (d.1, { d.2 with waiters := d.2.waiters.filter fun w => !which d.1 w })
    sched := { s.sched with clusters := s.sched.clusters.map fun e =>
      (e.1, { e.2 with woken := e.2.woken || savedWaits e.2 ids }) } }

/-- A job is gated on the word of an address, as its context translates WAKEADDR: by a walk of the device, or by the walk
mailbox (05 R139, 15 R363). -/
def gatedOn (s : State) (p : Word) (a : Nat) (j : Job) : State × Bool :=
  if !(j.state = .waiting && j.gateW) then (s, false)
  else match devTranslate s j.ctx j.record.wakeAddr.toNat with
    | (s, .leaf l) =>
      let x := physAddr l j.record.wakeAddr.toNat
      (s, lineKey l.place x = lineKey p a && x % 128 / 8 = a % 128 / 8)
    | (s, .code _) => (s, false)

/-- A wake write opens the gate of a job that is gated on its word (05 R139). -/
def openGateW (p : Word) (a : Nat) (s : State) (e : Nat × Job) : State :=
  let r := gatedOn s p a e.2
  if r.2 then becomeReady (modJob r.1 e.1 fun j => { j with gateW := false }) e.1 else r.1

/-- A wake write has been performed: it un-parks what waits on the word and opens what is gated on it (05 R136). -/
def wakeWord (s : State) (p : Word) (a : Nat) : State :=
  let on (w : Waiter) : Bool := w.key = lineKey p a && w.word / 2 = a % 128 / 8
  let woken := s.dies.flatMap fun d => d.2.waiters.filter on
  let s := endRegistrations s fun _ w => on w
  -- the return of each is an acquire (10 R253)
  let s := if placeRemote p then s
    else foldSt (fun s w => serveMarks s w.id (coreDie w.thread.core) p [alignDown a 8, alignDown a 8 + 4]) s woken
  foldSt (openGateW p a) s s.sched.jobs

/-- The admitted dies, for which the device releases where no one core's work is announced (log entry 76). -/
def admittedDies (s : State) : List Nat := (List.range 4).filter (dieAdmitted s)

/-- A die holds dirty words of other dies' lines. -/
def holdsDirty (s : State) (d : Nat) : Bool := (getDie s d).visitor.any fun e => e.2.owned ≠ 0

/-- The device releases at system scope: the release epoch of each of these dies ends. The marks that name those epochs, of
the dies that a drain would make write something (10 R253, R260, R261, log entry 76). -/
def devRelease (s : State) (ds : List Nat) : State × List (BitVec 3 × BitVec 16) :=
  (foldSt endEpoch s ds, (ds.filter (holdsDirty s)).map fun d => (ownerOfDie d, (getDie s d).epoch))

/-- A write of the device that carries a release at system scope: its words take the marks of the epochs that it ended
(04 R98, 05 R135, 06 R161, 10 R253). -/
def devStoreRel (s : State) (ds : List Nat) (ctx va : Nat) (bs : List Byte) : State × Bool :=
  match devWriteCode s ctx va bs.length with
  | (s, some _) => (s, false)
  | (s, none) =>
    let r := devRelease s ds
    let s := (devWrite r.1 ctx va bs).1
    (foldSt (fun s e => match devTranslate s ctx e.1 with
      | (s, .leaf l) => if placeRemote l.place then s else foldSt (fun s m => putMark s l.place (physAddr l e.1) m) s r.2
      | (s, .code _) => s) s (piecesOf 4 va bs.length), true)

/-- A wake write that the device makes itself, with a release at system scope (05 R136, 10 R253). One whose word cannot be
written is dropped (log entry 27). -/
def devWake (s : State) (ctx va : Nat) (v : DWord) : State :=
  match devStoreRel s (admittedDies s) ctx va (natBytes 8 v.toNat) with
  | (s, false) => s
  | (s, true) => match devTranslate s ctx va with
    | (s, .leaf l) => wakeWord s l.place (physAddr l va)
    | (s, .code _) => s

/-- A message has completed a receive that names a job (05 R139, 16 R393). -/
def openGateM (s : State) (n ctx : Nat) : State :=
  if (getJob s n).any fun j => j.ctx = ctx && j.state = .waiting && recGateM j.record then
    becomeReady (modJob s n fun j => { j with gateM := false }) n
  else s

/-! ## Weights and trees (05 R134, R135) -/

/-- The completion word (05 R135). -/
def treeWord (j : Job) : DWord := BitVec.ofNat 32 (min j.nfail 0xFFFFFFFF) ++ (0 : BitVec 24) ++ j.firstFail

/-- A tree whose counter has reached 2^32 completes (05 R135). -/
def treeCheck (s : State) (root : Nat) : State :=
  match getJob s root with
  | some j =>
    if j.treeCount < 2 ^ 32 || j.treeDone then s
    else
      let s := modJob s root fun j => { j with treeDone := true }
      let s := if j.record.doneAddr = 0 then s else devWake s j.ctx j.record.doneAddr.toNat (treeWord j)
      freeEntry s root
  | none => s

/-- Weight that has left a job returns to its tree. -/
def returnWeight (s : State) (n amt : Nat) : State :=
  match getJob s n with
  | some j => treeCheck (modJob s j.root fun r => { r with treeCount := r.treeCount + amt }) j.root
  | none => s

/-- Every store and atomic that a thread made before an item number has been acknowledged or has faulted. -/
def storesBefore (s : State) (t : Thread) (after : Nat) : Bool :=
  !s.flight.global.any fun r => r.thread = t && r.id < after && !isCompare r.op

/-- Every store and atomic that the blocks of a job made before an item number, and every such copy, has been acknowledged or
has faulted (05 R135). -/
def jobStored (s : State) (n after : Nat) : Bool :=
  let of (core : Nat) : Bool := (getBlk s core).any fun b => b.job = n
  !(s.flight.global.any fun r => r.id < after && !isCompare r.op && of r.thread.core)
    && !s.cores.any fun e => match e.2.block with
      | some b => b.job = n && b.copy.cmds.any fun k => k.id < after && (k.op = 0xB4 || k.op = 0xB6)
      | none => false

/-- A release at system scope on every die, as a job's end is (05 R122, R135). -/
def releaseAll (s : State) : State := foldSt (fun s d => releaseAt s (48 * d) 3) s (List.range 4)

/-- The weight of a failed job returns once its release may be performed (05 R134, R135): at once where it has no block. -/
def settleOwed (s : State) (n : Nat) : State :=
  match getJob s n with
  | some j =>
    if j.owed = 0 || !jobStored s n j.owedAfter then s
    else freeEntry (returnWeight (releaseAll (modJob s n fun j => { j with owed := 0 })) n j.owed) n
  | none => s

/-- Weight returns of JDONEs and of failed jobs whose release may be performed take effect (05 R135, R143). -/
def settleReturns (s : State) : State :=
  foldSt (fun s e =>
    let s := if e.2.owed = 0 then s else settleOwed s e.1
    let due := e.2.returns.filter fun r => storesBefore s r.2.1 r.2.2
    if due.isEmpty then s
    else
      let s := modJob s e.1 fun j => { j with returns := j.returns.filter fun r => !due.contains r }
      let s := foldSt (fun s r => returnWeight (releaseAt s r.2.1.core 3) e.1 r.1) s due
      freeEntry s e.1) s s.sched.jobs

/-! ## Jobs that end (05 R119) -/

/-- The parts of the end of a job that retiring and failing share: DONE, successors, weight, entry. The weight returns at
once where the release has been performed, and else under one (05 R135). -/
def closeJob (s : State) (n : Nat) (j : Job) (released : Bool) : State :=
  let s := match j.queue with
    | some q => modQueue s q fun k => { k with done := k.done + 1 }
    | none => s
  let s := foldSt (fun s e => if e.2.preds.contains n then
      becomeReady (modJob s e.1 fun k => { k with preds := k.preds.filter (· ≠ n) }) e.1 else s) s s.sched.jobs
  let s := if released then returnWeight (modJob s n fun k => { k with weight := 0 }) n j.weight
    else settleOwed (modJob s n fun k => { k with weight := 0, owed := k.owed + j.weight, owedAfter := nextId s }) n
  ctxIdle (freeEntry s n) j.ctx

/-- A job fails with a code: the kind-J record, LASTCODE, the tree's failures (05 R115, R119, R135). -/
def failJob (s : State) (n : Nat) (code : Byte) : State :=
  match getJob s n with
  | none => s
  | some j =>
    if jobEnded j then s
    else
      let s := modJob s n fun k => { k with state := .failed }
      let s := queueRecord s j.ctx
        { code := code, kind := 3, handle := (0 : BitVec 5) ++ (1 : BitVec 1) ++ BitVec.ofNat 12 j.ctx ++ (0 : BitVec 6) ++ (0xFF : BitVec 8)
          job := j.num, fromService := j.recAddr = (getCtx s j.ctx).fsjob && j.recAddr ≠ 0 }
      let s := match j.queue with
        | some q => modQueue s q fun k => { k with lastCode := code }
        | none => s
      let s := modJob s j.root fun r =>
        { r with nfail := r.nfail + 1, firstFail := if r.nfail = 0 then code else r.firstFail }
      closeJob s n j false

/-- A job retires (05 R119, R122): its weight returns under the release at system scope that this is. -/
def retireJob (s : State) (n : Nat) : State :=
  match getJob s n with
  | none => s
  | some j =>
    closeJob (releaseAll (modJob s n fun k => { k with state := .retired })) n j true

/-- Nothing of a job remains to be run: it retires, or leaves the sluice if it failed (05 R119). -/
def jobSettle (s : State) (n : Nat) : State :=
  match getJob s n with
  | some j =>
    if j.state = .failed then freeEntry s n
    else if hasClusters s n then s
    else if j.state = .running && j.record.gx * j.record.gy * j.record.gz ≤ j.nextIndex then retireJob s n
    else freeEntry s n
  | none => s

/-! ## Acceptance (05 R115) -/

/-- Read the record once (05 R115). -/
def fetchRecord (s : State) (n : Nat) : State :=
  match getJob s n with
  | none => s
  | some j =>
    if j.fetched.isSome then s
    else match devRead s j.ctx j.recAddr.toNat 256 with
      | (s, .inl b) => modJob s n fun k => { k with fetched := some none, record := parseRecord b }
      | (s, .inr c) => modJob s n fun k => { k with fetched := some (some (readCode c)) }

/-- Check a job whose record has been read (05 R115): it enters the sluice, once that has an entry for it, or fails. -/
def checkJob (s : State) (n : Nat) : State :=
  match getJob s n with
  | none => s
  | some j => match j.fetched with
    | some (some c) => failJob s n c
    | _ => match readHeader s j.ctx j.record.kernel with
      | (s, .inr c) => failJob s n c
      | (s, .inl (raw, h)) => match headerCode raw h with
        | some c => failJob s n c
        | none => match gridCode j.record h with
          | some c => failJob s n c
          | none => if j.entry || sluiceRoom s j.ctx then enterSluice s n j h else s

/-- The record is read with acquire at package scope, for a job that a program enqueues (05 R142). -/
def acquireFor (s : State) (j : Job) : State :=
  match j.src with
  | some t => acquireAt s t.core 2
  | none => s

/-- JOB_ACCEPT (05 R115, R142). -/
def execJobAccept (job : Nat) (s : State) : Host.Outcome State Fault Refusal :=
  match getJob s job with
  | some j => event s (j.state = .accepting && (match j.src with
      | some t => j.fetched.isSome || storesBefore s t j.after
      | none => true)) (checkJob (fetchRecord (acquireFor s j) job) job)
  | none => .next s

end Sys2Proof.Machine
end

