-- ==== Sys2Proof/Machine/Messages.lean ====
section
/-! DEFINITION. Tagged messages and remote wake writes: MSEND, MRECV, MPROBE, MCANCEL, MWAKE and their steps (16 R388
to R398). -/
namespace Sys2Proof.Machine

/-! ## Endpoint and buffer words (16 R388) -/

/-- DEVICE, CORE, TAG and ANYSRC of an endpoint word. -/
def endDev (w : DWord) : Nat := bitsOf w.toNat 51 42
def endCore (w : DWord) : Nat := bitsOf w.toNat 39 32
def endTag (w : DWord) : Word := w.truncate 32
def endAny (w : DWord) : Bool := w.getLsbD 52
/-- LEN and ADDR of a buffer word. -/
def bufLen (w : DWord) : Nat := bitsOf w.toNat 48 32
def bufAddr (w : DWord) : Word := w.truncate 32

/-- EN and FID of a context (16 R386). -/
def fabricEn (s : State) (ctx : Nat) : Bool := (tgetD 0 ctx s.host.fabric).getLsbD 16
def fabricId (s : State) (ctx : Nat) : Nat := (tgetD 0 ctx s.host.fabric).toNat % 2 ^ 16

/-- The route to another device is UP (16 R387). -/
def routeTo (s : State) (dev : Nat) : Bool :=
  routeByteUp s (tgetD 0 dev s.host.route)

/-- The buffer's range in the issuing core's own pool (16 R389). -/
def bufTarget (s : State) (core : Nat) (w : DWord) : Option Nat :=
  match poolTarget s core (bufAddr w) (bufLen w) with
  | some (c, off) => if c = core then some off else none
  | none => none

/-- The barrier of a messaging instruction: none with NOBAR. -/
def msgBar (x : BitVec 1) (n : BitVec 6) : Option Nat := if x = 1 then none else some n.toNat

/-- A barrier of a block as records show it. -/
def barSpot (b : Block) (n : Nat) : BitVec 16 := BitVec.ofNat 16 (b.member * 256 + n)

/-- The checks of 16 R389 on a barrier and a device, in order. -/
def msgChecks (s : State) (i : Iss) (bar : Option Nat) (dev : Option Nat) (k : Eff) : Eff :=
  let b := issBlk i
  match bar.filter fun n => b.hdr.barriers ≤ n with
  | some n => .fault { code := cBARRIER_ERR, bar := barSpot b n }
  | none => chk [(dev.any (fun d => d ≠ s.host.devnum) && !fabricEn s b.ctx, cPERMISSION)] k

/-- The checks of 16 R389 on a buffer, then the others. -/
def bufChecks (s : State) (i : Iss) (w : DWord) (bar : Option Nat) (dev : Option Nat) (k : Eff) : Eff :=
  let a : DWord := (bufAddr w).zeroExtend 64
  if !aligned (bufAddr w).toNat 16 || !aligned (bufLen w) 16 then .fault { code := cMISALIGN, addr := a }
  else if bufLen w ≠ 0 && (bufTarget s (issCore i) w).isNone then .fault { code := cPOOL_ADDR, addr := a }
  else msgChecks s i bar dev k

/-! ## The send queue and the table of receives -/

/-- Change the messaging state of a core. -/
def modSends (s : State) (c : Nat) (f : List SendEntry → List SendEntry) : State :=
  modCore s c fun k => { k with sends := f k.sends }
def modRecvs (s : State) (c : Nat) (f : List Recv → List Recv) : State :=
  modCore s c fun k => { k with recvs := f k.recvs }
def modOverflow (s : State) (c : Nat) (f : List MsgHeader → List MsgHeader) : State :=
  modCore s c fun k => { k with overflow := f k.overflow }

/-- A message stage under way. -/
def getMsg (s : State) (id : Nat) : Option MsgFlight := s.flight.msgs.find? fun m => m.id = id

/-- Replace or forget a message stage. -/
def modMsg (s : State) (id : Nat) (f : MsgFlight → MsgFlight) : State :=
  modFlight s fun x => { x with msgs := x.msgs.map fun m => if m.id = id then f m else m }
def dropMsg (s : State) (id : Nat) : State := modFlight s fun x => { x with msgs := x.msgs.filter fun m => m.id ≠ id }

/-- The entry of a message that this device sent. -/
def sendOf (s : State) (h : MsgHeader) : Option SendEntry :=
  if h.srcDev = s.host.devnum then (getCore s h.srcCore).sends.find? fun e => e.id = h.send else none

/-- Put a message stage on its way. -/
def addMsg (s : State) (m : MsgFlight) : State :=
  let via := (msgPath s m).any fun p => viaOf s p.1 p.2
  bumpId (modFlight s fun f => { f with msgs := f.msgs ++ [{ m with id := nextId s, via := via }] })

/-- A message stage waits on a seam that is held, or for what is under way over the other route (01 R10, 16 R383, 18 R426). -/
def msgHeld (s : State) (m : MsgFlight) : Bool :=
  (msgPath s m).any fun p => seamHeld s p.1 p.2 || otherRoute s p.1 p.2 m.via m.id

/-- The completion of a message leaves a core for its sender (16 R390). -/
def sendCompletion (s : State) (core : Nat) (h : MsgHeader) (code : Byte) : State :=
  addMsg s { id := 0, stage := 3, hdr := h, dstDev := h.srcDev, dstCore := h.srcCore, code := code, origin := some core }

/-- A route leads from a core to an endpoint: every seam on it UP, or the fabric link of the other device (01 R10, 16 R387). A
core number that no core has is answered by the device. -/
def headerRoute (s : State) (core dev dst : Nat) : Bool :=
  if dev ≠ s.host.devnum then routeTo s dev else 192 ≤ core || 192 ≤ dst || routeUp s (coreDie core) (coreDie dst)

/-- Put the header of a send entry on its way, if it finds a route: one with a release finds its route when the release has
been performed (01 R10, 16 R387, R390). -/
def sendHeader (s : State) (core ctx : Nat) (e : SendEntry) : State :=
  let h : MsgHeader := { srcDev := s.host.devnum, srcCore := core, tag := e.tag, len := e.len, send := e.id, ctx := ctx }
  if e.rel || headerRoute s core e.dstDev e.dstCore then addMsg s { id := 0, stage := 0, dstDev := e.dstDev, dstCore := e.dstCore, hdr := h }
  else sendCompletion s core h cLINK_DOWN

/-- MSEND (16 R390). -/
def execMsend (p : BitVec 3) (a b : BitVec 6) (r x : BitVec 1) (n : BitVec 6) (s : State) : Host.Outcome State Fault Refusal :=
  sharedInstr s true [(a.toNat, 2), (b.toNat, 2)] [a.toNat, b.toNat] false false anyOne (.dest p) fun i =>
    let ep := opWide i a.toNat
    let bw := opWide i b.toNat
    bufChecks s i bw (msgBar x n) (some (endDev ep)) <| heldBy (sendHolds s i (r = 1)) <|
      if 32 ≤ (getCore s (issCore i)).sends.length then .retire (putDest s i p.toNat false)
      else
        let e : SendEntry :=
          { id := nextId s, wake := false, pc := issPc i, thread := issThread i, dstDev := endDev ep, dstCore := endCore ep
            tag := endTag ep, addr := bufAddr bw, len := bufLen bw, va := 0, value := 0, rel := r = 1, bar := msgBar x n
            after := nextId s }
        let s := modSends (bumpId (putDest s i p.toNat true)) (issCore i) fun l => l ++ [e]
        .retire (sendHeader s (issCore i) (issBlk i).ctx e)

/-! ## Receives -/

/-- A header matches a receive (16 R391). -/
def recvMatches (r : Recv) (h : MsgHeader) : Bool :=
  r.tag = h.tag && (r.anySrc || (r.dev = h.srcDev && r.core = h.srcCore))

/-- The receive that a match word and a buffer post. -/
def recvOf (s : State) (ep bw : DWord) (bar job : Option Nat) : Recv :=
  { id := nextId s, anySrc := endAny ep, dev := endDev ep, core := endCore ep, tag := endTag ep, rsv := ep.extractLsb' 40 2
    addr := bufAddr bw, len := bufLen bw, bar := bar, job := job }

/-- The pull of a message into a receive leaves (16 R391). -/
def sendPull (s : State) (core : Nat) (h : MsgHeader) (recv : Nat) : State :=
  addMsg s { id := 0, stage := 1, hdr := h, dstDev := s.host.devnum, dstCore := core, recv := recv }

/-- A posted receive takes the oldest overflow entry that it matches, or enters the table (16 R393). -/
def postRecv (s : State) (core : Nat) (r : Recv) : State :=
  match (getCore s core).overflow.find? (recvMatches r) with
  | some h =>
    let s := modRecvs (bumpId s) core fun l => l ++ [{ r with matched := true }]
    sendPull (modOverflow s core fun l => l.erase h) core h r.id
  | none => modRecvs (bumpId s) core fun l => l ++ [r]

/-- MRECV (16 R393). With JOB a front-end's ra above 62 is an illegal field value, which 03 R73 checks first; the pseudocode of
16 R393 makes the check after those of 16 R389 and of LEN, and that order is taken (log entry 140). -/
def execMrecv (p : BitVec 3) (a b : BitVec 6) (j x : BitVec 1) (n : BitVec 6) (s : State) : Host.Outcome State Fault Refusal :=
  let na := if j = 1 then 3 else 2
  let ss := if j = 1 then [a.toNat, a.toNat + 1, b.toNat] else [a.toNat, b.toNat]
  sharedInstr s true [(a.toNat, na), (b.toNat, 2)] ss false false anyOne (.dest p) fun i =>
    let ep := opWide i a.toNat
    let bw := opWide i b.toNat
    let fe := match i with
      | .fe _ => true
      | .grp _ => false
    bufChecks s i bw (msgBar x n) (some (endDev ep)) <|
      chk [(bufLen bw < 16, cMISALIGN), (j = 1 && fe && 62 < a.toNat, cILLEGAL)] <| heldBy (sendHolds s i false) <|
        if 32 ≤ (getCore s (issCore i)).recvs.length then .retire (putDest s i p.toNat false)
        else
          let job := if j = 1 then some (match i with
            | .grp c => (vreg c (a.toNat + 2) 0).toNat
            | .fe c => (low (sreg c (a.toNat + 1))).toNat) else none
          .retire (postRecv (putDest s i p.toNat true) (issCore i) (recvOf s ep bw (msgBar x n) job))

/-- A posted receive's match word equals a word in bits [52:0] (16 R394). -/
def sameWord (r : Recv) (w : DWord) : Bool :=
  !r.matched && r.anySrc = endAny w && r.dev = endDev w && r.core = endCore w && r.tag = endTag w && r.rsv = w.extractLsb' 40 2

/-- MPROBE (16 R394). -/
def execMprobe (p : BitVec 3) (d a : BitVec 6) (s : State) : Host.Outcome State Fault Refusal :=
  sharedInstr s false [(d.toNat, 2), (a.toNat, 2)] [d.toNat, a.toNat] false false anyOne (.dest p) fun i =>
    let w := opWide i a.toNat
    msgChecks s i none (some (endDev w)) <|
      let k := getCore s (issCore i)
      let hit := k.overflow.filter (recvMatches (recvOf s w 0 none none))
      let v : DWord := BitVec.ofNat 32 ((hit.head?.map MsgHeader.len).getD 0) ++ (0 : BitVec 16)
        ++ BitVec.ofNat 8 hit.length ++ BitVec.ofNat 8 (k.recvs.filter (sameWord · w)).length
      .retire (putDest (putWide s i d.toNat v) i p.toNat (!hit.isEmpty))

/-- MCANCEL (16 R394). -/
def execMcancel (p : BitVec 3) (a : BitVec 6) (s : State) : Host.Outcome State Fault Refusal :=
  sharedInstr s false [(a.toNat, 2)] [a.toNat] false false anyOne (.dest p) fun i =>
    let w := opWide i a.toNat
    msgChecks s i none (some (endDev w)) <|
      match (getCore s (issCore i)).recvs.find? (sameWord · w) with
      | some r => .retire (putDest (modRecvs s (issCore i) fun l => l.filter fun e => e.id ≠ r.id) i p.toNat true)
      | none => .retire (putDest s i p.toNat false)

/-! ## MWAKE (16 R398) -/

/-- The write of an MWAKE leaves. -/
def sendWake (s : State) (i : Iss) (e : SendEntry) (va : Nat) : State :=
  let r : GlobalReq :=
    { id := nextId s, inst := nextId s, thread := issThread i, split := issSplit i, die := coreDie (issCore i)
      ctx := (issBlk i).ctx, pc := issPc i, va := va, op := if e.rel then .relWake 3 else .wake, send := some e.id
      bytes := (List.range 8).map fun j => (va % 128 + j, 0, e.value.extractLsb' (8 * j) 8)
      epoch := (getDie s (coreDie (issCore i))).epoch }
  issueReq (bumpId s) r

/-- MWAKE (16 R398). Its translation is had at issue: the instruction is held until it is known, and faults precisely. -/
def execMwake (p : BitVec 3) (a b : BitVec 6) (r x : BitVec 1) (n : BitVec 6) (s : State) : Host.Outcome State Fault Refusal :=
  sharedInstr s true [(a.toNat, 2), (b.toNat, 2)] [a.toNat, b.toNat] false false anyOne (.dest p) fun i =>
    let va := opWide i a.toNat
    if !aligned va.toNat 8 then .fault { code := cMISALIGN, addr := va }
    else msgChecks s i (msgBar x n) none <| heldBy (sendHolds s i (r = 1)) <|
      match askLeaf s (issCore i) (issBlk i).ctx va.toNat with
      | (s, none) => .whole (match i with
        | .grp c => modSpl s c.core c.g c.k fun y => { y with
            held := 7, heldAt := s.clk.cycle, since := if y.held = 7 then y.since else s.clk.cycle }
        | .fe c => modFe s c.core fun e => { e with held := 7, heldAt := s.clk.cycle })
      | (_, some (.code c)) => .fault { code := asTranslation c, addr := va }
      | (s, some (.leaf l)) => match leafRight l false true false with
        | some c => .fault { code := c, addr := va }
        | none =>
          if 32 ≤ (getCore s (issCore i)).sends.length then .retire (putDest s i p.toNat false)
          else
            let e : SendEntry :=
              { id := nextId s, wake := true, pc := issPc i, thread := issThread i, dstDev := s.host.devnum
                dstCore := issCore i, tag := 0, addr := 0, len := 8, va := va, value := opWide i b.toNat, rel := r = 1
                bar := msgBar x n, after := nextId s }
            let s := modSends (bumpId (putDest s i p.toNat true)) (issCore i) fun l => l ++ [e]
            .retire (sendWake s i e va.toNat)

/-! ## Completions -/

/-- An operation of the send queue has completed positively (16 R390, R398): the credit, and the entry is free. -/
def sendDone (s : State) (core : Nat) (e : SendEntry) : State :=
  let s := modSends s core fun l => l.filter fun x => x.id ≠ e.id
  match e.bar with
  | some n => creditBytes s core n e.len
  | none => s

/-- An operation of the send queue has completed negatively (16 R390, R398): the error phase, and one record. -/
def sendFailed (s : State) (core : Nat) (e : SendEntry) (code : Byte) : State :=
  let s := modSends s core fun l => l.filter fun x => x.id ≠ e.id
  match getBlk s core with
  | none => s
  | some b =>
    let s := match e.bar with
      | some n => agentFault s core n code
      | none => s
    agentRecord s b.ctx { blockRecord s core b e.thread.who code 2 with
      pc := e.pc, addr := e.va, barrier := (e.bar.map (barSpot b)).getD 0xFFFF, detail := if e.wake then 0xE4 else 0xE0 }

/-- MWAKE_ACK (16 R398): the home's answer to the write of a send entry. -/
def execMwakeAck (id : Nat) (s : State) : Host.Outcome State Fault Refusal :=
  match getReq s id with
  | none => .next s
  | some r => match r.send, r.stage with
    | some k, .performed =>
      let s := dropReq s id
      (match (getCore s r.thread.core).sends.find? fun e => e.id = k with
        | some e => .next (sendDone s r.thread.core e)
        | none => .next s)
    | some k, .faulted c =>
      let s := dropReq s id
      (match (getCore s r.thread.core).sends.find? fun e => e.id = k with
        | some e => .next (sendFailed s r.thread.core e c)
        | none => .next s)
    | _, _ => .next s

/-- MSG_COMPLETION (16 R390). At a peer device the header may end in a refusal: PERMISSION or OVERFLOW, as the peer has
it (log entry 4). -/
def execMsgCompletion (id : Nat) (s : State) : Host.Outcome State Fault Refusal :=
  match getMsg s id with
  | none => .next s
  | some m =>
    let done (s : State) (code : Byte) : State :=
      let s := dropMsg s id
      match sendOf s m.hdr with
      | some e => if code = 0 then sendDone s m.hdr.srcCore e else sendFailed s m.hdr.srcCore e code
      | none => s
    match m.stage with
    | 3 => event s (!msgHeld s m) (done s m.code)
    | 4 => .next (done (bumpFree s) (if (freshValue s).getLsbD 0 then cPERMISSION else cOVERFLOW))
    | _ => .next s

/-! ## Headers, pulls and data (16 R391, R392) -/

/-- The block that receives a header: one of the sender's context, or across devices one whose context is enabled under
the sender's FID (16 R391). -/
def endpointOk (s : State) (h : MsgHeader) (core : Nat) : Bool :=
  (getBlk s core).any fun b =>
    if h.srcDev = s.host.devnum then b.ctx = h.ctx else fabricEn s b.ctx && fabricId s b.ctx = h.ctx

/-- A header that meets a full overflow queue (16 R391). -/
def overflowRecord (s : State) (h : MsgHeader) (core : Nat) : State :=
  match getBlk s core with
  | some b => agentRecord s b.ctx { blockRecord s core b .fe cOVERFLOW 2 with
      addr := h.tag.zeroExtend 64, detail := BitVec.ofNat 32 (0xE0 + h.srcCore % 256 * 2 ^ 8 + h.srcDev % 1024 * 2 ^ 16) }
  | none => s

/-- A header arrives at a core of this device (16 R391). -/
def headerArrives (s : State) (m : MsgFlight) : State :=
  let h := m.hdr
  let c := m.dstCore
  let s := dropMsg s m.id
  if !endpointOk s h c then sendCompletion s c h cPERMISSION
  else match (getCore s c).recvs.find? fun r => !r.matched && recvMatches r h with
    | some r => sendPull (modRecvs s c fun l => l.map fun e => if e.id = r.id then { e with matched := true } else e) c h r.id
    | none =>
      if (getCore s c).overflow.length < 64 then modOverflow s c fun l => l ++ [h]
      else sendCompletion (overflowRecord s h c) c h cOVERFLOW

/-- The release of a queued message or wake of a thread may be performed: its earlier pool accesses and global stores are
done, those of its copy commands too, and no store of it that has faulted is still to be replayed (10 R260, 16 R390, R398,
log entry 126). -/
def sendReleases (s : State) (t : Thread) (after : Nat) : Bool :=
  storesBefore s t after && !s.flight.pool.any (fun r => r.src = t && !r.arrived && r.id < after)
    && !s.flight.global.any (fun r => r.thread = t && r.again.isSome)
    && (match t.who with
      | .grp g => !(getGrp s t.core g).any fun x => !x.sfrq.isEmpty
      | .fe => !(getBlk s t.core).any fun b => b.copy.cmds.any fun k => k.id < after && writesGlobal k.op)

/-- A header may arrive: its release has been performed, and earlier headers to the same endpoint have (16 R390, R395). -/
def headerTurn (s : State) (m : MsgFlight) : Bool :=
  (match sendOf s m.hdr with
    | some e => !e.rel || sendReleases s e.thread e.after
    | none => true)
  && !s.flight.msgs.any fun x => x.id < m.id && x.stage = 0 && x.hdr.srcDev = m.hdr.srcDev && x.hdr.srcCore = m.hdr.srcCore
    && x.dstDev = m.dstDev && x.dstCore = m.dstCore

/-- A message stage between two dies of this device has no route (01 R10). -/
def msgCut (s : State) (m : MsgFlight) : Bool := (msgPath s m).any fun p => !routeBy s keeps p.1 p.2

/-- A header finds no route: one with a release as it is sent, once the release is performed (01 R10, 16 R387). -/
def headerCut (s : State) (m : MsgFlight) : Bool :=
  msgCut s m || ((sendOf s m.hdr).any SendEntry.rel && !headerRoute s m.hdr.srcCore m.dstDev m.dstCore)

/-- The fabric link on which a header leaves the device is held for replay or under test (16 R383, 18 R426). -/
def fabricHeld (s : State) (dev : Nat) : Bool :=
  dev ≠ s.host.devnum && (routeLink (tgetD 0 dev s.host.route)).any fun l => linkIn s keeps l && !linkCarries s l

/-- MSG_HEADER_ARRIVE (16 R390, R391). A header for a peer leaves the package, or finds no route. -/
def execMsgHeaderArrive (id : Nat) (s : State) : Host.Outcome State Fault Refusal :=
  match getMsg s id with
  | none => .next s
  | some m => event s (m.stage = 0 && headerTurn s m && !msgHeld s m && !fabricHeld s m.dstDev)
      (let s := match sendOf s m.hdr with
        | some e => if e.rel then releaseAt s e.thread.core 3 else s
        | none => s
      let cut := headerCut s m || (m.dstDev ≠ s.host.devnum && !(routeLink (tgetD 0 m.dstDev s.host.route)).any (linkIn s carries))
      if cut then sendCompletion (dropMsg s id) m.hdr.srcCore m.hdr cLINK_DOWN
      else if m.dstDev = s.host.devnum then headerArrives s m
      else modMsg s id fun x => { x with stage := 4 })

/-- The source bytes of a message at its pull: this device's pool, or the peer's (log entry 4). -/
def pulledBytes (s : State) (h : MsgHeader) : List Byte :=
  match sendOf s h with
  | some e => poolBytes s h.srcCore (e.addr.toNat % 2 ^ 19) e.len
  | none => (List.range h.len).map fun i => Config.peerByte h.srcDev i s.free

/-- A source byte has an uncorrectable error (18 R428). -/
def pullBad (s : State) (h : MsgHeader) : Bool :=
  (sendOf s h).any fun e => badIn s (poolNum h.srcCore (e.addr.toNat % 2 ^ 19)) e.len

/-- MSG_PULL (16 R390, R391): the pull reaches the sender, which reads and sends the bytes once its pool is not under test (18
R426). A sender that has withdrawn the message sends nothing. -/
def execMsgPull (id : Nat) (s : State) : Host.Outcome State Fault Refusal :=
  match getMsg s id with
  | none => .next s
  | some m =>
    match m.stage with
    | 1 =>
      let here : Bool := m.hdr.srcDev = s.host.devnum
      if msgHeld s m || (here && coreTested s 1 m.hdr.srcCore) || fabricHeld s m.hdr.srcDev then .next s
      else
      let free (s : State) : State := modRecvs s m.dstCore fun l => l.map fun r => if r.id = m.recv then { r with matched := false } else r
      if here && (sendOf s m.hdr).isNone then .next (free (dropMsg s id))
      else if !here && !routeTo s m.hdr.srcDev then .next (free (dropMsg s id))
      else if pullBad s m.hdr then .next (sendCompletion (free (dropMsg s id)) m.hdr.srcCore m.hdr cDATA_UNCORRECTABLE)
      else .next (addMsg (dropMsg (if here then s else bumpFree s) id) { m with stage := 2, data := pulledBytes s m.hdr })
    | 4 => .next (modMsg s id fun x => { x with stage := 3, code := 0 })
    | _ => .next s

/-- The header granule (16 R392). -/
def headerGranule (h : MsgHeader) (trunc : Bool) : List Byte :=
  natBytes 4 h.tag.toNat ++ [BitVec.ofNat 8 h.srcCore, 0] ++ natBytes 2 (h.srcDev % 1024 + if trunc then 2 ^ 15 else 0)
    ++ natBytes 4 h.len ++ natBytes 4 0

/-- A message fills its receive (16 R392): the data, the header granule last, the credit, the gate of the job. -/
def landMessage (s : State) (m : MsgFlight) (r : Recv) : State :=
  let c := m.dstCore
  let off := r.addr.toNat % 2 ^ 19
  let n := min m.data.length (r.len - 16)
  let s := if n = 0 then s else setFull (poolPut s c (off + 16) (m.data.take n)) c (off + 16) n true
  let s := setFull (poolPut s c off (headerGranule m.hdr (n < m.data.length))) c off 16 true
  let s := satisfyFe s c
  let s := match r.bar with
    | some i => creditBytes s c i (n + 16)
    | none => s
  let s := modRecvs s c fun l => l.filter fun e => e.id ≠ r.id
  let s := match r.job, getBlk s c with
    | some j, some b => openGateM s j b.ctx
    | _, _ => s
  sendCompletion s c m.hdr 0

/-- MSG_DATA_LAND (16 R392), once the receiver's pool is not under test (18 R426). -/
def execMsgDataLand (id : Nat) (s : State) : Host.Outcome State Fault Refusal :=
  match getMsg s id with
  | none => .next s
  | some m =>
    if m.stage = 2 && !msgHeld s m && !coreTested s 1 m.dstCore then
      match (getCore s m.dstCore).recvs.find? fun r => r.id = m.recv with
      | some r => .next (landMessage (dropMsg s id) m r)
      | none => .next (sendCompletion (dropMsg s id) m.dstCore m.hdr cPERMISSION)
    else .next s

/-! ## Pre-emption and the end of a block (16 R396) -/

/-- The block's messaging state goes: its receives and overflow entries are dropped, with a negative completion to the
senders of the latter; its own unmatched sends are withdrawn: those on their way, those in an overflow queue, and those at a peer
that has not pulled them. Answers the sends that a save keeps, in order. -/
def withdraw (s : State) (core : Nat) : State × List SendEntry :=
  let k := getCore s core
  let s := foldSt (fun s h => sendCompletion s core h cPERMISSION) s k.overflow
  let mine (h : MsgHeader) : Bool := h.srcDev = s.host.devnum && h.srcCore = core
  let open_ (m : MsgFlight) : Bool := m.stage = 0 || m.stage = 4
  let matched (e : SendEntry) : Bool := s.flight.msgs.any fun m => mine m.hdr && m.hdr.send = e.id && !open_ m
  let kept := k.sends.filter fun e => !e.wake && !matched e
  let s := { s with cores := s.cores.map fun c => (c.1, { c.2 with overflow := c.2.overflow.filter fun h => !mine h }) }
  let s := modFlight s fun f => { f with msgs := f.msgs.filter fun m => !(mine m.hdr && open_ m) }
  (modCore s core fun k => { k with sends := k.sends.filter fun e => !kept.contains e, recvs := [], overflow := [] }, kept)

/-- Withdrawn sends are sent again at resume, in their order, under their new numbers. -/
def resend (s : State) (core ctx : Nat) (l : List SendEntry) : State :=
  foldSt (fun s e =>
    let t : Thread := ⟨core, e.thread.who⟩
    let e := { e with id := nextId s, thread := t, after := nextId s }
    sendHeader (modSends (bumpId s) core fun l => l ++ [e]) core ctx e) s l

end Sys2Proof.Machine
end

