-- ==== Sys2Proof/Machine/Frame.lean ====
section
/-! DEFINITION. The layouts of saved state: the front-end area, group control areas, register area and the rest of a
frame (04 R102 to R104, R453, R454, 14 R341). -/
namespace Sys2Proof.Machine

/-- Exactly n bytes: cut, or padded with zeros. -/
def pad (n : Nat) (l : List Byte) : List Byte := l.take n ++ List.replicate (n - l.length) 0

/-- A state code (07 R162, 04 R453). -/
def runCode : Run → Nat
  | .ready => 0
  | .active => 0
  | .waiting => 2
  | .faulted => 3
  | .exited => 5
  | .killed => 6

/-- Flags as bytes. -/
def flagBytes (f : Table Nat) : List Byte := (List.range 12).map fun i => BitVec.ofNat 8 (tgetD 0 i f)

/-- The stall counters, 4 bytes each. -/
def stallBytes (t : Table Word) : List Byte := (List.range 16).flatMap fun i => natBytes 4 (tgetD 0 (i + 1) t).toNat

/-- An open clause in its word (04 R453). -/
def clauseWord : Option Clause → Nat
  | some c => c.left + c.flagA.toNat * 16 + c.flagB.toNat * 256
  | none => 0

/-- The front-end area (04 R453). -/
def feArea (b : Block) : List Byte :=
  let e := b.fe
  let code := match e.run with
    | .waiting => 0
    | r => runCode r
  pad 0x200 ((List.range 64).flatMap fun n => natBytes 8 (sregOf e n).toNat)
    ++ pad 0x200 ((List.range 64).flatMap fun n => natBytes 8 (tgetD 0 n e.snapshot).toNat)
    ++ pad 0x400 ((List.range 128).flatMap fun k => natBytes 8 (tgetD 0 k b.dq).toNat)
    ++ natBytes 4 e.pc.toNat ++ natBytes 4 e.rstack.length ++ pad 32 (e.rstack.flatMap fun p => natBytes 4 p.toNat)
    ++ [e.preds &&& 0xFE, BitVec.ofNat 8 (if e.stopped then 4 + code * 16 else code)] ++ natBytes 2 e.gen.toNat
    ++ flagBytes e.flags ++ natBytes 4 b.dqTail.toNat ++ natBytes 4 (e.lastStart.getD 0xFFFFFFFF) ++ natBytes 8 e.fault.toNat
    ++ pad 0x5B8 (natBytes 4 (clauseWord e.clause))
    ++ (List.range 8).flatMap (fun i => natBytes 8 (tgetD 0 i b.watch).toNat) ++ pad 64 (natBytes 8 b.trig.toNat)
    ++ pad 0x180 (stallBytes e.stalls)

/-- The state word of a group (07 R162). -/
def stateWord (r : Group) : Nat :=
  (if r.stopped then 4 else runCode r.run) + r.prio.toNat * 16
    + (r.splits.foldl (fun m e => m + 2 ^ (8 + e.1)) 0) + r.serial.length * 2 ^ 12 + r.gen.toNat * 2 ^ 16
    + ((List.range r.serial.length).foldl (fun m e => if (r.serial[e]?).any SerialEntry.running then m + 2 ^ (24 + e) else m) 0)

/-- A predicate of a group over all lanes: stage predicates in the lanes of a pipelined split (07 R191). -/
def predWord (r : Group) (p : Nat) : Word :=
  r.splits.foldl (fun m e => if 4 ≤ p && (stagedLevel e.2).isSome then
    (m &&& ~~~ e.2.lanes) ||| (predMask r e.2 p &&& e.2.lanes) else m) (tgetD 0 p r.preds)

/-- A loop level's 24 bytes (04 R103). -/
def loopLevelBytes (l : LoopLevel) : List Byte :=
  natBytes 4 l.count.toNat ++ natBytes 4 l.start.toNat ++ natBytes 4 l.stop.toNat ++ natBytes 4 l.iter.toNat
    ++ [BitVec.ofNat 8 l.stages, BitVec.ofNat 8 l.wbase, BitVec.ofNat 8 l.wsize,
        BitVec.ofNat 8 (if l.wsize = 0 then 0 else l.woff % l.wsize)] ++ natBytes 4 0

/-- A split's 192 bytes (04 R103). -/
def splitBytes (r : Group) (x : Split) : List Byte :=
  let displaced := (stagedLevel x).isSome
  natBytes 4 x.pc.toNat ++ natBytes 4 x.lanes.toNat ++ natBytes 4 x.rstack.length ++ natBytes 4 x.levels.length
    ++ pad 32 (x.rstack.flatMap fun p => natBytes 4 p.toNat) ++ pad 96 (x.levels.flatMap loopLevelBytes)
    ++ (List.range 4).flatMap (fun k => natBytes 4 (if displaced then (tgetD 0 (4 + k) r.preds &&& x.lanes).toNat else 0))
    ++ pad 32 [BitVec.ofNat 8 x.armBase, BitVec.ofNat 8 x.armSize]

/-- The serial stack: the owner in bits [1:0] of the PC (07 R183). -/
def serialBytes (l : List SerialEntry) : List Byte :=
  l.flatMap fun e => natBytes 4 (e.pc.toNat / 4 * 4 + e.owner % 4) ++ natBytes 4 e.lanes.toNat

/-- A group's control area (04 R103). -/
def controlArea (r : Group) : List Byte :=
  natBytes 8 (stateWord r) ++ natBytes 8 r.fpflags.toNat
    ++ pad 32 ((List.range 7).flatMap fun i => natBytes 4 (predWord r (i + 1)).toNat)
    ++ flagBytes r.flags ++ natBytes 4 r.pg.toNat ++ pad 64 (serialBytes r.serial)
    ++ (List.range 4).flatMap (fun k => match tfind k r.splits with
        | some x => pad 192 (splitBytes r x)
        | none => List.replicate 192 0)
    ++ pad 128 (stallBytes r.stalls)

/-- A group's registers (04 R104). -/
def registerBytes (h : Header) (r : Group) : List Byte :=
  (List.range (groupCost h)).flatMap fun i => natBytes 4 (if i < h.nu + 2 * h.na + 32 * h.ng then (tgetD 0 i r.regs).toNat else 0)

/-- A barrier object's image (14 R341). -/
def barrierBytes (o : Barrier) : List Byte :=
  let f (b : Bool) (n : Nat) : Nat := if b then n else 0
  natBytes 8 o.lmask.toNat ++ natBytes 8 o.larr.toNat ++ natBytes 4 o.phase.toNat ++ natBytes 4 o.ephase.toNat
    ++ natBytes 4 o.eend.toNat ++ natBytes 4 0 ++ natBytes 8 o.expb.toNat ++ natBytes 8 o.arrb.toNat
    ++ natBytes 2 o.cmask.toNat ++ natBytes 2 o.carr.toNat ++ natBytes 2 o.watch.toNat ++ natBytes 2 o.parent.toNat
    ++ [o.state, o.ecode, BitVec.ofNat 8 (f o.femem 1 + f o.fearr 2 + f o.fwd 4), 0] ++ natBytes 4 o.blkh.toNat

/-- A slot record (04 R454). -/
def slotRecordBytes (x : Slot) : List Byte :=
  pad 64 (natBytes 4 (if x.state = 5 then 0 else x.header.toNat) ++ [BitVec.ofNat 8 (if x.state = 5 then 0 else x.state)])

/-- A block as a save's frame records it: a pre-emption stop ends with the save, so that the state it keeps is written; a debug
stop stays (04 R89, 07 R162, 17 R413, log entry 125). The frame of a DUMP records the block as it stands. -/
def savedForm (s : State) (b : Block) : Block :=
  if (getCl s b.cluster).any Cluster.stopped then b
  else { b with
    fe := { b.fe with stopped := false }
    groups := b.groups.map fun e => (e.1, { e.2 with stopped := false }) }

/-- A block's frame (04 R102). The layout of the engines' part is not given: it holds free values. -/
def frameBytes (s : State) (core : Nat) (b : Block) : List Byte :=
  let k := getCore s core
  let slot (n : Nat) : Slot := tgetD {} n k.slots
  pad 0x1000 (feArea b)
    ++ pad 0x1000 ((List.range 64).flatMap fun i => barrierBytes (tgetD {} i b.barriers))
    ++ pad 0x10000 ((List.range 64).flatMap fun g => match tfind g b.groups with
        | some r => pad 1024 (controlArea r)
        | none => List.replicate 1024 0)
    ++ pad 0x40000 (b.groups.flatMap fun e => registerBytes b.hdr e.2)
    ++ (List.range 0x80000).map (fun i => tgetD 0 i k.pool)
    ++ (List.range 0x1000).map (fun i => BitVec.ofNat 8 ((List.range 8).foldl (fun m j =>
        if tgetD false (8 * i + j) k.full then m + 2 ^ j else m) 0))
    ++ (List.range 64).flatMap (fun n => (List.range 0x4000).map fun i => tgetD 0 i (slot n).data)
    ++ (List.range 64).flatMap (fun n => (List.range 0x400).map fun i => tgetD 0 i (slot n).side)
    ++ (List.range 64).flatMap (fun n => slotRecordBytes (slot n))
    ++ (List.range 0x40000).flatMap (fun i => natBytes 4 (tgetD 0 i k.tiles).toNat)
    ++ (List.range 0x6C000).map (fun i => (Config.freeValue (s.free + i)).truncate 8)

/-- The free values that a frame has taken. -/
def frameTaken (s : State) : State := { s with free := s.free + 0x6C000 }

/-- Bytes of a frame (04 R102). -/
def frameSize : Nat := 0x350000

/-- The bytes of a fault record with its sequence number (04 R97). -/
def recordBytes (r : FaultRec) : List Byte :=
  [r.code, r.kind, 0, 0] ++ natBytes 4 r.seq.toNat ++ natBytes 8 r.gts.toNat ++ natBytes 4 r.handle.toNat
    ++ natBytes 4 r.job.toNat ++ natBytes 4 r.restart.toNat ++ natBytes 4 r.pc.toNat ++ natBytes 8 r.addr.toNat
    ++ natBytes 4 r.cindex.toNat ++ [r.member, r.skid] ++ natBytes 2 r.barrier.toNat ++ natBytes 4 r.lanes.toNat
    ++ natBytes 4 r.detail.toNat ++ natBytes 8 0

/-- A store-fault record's 32 bytes (11 R287). -/
def storeFaultBytes (r : StoreFaultRec) : List Byte :=
  natBytes 4 r.pc.toNat ++ natBytes 4 r.lanes.toNat ++ natBytes 8 r.addr.toNat ++ natBytes 8 r.bytes.toNat
    ++ [r.code, r.fm.zeroExtend 8, r.skid, BitVec.ofNat 8 r.count] ++ natBytes 4 0

end Sys2Proof.Machine
end

