-- ==== Sys2Proof/Machine/Blocks.lean ====
section
/-! DEFINITION. Blocks and clusters: placing and launching them (05 R122 to R127, 06 R153 to R156), pre-emption, save,
discard and resume (05 R128 to R133), retirement and the block record (06 R160, R161). -/
namespace Sys2Proof.Machine

/-! ## Zeroing and the initial state of a block (04 R93, 06 R155) -/

/-- Zero the memories of a core for a new owner (04 R93). -/
def zeroCore (s : State) (core : Nat) : State :=
  let s := modCore s core fun k => { k with pool := [], full := [], tags := [], slots := [], tiles := [] }
  { s with bad := s.bad.filter fun e => !(poolNum core 0 ≤ e.1 * 4 && e.1 * 4 < poolNum core 0 + 2 ^ 19) }

/-- A group as a block starts it. -/
def freshGroup (h : Header) (age : Nat) : Group :=
  { age := age, splits := [(0, { pc := h.grpEntry, lanes := 0xFFFFFFFF })] }

/-- s1 to s9 as a block starts with them. -/
def startRegs (r : JobRec) (h : Header) : Table DWord :=
  let params := (List.range 8).foldl (fun t i => tputD 0 (i + 1) (r.params.getD i 0) t) ([] : Table DWord)
  tputD 0 9 (if h.dataSize = 0 then 0 else r.kernel + BitVec.ofNat 64 h.dataOff) params

/-- The initial state of a block (06 R155). -/
def freshBlock (s : State) (n : Nat) (j : Job) (cl member : Nat) : Block :=
  { job := n, cluster := cl, member := member, ctx := j.ctx, hdr := j.hdr, kernel := j.record.kernel
    fe := { pc := j.hdr.feEntry, regs := startRegs j.record j.hdr }
    groups := (List.range j.hdr.groups).map fun g => (g, freshGroup j.hdr s.clk.cycle) }

/-- A core takes a block; the register banks that its layout leaves out are those that were out as its cluster was placed, and
those lost since hold words of it (01 R14). Full-empty bits empty, slots FREE with header 0, nothing posted (06 R155). -/
def seatBlock (s : State) (core : Nat) (b : Block) : State :=
  modCore s core fun k =>
    let out := ((getCl s b.cluster).bind fun cl => tfind core cl.banks).getD k.banksOut
    { k with
    block := some { b with banksOut := out, banksLost := k.banksOut.filter fun x => !out.contains x }, full := [], sends := [], recvs := [], overflow := []
    slots := k.slots.map fun e => (e.1, { e.2 with header := 0, state := 0, refs := 0, filling := false }) }

/-! ## Resuming (05 R131, R133) -/

/-- The block of a discarded cluster as it starts again (05 R133). The stall counters and the bits of killed groups start afresh
with the groups, while the first GTS, the cycles resident and the count of saves go on (log entry 147). -/
def restartBlock (s : State) (b : Block) (j : Job) : Block :=
  let start := match b.fe.idem with
    | some i => ((b.hdr.idem[i]?).map Prod.fst).getD b.hdr.feEntry
    | none => b.hdr.feEntry
  let fresh := freshBlock s b.job j b.cluster b.member
  { fresh with fe := { fresh.fe with pc := start, regs := b.fe.snapshot, snapshot := b.fe.snapshot, idem := b.fe.idem, lastStart := b.fe.lastStart }
               firstGts := b.firstGts, begun := b.begun, resident := b.resident, saves := b.saves }

/-- A wait that comes back with its thread; a comparison that is still registered is made again (05 R138, R145). -/
def resumeWait (s : State) (w : Wait) : Wait :=
  match w with
  | .waitw i => if s.dies.any fun d => d.2.waiters.any fun x => x.id = i then .none else .waitw i
  | w => w

/-- The registrations of a resumed cluster's waits end. -/
def dropOldWaits (s : State) (b : Block) : State :=
  let mine (w : Waiter) : Bool :=
    b.fe.wait = .waitw w.id || b.groups.any fun g => g.2.splits.any fun x => x.2.wait = .waitw w.id
  { s with dies := s.dies.map fun d => (d.1, { d.2 with waiters := d.2.waiters.filter fun w => !mine w }) }

/-- A saved block comes back: its memories, its threads as they were kept, its withdrawn sends and barrier waits, which
wait for the same phase of the same member's object (14 R360). -/
def restoreCore (s : State) (cl : Cluster) (core : Nat) (k : SavedCore) : State :=
  let b := k.block
  let b := { b with
    fe := { b.fe with wait := resumeWait s b.fe.wait }
    groups := b.groups.map fun g => (g.1, { g.2 with
      splits := g.2.splits.map fun x => (x.1, { x.2 with wait := resumeWait s x.2.wait }) }) }
  let s := dropOldWaits s k.block
  let s := modCore (seatBlock s core b) core fun c => { c with pool := k.pool, full := k.full, slots := k.slots, tiles := k.tiles }
  let s := resend s core b.ctx k.sends
  let s := modFlight s fun f => { f with bars := f.bars ++ k.bars.map fun r => { r with
    src := ⟨core, r.src.who⟩, read := false
    dst := match r.op with
      | .read _ _ _ true => memberCore cl r.dst
      | _ => r.dst } }
  evalAll s core

/-- Set the state of a block on its core: fresh, restarted or restored (06 R155, 05 R131, R133). -/
def setBlock (s : State) (n core member : Nat) : State :=
  match getCl s n with
  | none => s
  | some cl => match getJob s cl.job, cl.saved.find? fun k => k.member = member with
    | some j, none => seatBlock s core (freshBlock s cl.job j n member)
    | some j, some k =>
      if k.frame.isSome then restoreCore s cl core k else seatBlock s core (restartBlock s k.block j)
    | none, _ => s

/-! ## Finding a rectangle (05 R124) -/

/-- A core holds, or is taken for, a cluster. -/
def coreTaken (s : State) (c : Nat) : Bool :=
  (getBlk s c).isSome || s.sched.clusters.any fun e => clResident e.2 && (clusterCores e.2).contains c

/-- The core is reserved for another job (05 R130). -/
def coreReserved (s : State) (job c : Nat) : Bool :=
  s.sched.reserve.any fun r => r.1 ≠ job && r.2.contains c && (getJob s r.1).any fun x => !jobEnded x

/-- A core may be placed on. -/
def coreFree (s : State) (job c : Nat) : Bool :=
  !coreTaken s c && !coreReserved s job c && !(getCore s c).removed && !(getCore s c).zeroing

/-- The cores of a rectangle, in member order. -/
def rectCores (x y w h : Nat) : List Nat := (List.range (w * h)).map fun m => coreAt (x + m % w) (y + m / w)

/-- A rectangle is usable, with a notion of free. -/
def rectUsable (s : State) (r : JobRec) (free : Nat → Bool) (x y w h : Nat) : Bool :=
  x + w ≤ 12 && y + h ≤ 16
    && (rectDies x y w h).all (fun d => (recDies r).contains d && dieAdmitted s d) && (rectCores x y w h).all free

/-- Corners of a grid, row by row. -/
def corners (nx ny : Nat) : List (Nat × Nat) := (List.range ny).flatMap fun y => (List.range nx).map fun x => (x, y)

/-- The rectangle of a job's next cluster, if one is usable (05 R124). -/
def findRect (s : State) (j : Job) (free : Nat → Bool) : Option (Nat × Nat) :=
  let r := j.record
  let ok (c : Nat × Nat) : Bool := rectUsable s r free c.1 c.2 j.w j.h
  if recCornerV r then
    let c := (r.corner.toNat % 16, r.corner.toNat / 16)
    if ok c then some c else none
  else
    let single := (recDies r).findSome? fun d =>
      ((corners (7 - j.w) (9 - j.h)).map fun c => (d % 2 * 6 + c.1, d / 2 * 8 + c.2)).find? ok
    match single with
    | some c => some c
    | none =>
      if recBond r || j.hdr.bond then
        (corners (13 - j.w) (17 - j.h)).find? fun c => (rectDies c.1 c.2 j.w j.h).length = 2 && ok c
      else none

/-! ## Candidates (05 R123, R127) -/

/-- A candidate of the dispatcher: a job's next cluster, or a saved one. -/
structure Cand where
  job : Nat
  cl : Option Nat
  deriving DecidableEq, Repr

/-- The context's clusters may be placed (04 R89). -/
def ctxPlaces (s : State) (ctx : Nat) : Bool := (getCtx s ctx).state = .open_ || (getCtx s ctx).state = .active

/-- a comes before b in the dispatcher's order: deadline, job number, saved before unplaced, cluster number. -/
def candBefore (s : State) (a b : Cand) : Bool :=
  let key (c : Cand) : Nat := ((getJob s c.job).map fun j => recDeadline j.record).getD 0
  if key a ≠ key b then key a < key b
  else if a.job ≠ b.job then a.job < b.job
  else match a.cl, b.cl with
    | some x, some y => x < y
    | some _, none => true
    | none, _ => false

/-- Insert a candidate in order. -/
def insertCand (s : State) (c : Cand) : List Cand → List Cand
  | [] => [c]
  | d :: r => if candBefore s c d then c :: d :: r else d :: insertCand s c r

/-- Every candidate, in the dispatcher's order (05 R123, R138). -/
def candidates (s : State) : List Cand :=
  let fresh := s.sched.jobs.filterMap fun e =>
    if (e.2.state = .ready || e.2.state = .running) && e.2.nextIndex < e.2.record.gx * e.2.record.gy * e.2.record.gz
        && ctxPlaces s e.2.ctx then some { job := e.1, cl := none } else none
  let saved := s.sched.clusters.filterMap fun e =>
    if (e.2.state = .saved || e.2.state = .discarded) && (!e.2.parked || e.2.woken)
        && (getJob s e.2.job).any fun j => j.state = .running && ctxPlaces s j.ctx then some { job := e.2.job, cl := some e.1 } else none
  (fresh ++ saved).foldl (fun l c => insertCand s c l) []

/-- The energy estimates of a context's placed clusters (05 R127). -/
def outstanding (s : State) (ctx : Nat) : Nat :=
  s.sched.clusters.foldl (fun n e => if clResident e.2 then
    (match getJob s e.2.job with
      | some j => if j.ctx = ctx then n + j.record.energy else n
      | none => n) else n) 0

/-- CAP of PWRCFG, in microjoules (18 R425). -/
def pondCap (s : State) : Nat := bitsOf s.mgmt.pwrcfg.toNat 47 16 * 1000

/-- The energy test (05 R127). -/
def energyOk (s : State) (j : Job) : Bool :=
  !s.mode.getLsbD 6 || j.record.energy = 0
    || ((j.record.energy : Int) ≤ s.mgmt.level
        && (outstanding s j.ctx + j.record.energy) * 1024 ≤ (getCtx s j.ctx).eshare * pondCap s)

/-- Blocks of a context that are resident or saved, but for one cluster. -/
def ctxBlocks (s : State) (ctx : Nat) (but : Option Nat) : Nat :=
  s.sched.clusters.foldl (fun n e =>
    if some e.1 ≠ but && (clResident e.2 || e.2.state = .saved) && (getJob s e.2.job).any fun j => j.ctx = ctx then
      n + e.2.w * e.2.h else n) 0

/-- The quota of cores allows the cluster (04 R87, 05 R123). -/
def coresOk (s : State) (j : Job) (c : Cand) : Bool := ctxBlocks s j.ctx c.cl + j.w * j.h ≤ (getCtx s j.ctx).cores

/-- The rectangle of a candidate that meets all three conditions. -/
def placeable (s : State) (c : Cand) : Option (Nat × Nat) :=
  match getJob s c.job with
  | some j => if energyOk s j && coresOk s j c then findRect s j (coreFree s c.job) else none
  | none => none

/-! ## Pre-emption (05 R130, R131) -/

/-- A cluster stops at its threads' next unit boundaries, to leave its cores (05 R131). -/
def preemptCluster (s : State) (n : Nat) : State :=
  match getCl s n with
  | some cl =>
    if cl.state = .running then
      foldSt (fun s c => modBlk s c fun b => stopThreads { b with stopping := true })
        (modCl s n fun c => { c with state := .preempting }) (clusterCores cl)
    else s
  | none => s

/-- A cluster whose cores a deadline pre-emption may count as free (05 R130). -/
def isVictim (s : State) (j : Job) (cl : Cluster) : Bool :=
  clResident cl && (getJob s cl.job).any fun k =>
    recDeadline j.record < recDeadline k.record && (getCtx s k.ctx).mode.getLsbD 1

/-- The clusters that overlap a list of cores. -/
def overlapping (s : State) (cs : List Nat) : List Nat :=
  (s.sched.clusters.filter fun e => clResident e.2 && (clusterCores e.2).any cs.contains).map Prod.fst

/-- The deadline pre-emption of the first candidate (05 R130): it is refused only for want of a rectangle, and one
would be usable over later clusters. -/
def preemptFor (s : State) : Option State :=
  match (candidates s).head? with
  | none => none
  | some c => match getJob s c.job with
    | none => none
    | some j =>
      let waits := (s.sched.reserve.any fun r => r.1 = c.job)
      if waits || !energyOk s j || !coresOk s j c || (findRect s j (coreFree s c.job)).isSome then none
      else
        let free (k : Nat) : Bool := coreFree s c.job k
          || (!coreReserved s c.job k && !(getCore s k).removed
              && s.sched.clusters.any fun e => clResident e.2 && (clusterCores e.2).contains k && isVictim s j e.2)
        match findRect s j free with
        | none => none
        | some (x, y) =>
          let cs := rectCores x y j.w j.h
          let s := { s with sched := { s.sched with reserve := (c.job, cs) :: s.sched.reserve } }
          some (foldSt preemptCluster s (overlapping s cs))

/-! ## Placement (05 R122 to R126) -/

/-- The core holds the registers of a job's blocks (05 R125). -/
def coreFits (s : State) (h : Header) (c : Nat) : Bool := regsFit h (partWords s c)

/-- Placement acquires at system scope on the dies of a rectangle, and invalidates the instruction caches of its cores
(05 R122, 06 R157). -/
def placeAcquire (s : State) (cs : List Nat) : State :=
  let s := foldSt (fun s c => flashClear s (coreDie c) fun _ => true) s cs
  foldSt (fun s c => modCore s c fun k => { k with icache := [], icacheCtx := none }) s cs

/-- The cores of a placement that passed from another context (04 R93). -/
def toZero (s : State) (ctx : Nat) (cs : List Nat) : List Nat :=
  cs.filter fun c => (getCore s c).lastCtx.any fun x => x ≠ ctx

/-- The cores of a cluster are taken: those that need no zeroing have their block at once (04 R94, 06 R155). -/
def seatCluster (s : State) (n ctx : Nat) (cs : List Nat) : State :=
  let z := toZero s ctx cs
  let s := modCl s n fun c => { c with zeroing := z, banks := cs.map fun k => (k, (getCore s k).banksOut) }
  let s := foldSt (fun s c => modCore s c fun k => { k with zeroing := true }) s z
  foldSt (fun s m => if z.contains (cs.getD m 0) then s else setBlock s n (cs.getD m 0) m) s (List.range cs.length)

/-- A refused register test fails the job; a saved cluster of it, the refused one too, is placed no more (05 R119, R125). -/
def refusePlacement (s : State) (c : Cand) : State := jobSettle (failJob s c.job cLAUNCH_REGS) c.job

/-- Place a candidate at a corner (05 R123, R125, R126). -/
def placeAt (s : State) (c : Cand) (x y : Nat) : State :=
  match getJob s c.job with
  | none => s
  | some j =>
    let cs := rectCores x y j.w j.h
    let s := { s with sched := { s.sched with reserve := s.sched.reserve.filter fun r => r.1 ≠ c.job } }
    if cs.any fun k => !coreFits s j.hdr k then refusePlacement s c
    else
      let s := modCtx s j.ctx fun k => { k with state := if k.state = .open_ then .active else k.state }
      let s := placeAcquire s cs
      match c.cl with
      | some n => seatCluster (modCl s n fun k => { k with x := x, y := y, state := .placing }) n j.ctx cs
      | none =>
        let n := s.sched.nextCluster
        let cl : Cluster := { job := c.job, index := j.nextIndex, x := x, y := y, w := j.w, h := j.h, state := .placing }
        let s := { s with sched := { s.sched with nextCluster := n + 1, clusters := tput n cl s.sched.clusters } }
        let s := modJob s c.job fun k => { k with
          nextIndex := k.nextIndex + 1, state := if k.state = .ready then .running else k.state }
        seatCluster s n j.ctx cs

/-- Post a choice to the placement mailbox (05 R124, 16 R386). -/
def postPlacement (s : State) (c : Cand) : State :=
  match getJob s c.job with
  | none => s
  | some j =>
    let idx := match c.cl with
      | some n => ((getCl s n).map Cluster.index).getD 0
      | none => j.nextIndex
    raiseIrq { s with
      sched := { s.sched with placeReq := some { job := c.job, cluster := c.cl } }
      host := { s.host with placeJob := j.num, placeIndex := BitVec.ofNat 32 idx, placeCores := j.w * j.h } } 1

/-- The candidate has been posted to the placement mailbox: the host places it (04 R91, 05 R124). -/
def postedCand (s : State) (c : Cand) : Bool := s.sched.placeReq.any fun r => r.job = c.job && r.cluster = c.cl

/-- The first candidate that meets the conditions, with its rectangle. -/
def firstPlaceable (s : State) : Option (Cand × Nat × Nat) :=
  (candidates s).findSome? fun c => if postedCand s c then none else (placeable s c).map fun r => (c, r.1, r.2)

/-- An update of the millpond is due (18 R421). -/
def pondDue (s : State) : Bool := (s.mgmt.updates + 1) * 1000 ≤ s.clk.gts.toNat

/-- DISPATCH (05 R123 to R130), after the millpond's update of the microsecond (18 R421). -/
def execDispatch (s : State) : Host.Outcome State Fault Refusal :=
  if pondDue s then .next s else
  match preemptFor s with
  | some s => .next s
  | none => match firstPlaceable s with
    | none => .next s
    | some (c, x, y) =>
      if s.mode.getLsbD 2 then .next (placeAt s c x y)
      else event s s.sched.placeReq.isNone (postPlacement s c)

/-- PLACEMENT_MAILBOX_GO (05 R124): the corner the host returns, or another post. A choice that the quotas no longer allow
is given up (04 R87, 05 R123). -/
def execPlacementMailboxGo (corner : BitVec 8) (s : State) : Host.Outcome State Fault Refusal :=
  match s.sched.placeReq with
  | none => .next s
  | some r =>
    let c : Cand := { job := r.job, cl := r.cluster }
    let t := s
    let s := { s with sched := { s.sched with placeReq := none }, host := { s.host with placeCorner := corner } }
    match getJob s r.job with
    | none => .next s
    | some j =>
      if pondDue s then .next t
      else if !(candidates s).contains c || !coresOk s j c || !energyOk s j then .next s
      else if rectUsable s j.record (coreFree s r.job) (corner.toNat % 16) (corner.toNat / 16) j.w j.h
          && (rectDies (corner.toNat % 16) (corner.toNat / 16) j.w j.h).length ≤ (if recBond j.record || j.hdr.bond then 2 else 1) then
        .next (placeAt s c (corner.toNat % 16) (corner.toNat / 16))
      else .next (postPlacement s c)

/-- CORE_ZEROING_COMPLETE (04 R93, R94). -/
def execCoreZeroingComplete (core : Nat) (s : State) : Host.Outcome State Fault Refusal :=
  match s.sched.clusters.find? fun e => e.2.state = .placing && e.2.zeroing.contains core with
  | some (n, cl) =>
    let s := modCore (zeroCore s core) core fun k => { k with zeroing := false, lastCtx := none }
    let s := modCl s n fun c => { c with zeroing := c.zeroing.filter (· ≠ core) }
    .next (setBlock s n core ((clusterCores cl).idxOf core))
  | none => .next s

/-- The budget a placement or a resume loads; 0 means unlimited (05 R128). -/
def loadBudget (j : Job) : Option Nat := if j.record.budget = 0 then none else some j.record.budget.toNat

/-- A split that was stopped in a WAITJ waits again with its full timeout (07 R184), and one in a WAITW compares again
(05 R145). -/
def waitAgain (x : Split) : Split :=
  match x.wait with
  | .waitj _ _ => { x with wait := .none }
  | .waitw _ => { x with wait := .none }
  | _ => x

/-- The threads of a block that a stop held go on (07 R163). -/
def goOn (b : Block) : Block :=
  let fe := { b.fe with stopped := false }
  { b with
    stopping := false
    fe := match b.fe.wait with
      | .waitw _ => if b.fe.stopped then { fe with wait := .none } else fe
      | _ => fe
    groups := b.groups.map fun e => (e.1,
      if e.2.stopped then { e.2 with stopped := false, splits := e.2.splits.map fun x => (x.1, waitAgain x.2) } else e.2) }

/-- The threads of a core's block that a stop held go on; a comparison of a stopped thread is given up, since it is made
again (07 R163, 05 R145). -/
def goOnAt (s : State) (core : Nat) : State :=
  match getBlk s core with
  | none => s
  | some b =>
    let s := if b.fe.stopped then forgetWaits s ⟨core, .fe⟩ else s
    let s := foldSt (fun s e => if e.2.stopped then forgetWaits s ⟨core, .grp e.1⟩ else s) s b.groups
    modBlk s core goOn

/-- The threads of a launched block are released, unless a debug stop holds the cluster (05 R131, 17 R413). -/
def launchBlock (s : State) (held : Bool) (b : Block) : Block :=
  { b with
    launched := true, stopping := held
    fe := { b.fe with stopped := held && b.fe.run ≠ .exited && b.fe.run ≠ .killed }
    groups := b.groups.map fun e => (e.1, { e.2 with
      stopped := held && e.2.run ≠ .exited && e.2.run ≠ .killed, age := if b.saves = 0 then s.clk.cycle else e.2.age }) }

/-- A cluster that has been launched is pre-empted at once: its context is being suspended, a die of it was taken from
admission while it was set up, or a deadline pre-emption has reserved its cores (04 R89, 05 R130, 16 R401). -/
def mustLeave (s : State) (ctx : Nat) (c : Cluster) : Bool :=
  (getCtx s ctx).state = .suspending || ((clusterCores c).any fun k => !dieAdmitted s (coreDie k))
    || (clusterCores c).any (coreReserved s c.job)

/-- CLUSTER_LAUNCH (06 R156). -/
def execClusterLaunch (cl : Nat) (s : State) : Host.Outcome State Fault Refusal :=
  match getCl s cl with
  | some c => match getJob s c.job with
    | some j => event s (c.state = .placing && c.zeroing.isEmpty)
        (let held := c.stopped || (getCtx s j.ctx).state = .faulted
        let t := foldSt (fun t k => modBlk t k (launchBlock s held))
          (modCl s cl fun c => { c with
            state := .running, saved := [], parked := false, woken := false, budget := loadBudget j }) (clusterCores c)
        if mustLeave s j.ctx c then preemptCluster t cl else t)
    | none => .next s
  | none => .next s

/-! ## Leaving the cores -/

/-- The operation reads an object for a wait on a phase (14 R357). -/
def isPhaseRead : BarOp → Bool
  | .read _ _ _ _ => true
  | _ => false

/-- A thread waits as a parked block's may (05 R138). -/
def parkedWait (s : State) : Wait → Bool
  | .waitw _ => true
  | .dqpop _ _ _ => true
  | .barrier _ _ _ _ _ => true
  | .barrierReply i => s.flight.bars.any fun r => r.id = i && isPhaseRead r.op
  | _ => false

/-- The block is parked: its front-end waits in WAITW and every live group in WAITW, DQPOP or a barrier wait (05
R138). -/
def blockParked (s : State) (b : Block) : Bool :=
  (match b.fe.wait with
    | .waitw _ => true
    | _ => false)
  && b.groups.all fun e => e.2.run = .exited || e.2.run = .killed
      || (e.2.run ≠ .faulted && e.2.splits.all fun x => parkedWait s x.2.wait)

/-- A WAITW of the block is no longer registered: a wake has reached it, or its comparison has still to be made (05 R137,
R138). -/
def blockWoken (s : State) (b : Block) : Bool :=
  let woke (w : Wait) : Bool := match w with
    | .waitw i => !s.dies.any fun d => d.2.waiters.any fun x => x.id = i
    | _ => false
  woke b.fe.wait || b.groups.any fun e => e.2.splits.any fun x => woke x.2.wait

/-- A wait that a save keeps in its place; the others begin again, as does a WAITW whose comparison is still under way (07 R163,
05 R138, R145). -/
def keptWait (s : State) (parked : Bool) : Wait → Bool
  | .fullEmpty _ => false
  | .waitj _ _ => false
  | .waitw i => parked && !s.flight.global.any fun r => r.id = i
  | _ => true

/-- A split or front-end as a save keeps it. -/
def saveSplit (s : State) (parked : Bool) (x : Split) : Split :=
  { x with held := 0, wait := if keptWait s parked x.wait then x.wait else .none }

/-- A barrier wait read at another core that has not ended (14 R352). -/
def barPending (r : BarReq) : Bool :=
  isPhaseRead r.op && r.read && r.reply.isNone

/-- What a thread's wait may be when its block leaves: the others come to their end first. -/
def saveableWait (s : State) : Wait → Bool
  | .none => true
  | .fullEmpty _ => true
  | .barrier _ _ _ _ _ => true
  | .dqpop _ _ _ => true
  | .waitw _ => true
  | .waitj _ _ => true
  | .barrierReply i => s.flight.bars.any fun r => r.id = i && barPending r
  | _ => false

/-- A load waits for granules to fill, and begins again after a save (07 R163). -/
def waitsFull (s : State) (e : PoolInst) : Bool :=
  e.acks = 0 && e.left ≠ 0 && s.flight.pool.any fun r => r.inst = e.id && r.arrived

/-- Every global access, copy, batch and transfer of a core has ended, and so has what its threads have under way: matched
messages, releases and claims of multicast ids, credits, page migrations, and records of watchpoints (05 R131). -/
def coreQuiet (s : State) (core : Nat) : Bool :=
  match getBlk s core with
  | none => true
  | some b =>
    let mine (t : Thread) : Bool := t.core = core
    !s.flight.global.any (fun r => mine r.thread && !isCompare r.op)
      && b.copy.cmds.isEmpty && b.mma.isEmpty && b.xfers.isEmpty && b.groups.all (fun e => e.2.closed.isEmpty)
      && !s.flight.pool.any (fun r => (mine r.src || r.dst = core) && !r.arrived)
      && !s.flight.poolInsts.any (fun e => mine e.src && !waitsFull s e)
      && !s.flight.services.any (fun r => mine r.src)
      && !s.flight.bars.any (fun r => (mine r.src && !barPending r) || (r.dst = core && r.reply.isNone && !r.read))
      && !s.flight.atgs.any (fun r => mine r.src) && !s.flight.scans.any (fun r => mine r.thread)
      && !s.flight.barMsgs.any (fun m => m.cluster = b.cluster)
      && !s.flight.msgs.any (fun m => (m.hdr.srcDev = s.host.devnum && m.hdr.srcCore = core && 1 ≤ m.stage && m.stage ≤ 3)
          || ((m.stage = 1 || m.stage = 2) && m.dstCore = core))
      && !s.flight.mcids.any (fun m => m.src = core || m.core = core) && !s.flight.credits.any (fun m => m.src = core || m.core = core)
      && b.hits.isEmpty && !s.pages.queue.any (fun m => match m.by_ with
        | .pgmig k cl _ _ => k = core && cl = b.cluster
        | _ => false)
      && !s.sched.jobs.any (fun e => e.2.state = .spawning && e.2.src.any mine)
      && saveableWait s b.fe.wait && b.groups.all fun e => e.2.splits.all fun x => saveableWait s x.2.wait

/-- Forget what a core's threads still have under way: waits that begin again, walks, comparisons. -/
def purgeCore (s : State) (core : Nat) (keepRegs : Bool) : State :=
  let mine (t : Thread) : Bool := t.core = core
  let s := modFlight s fun f => { f with
    pool := f.pool.filter fun r => !mine r.src
    poolInsts := f.poolInsts.filter fun e => !mine e.src
    global := f.global.filter fun r => !(mine r.thread && isCompare r.op)
    walks := f.walks.filter fun w => !(w.core = core && w.keep)
    bars := f.bars.filter fun r => !mine r.src
    services := f.services.filter fun r => !mine r.src
    atgs := f.atgs.filter fun r => !mine r.src
    scans := f.scans.filter fun r => !mine r.thread
    reads := f.reads.filter fun r => r.core ≠ core
    mcids := f.mcids.filter fun m => m.core ≠ core
    stops := f.stops.filter fun m => m.core ≠ core }
  if keepRegs then s
  else { s with dies := s.dies.map fun d => (d.1, { d.2 with waiters := d.2.waiters.filter fun w => !mine w.thread }) }

/-- A step of a block that leaves its core ends without its record (17 R414, log entry 153). -/
def stepGone (s : State) (core : Nat) : State :=
  if (getBlk s core).any fun b => b.stepping.isSome then { s with dbg := { s.dbg with status := 3 } } else s

/-- A core is given up: the watchpoint hits of this cycle are recorded, then there is no block, and its last owner is
remembered; a core to be removed leaves placement (01 R12, 17 R410, 18 R426). -/
def freeCore (s : State) (core : Nat) : State :=
  modCore (stepGone (flushHits s core) core) core fun k => { k with
    lastCtx := (k.block.map Block.ctx).orElse fun _ => k.lastCtx, block := none
    removed := k.removed || k.removeAtRetire, removeAtRetire := false
    sends := [], recvs := [], overflow := [] }

/-- The cores of a cluster where every thread has stopped and nothing is under way. -/
def clusterQuiet (s : State) (cl : Cluster) : Bool :=
  cl.draining.isEmpty && (clusterCores cl).all fun c => coreQuiet s c && (getBlk s c).any allStopped

/-- Every front-end stands in the idempotent entry through whose start it last passed (05 R132, 06 R159). -/
def discardable (s : State) (cl : Cluster) : Bool :=
  (getJob s cl.job).any (fun j => recIdem j.record) && (clusterCores cl).all fun c => (getBlk s c).any fun b =>
    match b.fe.idem with
    | some i => (b.hdr.idem[i]?).any fun e => e.1.toNat ≤ b.fe.pc.toNat && b.fe.pc.toNat < e.2.toNat
    | none => false

/-- What is kept of a core's block. -/
def keepCore (s : State) (core : Nat) (parked : Bool) (frame : Option Nat) (sends : List SendEntry) (b : Block) : SavedCore :=
  let k := getCore s core
  let b := { b with
    launched := false, stopping := false, saves := b.saves + 1
    watchNow := b.watch, trigNow := b.trig, causes := [], sampleDue := false, stepping := none
    fe := { b.fe with held := 0, wait := if keptWait s parked b.fe.wait then b.fe.wait else .none }
    groups := b.groups.map fun e => (e.1, { e.2 with
      run := if e.2.run = .active then .ready else e.2.run
      splits := e.2.splits.map fun x => (x.1, saveSplit s parked x.2) }) }
  let slots := k.slots.map fun e => (e.1, if e.2.state = 5 then { e.2 with state := 0, header := 0 } else e.2)
  let member (r : BarReq) : Nat := ((coreCluster s core).map fun cl => (clusterCores cl).idxOf r.dst).getD 0
  let keep (r : BarReq) : BarReq := match r.op with
    | .read _ _ _ true => { r with dst := member r }
    | _ => r
  { member := b.member, block := b, pool := k.pool, full := k.full, slots := slots, tiles := k.tiles, sends := sends
    bars := (s.flight.bars.filter fun r => r.src.core = core).map keep, frame := frame }

/-- The lowest save slots of a context that no saved block holds (05 R131). -/
def freeSlots (s : State) (ctx n : Nat) : List Nat :=
  let used := s.sched.clusters.flatMap fun e =>
    e.2.saved.filterMap fun k => if k.block.ctx = ctx then k.frame else none
  ((List.range (used.length + n)).filter fun i => !used.contains i).take n

/-- Where a frame lies. -/
def frameAddr (s : State) (ctx slot : Nat) : Nat := (getCtx s ctx).savebase.toNat + frameSize * slot

/-- Write the frame of a core's block, if it holds one, or answer the code of a frame that cannot be written
(05 R131, 04 R90). -/
def writeFrame (s : State) (ctx core slot : Nat) : State × Option Byte :=
  match getBlk s core with
  | none => (s, none)
  | some b =>
    let va := frameAddr s ctx slot
    match devWriteCode s ctx va frameSize with
    | (s, some c) => (s, some c)
    | (s, none) => ((devWrite (frameTaken s) ctx va (frameBytes s core (savedForm s b))).1, none)

/-- Write the frames of a cluster's blocks; the code of the first that cannot be written, and its core. -/
def writeFrames (s : State) (ctx : Nat) : List (Nat × Nat) → State × Option (Byte × Nat)
  | [] => (s, none)
  | (core, slot) :: r => match writeFrame s ctx core slot with
    | (s, none) => writeFrames s ctx r
    | (s, some c) => (s, some (c, core))

/-- The context enters FAULTED: its blocks stop at their next unit boundaries and stay resident (04 R89). One that is being
suspended goes on with that (log entry 130). -/
def ctxFaulted (s : State) (ctx : Nat) : State :=
  if (getCtx s ctx).state = .open_ || (getCtx s ctx).state = .active then
    foldSt (fun s e => match e.2.block with
      | some b => if b.ctx = ctx then modBlk s e.1 fun b => stopThreads { b with stopping := true } else s
      | none => s) (modCtx s ctx fun c => { c with state := .faulted }) s.cores
  else s

/-- A frame could not be written: the cluster stays, stopped; a kind-J record that is delivered as an undeliverable one is
(04 R99), and the context is FAULTED, which ends a SUSPEND under way (04 R90). -/
def saveFailed (s : State) (core : Nat) (b : Block) (code : Byte) : State :=
  let c := if code = cPERMISSION then cPERMISSION else cTRANSLATION
  let s := queueRecord s b.ctx { blockRecord s core b .fe c 3 with thread := none, fromService := true }
  let s := modCl s b.cluster fun k => { k with state := .running }
  let s := { s with sched := { s.sched with reserve := s.sched.reserve.filter fun r => !r.2.contains core } }
  let s := if (getCtx s b.ctx).state = .suspending then
      modCtx { s with host := { s.host with ctxStatus := 3 } } b.ctx fun k => { k with state := .active } else s
  ctxFaulted s b.ctx

/-- The flags that loads which begin again have raised fall again: each is counted anew as it issues (07 R172). -/
def dropWaitFlags (s : State) (core : Nat) : State :=
  foldSt (fun s e => if e.src.core = core then dropFlag s e.src e.flag else s) s s.flight.poolInsts

/-- One core of a cluster leaves. -/
def leaveCore (s : State) (parked : Bool) (core : Nat) (frame : Option Nat) : State × List SavedCore :=
  let s := dropWaitFlags s core
  match getBlk s core with
  | none => (s, [])
  | some b =>
    let (t, sends) := withdraw s core
    (freeCore (purgeCore t core (parked && frame.isSome)) core, [keepCore s core parked frame sends b])

/-- The cores of a cluster leave, with their frames. -/
def leaveCores (s : State) (parked : Bool) : List (Nat × Option Nat) → State × List SavedCore
  | [] => (s, [])
  | (c, f) :: r =>
    let (s, a) := leaveCore s parked c f
    let (s, b) := leaveCores s parked r
    (s, a ++ b)

/-- CLUSTER_SAVE (05 R131). -/
def execClusterSave (cl : Nat) (s : State) : Host.Outcome State Fault Refusal :=
  match getCl s cl with
  | none => .next s
  | some c =>
    let cs := clusterCores c
    let ctx := ((cs.head?.bind (getBlk s)).map Block.ctx).getD 0
    let slots := freeSlots s ctx cs.length
    let at_ := cs.zip slots
    let parked := cs.all fun k => (getBlk s k).any fun b => blockParked s b || b.retired
    let woken := cs.any fun k => (getBlk s k).any (blockWoken s)
    event s (c.state = .preempting && clusterQuiet s c && !discardable s c && (getCtx s ctx).state ≠ .faulted)
      (match writeFrames s ctx at_ with
      | (s, some (code, core)) => match getBlk s core with
        | some b => saveFailed s core b code
        | none => s
      | (s, none) =>
        let (s, kept) := leaveCores s parked (at_.map fun e => (e.1, some e.2))
        let s := modCl s cl fun c => { c with state := .saved, saved := kept, parked := parked, woken := woken, draining := [] }
        ctxIdle (jobSettle s c.job) ctx)

/-- IDEMPOTENT_DISCARD (05 R132). -/
def execIdempotentDiscard (cl : Nat) (s : State) : Host.Outcome State Fault Refusal :=
  match getCl s cl with
  | none => .next s
  | some c =>
    let cs := clusterCores c
    let ctx := ((cs.head?.bind (getBlk s)).map Block.ctx).getD 0
    event s (c.state = .preempting && clusterQuiet s c && discardable s c && (getCtx s ctx).state ≠ .faulted)
      (let (s, kept) := leaveCores s false (cs.map fun k => (k, none))
      let s := modCl s cl fun c => { c with state := .discarded, saved := kept, parked := false, woken := false, draining := [] }
      ctxIdle (jobSettle s c.job) ctx)

/-- BUDGET_EXHAUSTED (05 R129). A cluster that is being pre-empted already as its counter reaches zero has no record of it (log
entry 144). -/
def execBudgetExhausted (cl : Nat) (s : State) : Host.Outcome State Fault Refusal :=
  match getCl s cl with
  | none => .next s
  | some c => event s (c.state = .running && c.budget = some 0)
      (let core := memberCore c 0
      let s := match getBlk s core with
        | some b => queueRecord s b.ctx { blockRecord s core b .fe cBUDGET 3 with thread := none }
        | none => s
      preemptCluster s cl)

/-! ## The profile buffer (06 R161, 04 R90) -/

/-- Read a number of the control area. -/
def profRead (s : State) (ctx off n : Nat) : State × Option Nat :=
  match devRead s ctx ((getCtx s ctx).profbase.toNat + off) n with
  | (s, .inl b) => (s, some (bytesNat b))
  | (s, .inr _) => (s, none)

/-- Write the control area, if it can be. -/
def profWrite (s : State) (ctx off n v : Nat) : State :=
  (devWrite s ctx ((getCtx s ctx).profbase.toNat + off) (natBytes n v)).1

/-- Count a record that was dropped. -/
def profDrop (s : State) (ctx : Nat) : State :=
  match profRead s ctx 8 4 with
  | (s, some d) => profWrite s ctx 8 4 (min (d + 1) 0xFFFFFFFF)
  | (s, none) => s

/-- Append a record under the reservation rule, with release at system scope (06 R161). A record whose bytes cannot be written
is dropped and leaves NEXT; one whose NEXT can be read and not written stays written (log entry 145). -/
def profAppend (s : State) (core ctx : Nat) (bytes : List Byte) : State :=
  let c := getCtx s ctx
  if c.profbase = 0 || c.profsize = 0 then s
  else match profRead s ctx 0 8 with
    | (s, none) => s
    | (s, some next) =>
      if c.profsize.toNat < 64 + next + bytes.length then profDrop s ctx
      else match devStoreRel s [coreDie core] ctx (c.profbase.toNat + 64 + next) bytes with
        | (s, true) => profWrite s ctx 0 8 (next + bytes.length)
        | (s, false) => profDrop s ctx

/-- The groups that were killed, as a mask. -/
def killedMask (b : Block) : DWord := maskOf 64 ((b.groups.filter fun e => e.2.wasKilled).map Prod.fst)

/-- A block record (06 R161). -/
def blockRecordBytes (s : State) (core : Nat) (b : Block) : List Byte :=
  natBytes 4 (64 + 4 * b.hdr.barriers + 64 * b.hdr.groups) ++ natBytes 4 b.job
    ++ natBytes 4 (((getCl s b.cluster).map Cluster.index).getD 0)
    ++ [BitVec.ofNat 8 b.member, BitVec.ofNat 8 core, BitVec.ofNat 8 b.hdr.groups, if b.killed then 1 else 0]
    ++ natBytes 8 b.firstGts.toNat ++ natBytes 8 s.clk.gts.toNat ++ natBytes 8 b.resident
    ++ natBytes 8 (killedMask b).toNat ++ natBytes 4 b.saves ++ natBytes 12 0
    ++ ((List.range b.hdr.barriers).flatMap fun i => natBytes 4 (tgetD {} i b.barriers).phase.toNat)
    ++ ((List.range b.hdr.groups).flatMap fun g => stallBytes (((tfind g b.groups).map Group.stalls).getD []))

/-! ## Retirement (06 R160) -/

/-- The block's threads have ended. -/
def threadsDone (b : Block) : Bool :=
  (b.fe.run = .exited || b.fe.run = .killed) && b.groups.all fun e => e.2.run = .exited || e.2.run = .killed

/-- Every global store and atomic of the block, and every copy command and batch, has ended (06 R160); and no pool
access, transfer, spawn or send is under way for it. -/
def blockDone (s : State) (core : Nat) (b : Block) : Bool :=
  threadsDone b && b.launched && !b.retired
    && !s.flight.global.any (fun r => r.thread.core = core)
    && b.copy.cmds.isEmpty && b.mma.isEmpty && b.xfers.isEmpty && b.groups.all (fun e => e.2.closed.isEmpty)
    && !s.flight.poolInsts.any (fun e => e.src.core = core)
    && !s.sched.jobs.any (fun e => e.2.state = .spawning && e.2.src.any fun t => t.core = core)

/-- The cluster's cores are released together, when its last block has retired (06 R160). -/
def releaseCluster (s : State) (n : Nat) (cl : Cluster) : State :=
  let ctx := (((clusterCores cl).head?.bind (getBlk s)).map Block.ctx).getD 0
  let s := foldSt (fun s c => freeCore (purgeCore (withdraw s c).1 c false) c) s (clusterCores cl)
  let s := modFlight s fun f => { f with barMsgs := f.barMsgs.filter fun m => m.cluster ≠ n }
  let s := { s with sched := { s.sched with clusters := tdel n s.sched.clusters } }
  ctxIdle (jobSettle s cl.job) ctx

/-- BLOCK_RETIRE (06 R160, R161, 05 R119, R122). -/
def execBlockRetire (core : Nat) (s : State) : Host.Outcome State Fault Refusal :=
  match getBlk s core with
  | none => .next s
  | some b =>
    event s (blockDone s core b && (getCtx s b.ctx).state ≠ .closing)
      (let s := profAppend (settleReturns s) core b.ctx (blockRecordBytes s core b)
      let s := modBlk s core fun b => { b with retired := true }
      match getCl s b.cluster with
      | some cl =>
        if (clusterCores cl).all fun c => (getBlk s c).all Block.retired then releaseCluster s b.cluster cl else s
      | none => s)

end Sys2Proof.Machine
end

