-- ==== Sys2Proof/Machine/Queues.lean ====
section
/-! DEFINITION. Hardware queues and acceptance (05 R116 to R118), wake words (05 R136, R137), and the job instructions
(05 R141 to R146). -/
namespace Sys2Proof.Machine

/-! ## Hardware queues (05 R116 to R118) -/

/-- SUBMIT (05 R116, R117). -/
def execQueueSubmit (q : BitVec 6) (addr : BitVec 64) (s : State) : Host.Outcome State Fault Refusal :=
  .next (modQueue s q.toNat fun k =>
    if k.state = .free || 256 ≤ k.fifo.length then { k with drops := min 0xFFFF (k.drops + 1) }
    else { k with fifo := k.fifo ++ [addr &&& ~~~ 0xFF] })

/-- PAUSE (05 R117): a FREE queue only keeps the bit, which an OPEN of its context clears. -/
def execQueuePause (q : BitVec 6) (s : State) : Host.Outcome State Fault Refusal :=
  .next (modQueue s q.toNat fun k => { k with pause := true, state := if k.state = .open_ then .paused else k.state })

/-- UNPAUSE (05 R117). -/
def execQueueUnpause (q : BitVec 6) (s : State) : Host.Outcome State Fault Refusal :=
  .next (modQueue s q.toNat fun k => { k with pause := false, state := if k.state = .paused then .open_ else k.state })

/-- FLUSH (05 R117): the queue's context may be OPEN again (04 R89). -/
def execQueueFlush (q : BitVec 6) (s : State) : Host.Outcome State Fault Refusal :=
  let k := getQueue s q.toNat
  .next (if k.state = .free then s else ctxIdle (modQueue s q.toNat fun k => { k with fifo := [] }) k.owner)

/-- The sluice has an entry for one more record of a context, those already drawn apart (05 R118). -/
def drawRoom (s : State) (ctx : Nat) : Bool :=
  entriesHeld s + entriesDue s (fun _ => true) < 1024
    && ctxEntries s ctx + entriesDue s (fun c => c = ctx) < (getCtx s ctx).jobs

/-- The queue may be drawn now (05 R118). -/
def drawable (s : State) (q : Nat) : Bool :=
  let k := getQueue s q
  k.state = .open_ && !k.fifo.isEmpty && (getCtx s k.owner).state ≠ .closing && drawRoom s k.owner

/-- The queue drawn next, round-robin after the last (05 R118). -/
def nextQueue (s : State) : Option Nat :=
  ((List.range 64).map fun i => (s.sched.lastDrawn + 1 + i) % 64).find? (drawable s)

/-- ACCEPTANCE_DRAW (05 R118). -/
def execAcceptanceDraw (s : State) : Host.Outcome State Fault Refusal :=
  match nextQueue s with
  | none => .next s
  | some q =>
    let k := getQueue s q
    match k.fifo with
    | [] => .next s
    | a :: r =>
      let s := modQueue s q fun k => { k with fifo := r }
      .next (newRoot { s with sched := { s.sched with lastDrawn := q } } k.owner q a none)

/-! ## JENQ and JSPAWN (05 R142) -/

/-- JENQ (05 R142). -/
def execJenq (p : BitVec 3) (a b q : BitVec 6) (s : State) : Host.Outcome State Fault Refusal :=
  sharedInstr s true [(a.toNat, 2), (b.toNat, 1)] [a.toNat, b.toNat] false false anyOne (.dest p) fun i =>
    let k := getQueue s q.toNat
    let ctx := (issBlk i).ctx
    if k.state = .free || k.owner ≠ ctx then .fault { code := cPERMISSION }
    else if !sluiceRoom s ctx || k.state = .paused then .retire (putDest s i p.toNat false)
    else
      let n := s.sched.nextJob
      let t := newRoot s ctx q.toNat (opWide i a.toNat) (some (issThread i))
      .retire (putDest (putWord t i b.toNat n) i p.toNat true)

/-- What a JSPAWN writes when its weight test has been made. -/
def spawnDest (i : Iss) (p b : Nat) : SpawnDest :=
  match i with
  | .grp c => { reg := physReg c.spl b, pred := p, split := c.k, lanes := c.spl.lanes }
  | .fe _ => { reg := b, pred := p, split := 0, lanes := 0 }

/-- JSPAWN (05 R142): it takes an entry and leaves its weight test pending. -/
def execJspawn (p : BitVec 3) (a b : BitVec 6) (s : State) : Host.Outcome State Fault Refusal :=
  sharedInstr s false [(a.toNat, 2), (b.toNat, 1)] [a.toNat, b.toNat] false false anyOne (.dest p) fun i =>
    let me := issBlk i
    if (spawnOf s (issThread i)).isSome then .hold 2
    else
      let w := ((getJob s me.job).map Job.weight).getD 0
      if !sluiceRoom s me.ctx || w = 0 then .retire (putDest s i p.toNat false)
      else
        let j : Job :=
          { num := 0, ctx := me.ctx, queue := (getJob s me.job).bind Job.queue, recAddr := opWide i a.toNat &&& ~~~ 0xFF
            state := .spawning, root := ((getJob s me.job).map Job.root).getD me.job, parent := me.job
            src := some (issThread i), after := nextId s, spawn := some (spawnDest i p.toNat b.toNat) }
        .retire (bumpId (putJob s (2 ^ 32 + nextId s) j))

/-- Write the result of a weight test: the predicate, and the job number on success (05 R142). -/
def writeSpawn (s : State) (t : Thread) (d : SpawnDest) (num : Option Word) : State :=
  match t.who with
  | .fe =>
    let s := writeFpred s t.core d.pred num.isSome
    match num with
    | some n => writeS s t.core d.reg (n.zeroExtend 64)
    | none => s
  | .grp g =>
    let s := writePred s t.core g d.pred d.lanes (if num.isSome then d.lanes else 0)
    let s := modSpl s t.core g d.split fun x => { x with uniform := if d.pred = 0 then x.uniform else putBit x.uniform d.pred false }
    match num, getBlk s t.core with
    | some n, some b => modGrp s t.core g fun r => { r with regs := putReg b.hdr r.regs d.reg (lanesOf d.lanes) fun _ => n }
    | _, _ => s

/-- The weight test of a spawn whose record has been read (05 R142). A record that cannot be read gives no share: half
the caller's weight is taken (log entry 28). -/
def resolveSpawn (s : State) (key : Nat) (j : Job) (t : Thread) (d : SpawnDest) : State :=
  let s := fetchRecord (acquireFor s j) key
  let w := ((getJob s j.parent).map Job.weight).getD 0
  let share := ((getJob s key).map fun k => k.record.twshare).getD 0
  let x := if share = 0 then w / 2 else share
  if x < 1 || w < x + 1 then
    writeSpawn { s with sched := { s.sched with jobs := tdel key s.sched.jobs } } t d none
  else
    let n := s.sched.nextJob
    match getJob s key with
    | none => s
    | some k =>
      let s := modJob s j.parent fun y => { y with weight := y.weight - x }
      let s := { s with sched := { s.sched with jobs := tdel key s.sched.jobs } }
      let s := takeNumber (putJob s n.toNat { k with num := n, state := .accepting, weight := x, spawn := none })
      writeSpawn s t d (some n)

/-- JSPAWN_RESOLVE (05 R142). -/
def execJspawnResolve (job : Nat) (s : State) : Host.Outcome State Fault Refusal :=
  match getJob s job with
  | none => .next s
  | some j => match j.src, j.spawn with
    | some t, some d => event s (j.state = .spawning && storesBefore s t j.after) (resolveSpawn s job j t d)
    | _, _ => .next s

/-! ## JDONE, JYIELD, JSELF (05 R143, R144, R146) -/

/-- JDONE (05 R143): the weight leaves the job at once, and returns (settleReturns) when the thread's
stores have been acknowledged. -/
def execJdone (g : BitVec 3) (a : BitVec 6) (s : State) : Host.Outcome State Fault Refusal :=
  sharedInstr s false [(a.toNat, 1)] [a.toNat] false false anyOne (.guard g) fun i =>
    if (spawnOf s (issThread i)).isSome then .hold 2
    else
      let n := (issBlk i).job
      let w := ((getJob s n).map Job.weight).getD 0
      let v := (opWord i a.toNat).toNat
      let amt := if v = 0 then w else min v w
      if amt = 0 then .retire s
      else
        .retire (modJob s n fun j => { j with
          weight := j.weight - amt, returns := j.returns ++ [(amt, issThread i, nextId s)] })

/-- JYIELD (05 R144). -/
def execJyield (g : BitVec 3) (s : State) : Host.Outcome State Fault Refusal :=
  sharedInstr s false [] [] false false anyOne (.guard g) fun i =>
    .retire (match getJob s (issBlk i).job with
      | some j => modCl s (issBlk i).cluster fun c => { c with budget := loadBudget j }
      | none => s)

/-- The value of JSELF (05 R146). -/
def jselfValue (s : State) (b : Block) (sel : Nat) : DWord :=
  let job (f : Job → Nat) : Nat := ((getJob s b.job).map f).getD 0
  match sel with
  | 0 => BitVec.ofNat 32 (((getCl s b.cluster).map Cluster.index).getD 0) ++ BitVec.ofNat 32 b.job
  | 1 => BitVec.ofNat 64 (job Job.weight)
  | 2 => BitVec.ofNat 64 (job fun j => j.record.deadline.toNat)
  | _ => BitVec.ofNat 32 (job Job.parent) ++ BitVec.ofNat 32 (job Job.root)

/-- JSELF (05 R146). -/
def execJself (g : BitVec 3) (d : BitVec 6) (h : BitVec 1) (k : BitVec 4) (s : State) : Host.Outcome State Fault Refusal :=
  sharedInstr s true [(d.toNat, 1)] [d.toNat] (3 < k.toNat) false anyOne (.guard g) fun i =>
    let v := jselfValue s (issBlk i) k.toNat
    .retire (match i with
      | .grp _ => putWord s i d.toNat (halfOf (h = 1) v)
      | .fe _ => putWide s i d.toNat v)

/-! ## WAITW (05 R137, R145) -/

/-- A group that waits in WAITW leaves the active set at once (05 R145). -/
def leaveSet (s : State) (i : Iss) : State :=
  match i with
  | .grp c => modGrp s c.core c.g fun r => { r with run := .waiting }
  | .fe _ => s

/-- WAITW (05 R145). -/
def execWaitw (g : BitVec 3) (a b : BitVec 6) (s : State) : Host.Outcome State Fault Refusal :=
  sharedInstr s false [(a.toNat, 2), (b.toNat, 2)] [a.toNat, b.toNat] false false anyOne (.guard g) fun i =>
    let va := opWide i a.toNat
    let id := nextId s
    let r : GlobalReq :=
      { id := id, inst := id, thread := issThread i, split := issSplit i, die := coreDie (issCore i)
        ctx := (issBlk i).ctx, pc := issPc i, va := va.toNat, op := .waitw (opWide i b.toNat) }
    if !aligned va.toNat 8 then .fault { code := cMISALIGN, addr := va }
    else heldBy (sendHolds s i false) <|
      let t := issueReq (bumpId s) r
      match (getReq t id).map GlobalReq.stage with
      | some (.faulted c) => .fault { code := c, addr := va }
      | _ => .wait (leaveSet (startWait t i (.waitw id)) i)

/-- The words of a comparison cannot be compared: owner-lost or uncorrectable (10 R268, 18 R428). -/
def compareBad (s : State) (p : Word) (a : Nat) : Option Byte :=
  if placeRemote p then none
  else if (regWord s p a).lost || (regWord s p (a + 4)).lost then some cOWNER_LOST
  else if badAt s p a 4 || badAt s p (a + 4) 4 then some cDATA_UNCORRECTABLE else none

/-- The waiters a slice holds. -/
def sliceWaiters (s : State) (p : Word) (a : Nat) : Nat :=
  ((getDie s (homeDie p a)).waiters.filter fun w => homeSlice (keyAddr w.key) = homeSlice a).length

/-- The comparison is made: the waiter is registered if the word equals the expected value and the slice has room, and
returns otherwise, once the drains that its acquire orders are acknowledged (05 R137, 10 R253, R262). -/
def compareWord (s : State) (r : GlobalReq) (e : DWord) : State :=
  let p := reqPlace r
  let a := reqAddr r
  match compareBad s p a with
  | some c => waitwRaise s r c
  | none =>
    let m := homeValue s p a 8
    let s := dropReq (if placeTier p = 3 then bumpFree s else s) r.id
    if m = e && sliceWaiters s p a < 256 then
      modDie s (homeDie p a) fun d => { d with waiters := d.waiters ++
        [{ ctx := r.ctx, key := lineKey p a, word := a % 128 / 4, thread := r.thread, split := r.split, id := r.id }] }
    else if placeRemote p then s
    else serveMarks s r.id r.die p [a, a + 4]

/-- WAITW_COMPARE (05 R137, R145). -/
def execWaitwCompare (id : Nat) (s : State) : Host.Outcome State Fault Refusal :=
  match getReq s id with
  | none => .next s
  | some r => match r.op with
    | .waitw e => event s (atHomeNow s r) (match homeCode s r.die (reqPlace r) (reqAddr r) with
        | some c => waitwRaise s r c
        | none =>
          if (recallFirst s r).isEmpty then compareWord s r e
          else orderRecalls s id (reqPlace r) (lineBase r) (recallFirst s r))
    | _ => .next s

/-- What the far side answers to an MWAKE on the peer tier: 0 an acknowledgement, or a code (16 R398, log entry 4). -/
def farAnswer (v : DWord) : Byte := if !v.getLsbD 0 then 0 else if v.getLsbD 1 then cPERMISSION else cHOME_DOWN

/-- The write of a wake has reached its home. -/
def performWake (s : State) (r : GlobalReq) : State :=
  let s := match r.op with
    | .relWake q => performRelease (againRelease s r q).1 (againRelease s r q).2 q
    | _ => performStore s r
  if (getReq s r.id).any fun q => q.stage = .performed then wakeWord s (reqPlace r) (reqAddr r) else s

/-- A wake of an MWAKE with REL waits for its thread's release (16 R398). -/
def wakeReleased (s : State) (r : GlobalReq) : Bool :=
  match r.op with
  | .relWake _ =>
    if r.send.isSome then sendReleases s r.thread r.id
    else r.again.isNone || (storesBefore s r.thread r.id && poolPerformed s r.thread)
  | _ => true

/-- WAKE_WRITE_PERFORM (05 R136, 11 R284, 16 R398). -/
def execWakeWritePerform (id : Nat) (s : State) : Host.Outcome State Fault Refusal :=
  match getReq s id with
  | none => .next s
  | some r =>
    let isWake : Bool := match r.op with
      | .wake => true
      | .relWake _ => true
      | _ => false
    event s (isWake && atHomeNow s r && wakeReleased s r) (match homeCode s r.die (reqPlace r) (reqAddr r) with
      | some c => modReq s id fun r => { r with stage := .faulted c }
      | none =>
        let far := if r.send.isSome && placeTier (reqPlace r) = 3 then farAnswer (freshValue s) else 0
        let s := if r.send.isSome && placeTier (reqPlace r) = 3 then bumpFree s else s
        if far ≠ 0 then modReq s id fun r => { r with stage := .faulted far }
        else if (recallFirst s r).isEmpty then performWake s r
        else orderRecalls s id (reqPlace r) (lineBase r) (recallFirst s r))

/-- WAITW's registrations whose route has gone end as spurious wakes (05 R137). -/
def endUnrouted (s : State) : State :=
  endRegistrations s fun _ w => !homeRoute s isUp (coreDie w.thread.core) (keyPlace w.key) (keyAddr w.key)

end Sys2Proof.Machine
end

