-- ==== Sys2Proof/Machine/Services.lean ====
section
/-! DEFINITION. Handles and the instructions of fault service: GSTATE, GREPLAY, GKILL (04 R101, R110 to R113). -/
namespace Sys2Proof.Machine

/-! ## Handles (04 R101) -/

/-- The thread a handle names, unless the handle is stale (04 R101). -/
def handleThread (s : State) (h : Word) : Option Thread :=
  let core := bitsOf h.toNat 7 0
  let who : Who := if h.getLsbD 26 then .fe else .grp (bitsOf h.toNat 13 8)
  match getBlk s core with
  | some b =>
    let here := match who with
      | .fe => true
      | .grp g => decide (g < b.hdr.groups)
    if core < 192 && b.ctx = bitsOf h.toNat 25 14 && here && threadGen b who = BitVec.ofNat 5 (bitsOf h.toNat 31 27) then
      some ⟨core, who⟩ else none
  | none => none

/-- The run state of a thread; a stopped one keeps the state it had (07 R163). -/
def runOf (s : State) (t : Thread) : Run :=
  match t.who with
  | .fe => ((getBlk s t.core).map fun b => b.fe.run).getD .killed
  | .grp g => ((getGrp s t.core g).map Group.run).getD .killed

/-- The thread is STOPPED (07 R163). -/
def isStopped (s : State) (t : Thread) : Bool :=
  match t.who with
  | .fe => (getBlk s t.core).any fun b => b.fe.stopped
  | .grp g => (getGrp s t.core g).any Group.stopped

/-- The thread is FAULTED, and so may be replayed or killed (04 R112, R113). -/
def isReplayable (s : State) (t : Thread) : Bool := runOf s t = .faulted && !isStopped s t

/-! ## GSTATE (04 R111) -/

/-- Bytes of a kind. -/
def kindBytes (k : Nat) : Nat :=
  match k with
  | 0 => 64
  | 1 => 512
  | 2 => 128
  | _ => 1024

/-- The record of a thread's last fault, with its state and the store-fault records held. The table has no code for a
STOPPED thread: byte 0x38 shows the state that it keeps (log entry 127). -/
def stateRecord (s : State) (t : Thread) : List Byte :=
  let last := match t.who with
    | .fe => (getBlk s t.core).bind fun b => b.fe.lastRec
    | .grp g => (getGrp s t.core g).bind Group.lastRec
  let held := match t.who with
    | .fe => 0
    | .grp g => ((getGrp s t.core g).map fun r => r.sfrq.length).getD 0
  let st : Byte := match runOf s t with
    | .faulted => 2
    | .exited => 3
    | .killed => 3
    | _ => 1
  ((last.map recordBytes).getD (List.replicate 64 0)).take 0x38 ++ [st, BitVec.ofNat 8 held] ++ List.replicate 6 0

/-- The words of register n in its save layout (04 R104): none beyond the declared range. -/
def regWords (h : Header) (regs : Table Word) (n : Nat) : List Word :=
  if n < h.nu then [tgetD 0 n regs]
  else if n < h.nu + h.na then
    let j := h.nu + 2 * (n - h.nu)
    [tgetD 0 j regs, tgetD 0 (j + 1) regs]
  else if n < declared h then (List.range 32).map (regLane h regs n)
  else []

/-- The thread is held by a debug stop of its cluster (17 R411). -/
def debugStopped (s : State) (t : Thread) : Bool := isStopped s t && (coreCluster s t.core).any Cluster.stopped

/-- What GSTATE copies of a thread: kinds 01b to 11b only of one that is faulted or debug-stopped. -/
def threadState (s : State) (t : Thread) (k i : Nat) : List Byte :=
  if k = 0 then stateRecord s t
  else if runOf s t ≠ .faulted && !debugStopped s t then []
  else match t.who, getBlk s t.core with
    | .fe, some b => if k = 3 then (feArea b).take 1024 else []
    | .grp g, some b => (match tfind g b.groups, k with
      | some r, 1 => r.sfrq.flatMap storeFaultBytes
      | some r, 2 => (regWords b.hdr r.regs i).flatMap fun w => natBytes 4 w.toNat
      | some r, _ => controlArea r
      | none, _ => [])
    | _, none => []

/-- The bytes of a reply: zeros for a stale handle. -/
def gstateBytes (s : State) (h : Word) (sel : BitVec 9) : List Byte :=
  let k := bitsOf sel.toNat 8 7
  pad (kindBytes k) (match handleThread s h with
    | some t => threadState s t k (bitsOf sel.toNat 6 0)
    | none => [])

/-! ## GREPLAY and GKILL (04 R112, R113) -/

/-- The bytes of a store-fault record: (address in the line, lane, byte). -/
def recordStores (r : StoreFaultRec) : List (Nat × Nat × Byte) :=
  let bits := setBits 8 r.mask
  let base := alignDown (r.addr.toNat % 128) 8
  (List.range bits.length).map fun j => (base + bits.getD j 0, 0, r.bytes.extractLsb' (8 * j) 8)

/-- What a store does, from the FM bits of its record (11 R271, R287). -/
def fmOp (fm : BitVec 7) : GlobalOp :=
  let sc : BitVec 2 := fm.extractLsb' 0 2
  if fm.getLsbD 3 then (if fm.getLsbD 2 then .relWake sc else .wake) else if fm.getLsbD 2 then .relStore sc else .store

/-- Reissue the store of a record (04 R112). -/
def reissue (s : State) (core g : Nat) (b : Block) (x : Group) (r : StoreFaultRec) : State :=
  issueReq (bumpId s)
    { id := nextId s, inst := 0, thread := ⟨core, .grp g⟩, split := bitsOf x.fault.toNat 9 8, die := coreDie core
      ctx := b.ctx, pc := r.pc, va := alignDown r.addr.toNat 128, op := fmOp r.fm, bytes := recordStores r, fm := r.fm
      issued := x.issued, epoch := (getDie s (coreDie core)).epoch, again := some r }

/-- A handle without the bits that FE = 1 makes meaningless (04 R101). -/
def bareHandle (h : Word) : Word := if h.getLsbD 26 then h &&& ~~~ 0x3F00 else h

/-- GREPLAY takes effect on a FAULTED thread (04 R112). -/
def replayThread (s : State) (t : Thread) (h : Word) (again : Bool) : State :=
  let s := match t.who with
    | .fe => modFe s t.core fun e => { e with run := .ready }
    | .grp g => (match getBlk s t.core, getGrp s t.core g with
      | some b, some x =>
        let s := modGrp s t.core g fun r => { r with
          run := .ready, sfrq := [], sfOvf := false, issued := r.issued - r.undone, undone := 0 }
        if again then foldSt (fun s r => reissue s t.core g b x r) s x.sfrq else s
      | _, _ => s)
  reevaluate s t.core fun o => bareHandle o.blkh = bareHandle h

/-- Forget what a killed thread still waits for; its stores go on (04 R113). -/
def forgetThread (s : State) (t : Thread) : State :=
  let s := forgetWaits s t
  let gone := s.flight.bars.filter fun r => r.src = t
  let s := modFlight s fun f => { f with
    pool := f.pool.filter fun r => !(r.src = t && r.arrived)
    poolInsts := f.poolInsts.filter fun e => !(e.src = t && e.use ≠ .none)
    bars := f.bars.filter fun r => r.src ≠ t
    services := f.services.filter fun r => r.src ≠ t
    scans := f.scans.filter fun r => r.thread ≠ t }
  foldSt (fun s r => setWatch s r.dst r.index) s gone

/-- A thread is killed (04 R113): the objects it had joined leave BLOCKED_ON_REPLAYABLE (14 R349), and those it waited for lose
it from WATCH (14 R341). -/
def killThread (s : State) (t : Thread) : State :=
  let waits := ((getBlk s t.core).map fun b => waitsOf b t.who).getD []
  let s := reevaluate (forgetThread s t) t.core fun o => isMember o t.who
  let s := match t.who with
    | .fe => modFe s t.core fun e => { e with run := if e.run = .exited then .exited else .killed, wait := .none }
    | .grp g => modGrp s t.core g fun r =>
        if r.run = .exited then r
        else { r with run := .killed, wasKilled := true, sfrq := [], sfOvf := false, acquire := none
                      splits := r.splits.map fun e => (e.1, { e.2 with wait := .none }) }
  foldSt (fun s i => setWatch s t.core i) (leaveAll s t.core t.who) waits

/-- GKILL takes effect on a FAULTED thread: with FE, on every thread of its block (04 R113). -/
def killFrom (s : State) (t : Thread) : State :=
  match t.who, getBlk s t.core with
  | .fe, some b =>
    let s := modBlk s t.core fun b => { b with killed := true }
    foldSt (fun s g => killThread s ⟨t.core, .grp g⟩) (killThread s t) (b.groups.map Prod.fst)
  | _, _ => killThread s t

/-! ## The instructions -/

/-- The issuer's context may act on the handle's (04 R110). -/
def handleAllowed (s : State) (i : Iss) (h : Word) : Bool :=
  privileged s (issCore i) || bitsOf h.toNat 25 14 = (issBlk i).ctx

/-- Send a request to the handle's core, and wait for its reply (04 R110). -/
def sendService (s : State) (i : Iss) (pd : BitVec 3) (h : Word) (kind : Nat) (sel : BitVec 9) (dst : Word) : Eff :=
  let core := handleCore h
  if core < 192 && !routeUp s (coreDie (issCore i)) (coreDie core) then .fault { code := cLINK_DOWN }
  else
  let id := nextId s
  let t := bumpId (modFlight s fun f => { f with services := f.services ++
    [{ id := id, src := issThread i, split := issSplit i, pd := pd, handle := h, kind := kind, sel := sel, dst := dst
       via := core < 192 && viaOf s (coreDie (issCore i)) (coreDie core) }] })
  .wait (startWait t i (.service id))

/-- GSTATE (04 R111). A destination address that names the pool of another core is written there, as R24 resolves it (log
entry 128). -/
def execGstate (g : BitVec 3) (a b : BitVec 6) (k : BitVec 2) (i : BitVec 7) (s : State) : Host.Outcome State Fault Refusal :=
  sharedInstr s true [(a.toNat, 1), (b.toNat, 1)] [a.toNat, b.toNat] false false serviceRight (.guard g) fun c =>
    let h := opWord c a.toNat
    let v := opWord c b.toNat
    if !handleAllowed s c h then .fault { code := cPRIVILEGE }
    else if !aligned v.toNat 16 then .fault { code := cMISALIGN, addr := v.zeroExtend 64 }
    else if (poolTarget s (issCore c) v (kindBytes k.toNat)).isNone then .fault { code := cPOOL_ADDR, addr := v.zeroExtend 64 }
    else sendService s c 0 h 0 (k ++ i) v

/-- GREPLAY and GKILL up to their request (04 R110); only GREPLAY reads its imm9 (03 R77). -/
def actOn (s : State) (lit : Bool) (p : BitVec 3) (a : BitVec 6) (kind : Nat) (sel : BitVec 9) :
    Host.Outcome State Fault Refusal :=
  sharedInstr s lit [(a.toNat, 1)] [a.toNat] false false serviceRight (.dest p) fun c =>
    let h := opWord c a.toNat
    if !handleAllowed s c h then .fault { code := cPRIVILEGE }
    else sendService s c p h kind sel 0

/-- GREPLAY (04 R112). -/
def execGreplay (p : BitVec 3) (a : BitVec 6) (f : BitVec 1) (s : State) : Host.Outcome State Fault Refusal :=
  actOn s true p a 1 (f.zeroExtend 9)

/-- GKILL (04 R113). -/
def execGkill (p : BitVec 3) (a : BitVec 6) (s : State) : Host.Outcome State Fault Refusal := actOn s false p a 2 0

/-! ## The steps of a request -/

/-- A request under way. -/
def getService (s : State) (id : Nat) : Option Service := s.flight.services.find? fun r => r.id = id

/-- The reply of a request is on its way back. -/
def answerService (s : State) (id : Nat) (ok : Bool) (b : List Byte) : State :=
  modFlight s fun f => { f with services := f.services.map fun r => if r.id = id then { r with reply := some (ok, b) } else r }

/-- What a request does at the handle's core. -/
def serviceEffect (s : State) (r : Service) : State :=
  if r.kind = 0 then answerService s r.id true (gstateBytes s r.handle r.sel)
  else match handleThread s r.handle with
    | some t =>
      if isReplayable s t then
        answerService (if r.kind = 1 then replayThread s t r.handle (r.sel.getLsbD 0) else killFrom s t) r.id true []
      else answerService s r.id false []
    | none => answerService s r.id false []

/-- What a request follows to the handle's core: the thread's earlier pool accesses there, what its core has sent there
before over the crossbar (01 R28), and a change of its route (01 R10). -/
def serviceBefore (s : State) (r : Service) : Bool :=
  let c := handleCore r.handle
  s.flight.pool.any (fun e => e.src = r.src && e.dst = c && e.id < r.id && !e.arrived)
    || crossBefore s r.src.core c r.id || (c < 192 && otherRoute s (coreDie r.src.core) (coreDie c) r.via r.id)

/-- A seam on the way of a request is held (16 R383, 18 R426). -/
def serviceHeld (s : State) (r : Service) : Bool :=
  handleCore r.handle < 192 && seamHeld s (coreDie r.src.core) (coreDie (handleCore r.handle))

/-- SERVICE_REQUEST_ARRIVE (04 R110). -/
def execServiceRequestArrive (id : Nat) (s : State) : Host.Outcome State Fault Refusal :=
  match getService s id with
  | some r => event s (r.reply.isNone && !serviceBefore s r && !serviceHeld s r) (serviceEffect s r)
  | none => .next s

/-- The bytes of a GSTATE are written to the pool, where watchpoints see them. -/
def writeReply (s : State) (r : Service) (b : List Byte) : State :=
  match poolTarget s r.src.core r.dst b.length with
  | some (core, off) =>
    let pc := match r.src.who with
      | .fe => ((getBlk s r.src.core).map fun k => k.fe.pc).getD 0
      | .grp g => (((getGrp s r.src.core g).bind fun x => tfind r.split x.splits).map Split.pc).getD 0
    watchCheck (poolPut s core off b) core false 1 off b.length r.src.core (threadHandle s r.src) pc
      (BitVec.ofNat 64 (bytesNat (b.take 8)))
  | none => s

/-- SERVICE_REPLY (04 R110, R111). -/
def execServiceReply (id : Nat) (s : State) : Host.Outcome State Fault Refusal :=
  match getService s id with
  | some r => match r.reply with
    | some (ok, b) =>
      let w : Waiting := { core := r.src.core, who := r.src.who, split := r.split }
      event s (canEnd s w (.service id) && !serviceHeld s r)
        (let s := modFlight s fun f => { f with services := f.services.filter fun x => x.id ≠ id }
        endWait (if r.kind = 0 then writeReply s r b else destWait s w r.pd.toNat ok) w)
    | none => .next s
  | none => .next s

end Sys2Proof.Machine
end

