-- ==== Sys2Proof/Machine/Contexts.lean ====
section
/-! DEFINITION. Contexts: their commands and states (04 R86 to R90, R93), and delivery of fault records (04 R97 to
R99). -/
namespace Sys2Proof.Machine

/-! ## Descriptors (04 R86, R90) -/

/-- The 128 bytes of a descriptor, if it can be read (04 R90). -/
def readDescriptor (s : State) (pa : Nat) : Option (List Byte) :=
  if !aligned pa 128 || hbmFrames < pa + 128 || homeIsDown s geoQuad pa || badAt s geoQuad pa 128 then none else some (physBytes s geoQuad pa 128)

/-- A context as its descriptor gives it: an ESHARE above 1024 counts as 1024. -/
def parseDescriptor (b : List Byte) : Context :=
  let q (o : Nat) : DWord := BitVec.ofNat 64 (fieldAt b o 8)
  { state := .open_, ptroot := fieldAt b 0 8, qmask := q 8, cores := fieldAt b 0x10 2, jobs := fieldAt b 0x12 2
    eshare := min 1024 (fieldAt b 0x14 2), mode := BitVec.ofNat 3 (fieldAt b 0x16 2), fqbase := q 0x18
    fqlog := fieldAt b 0x20 1, fsjob := q 0x28, fswake := q 0x30, savebase := q 0x38, profbase := q 0x40, profsize := q 0x48 }

/-- The checks of OPEN and UPDATE on a descriptor (04 R90). -/
def descriptorBad (c : Context) : Bool :=
  c.fqlog < 4 || 16 < c.fqlog || !aligned c.fqbase.toNat 64 || (c.fsjob ≠ 0 && !aligned c.fswake.toNat 8)
    || !aligned c.savebase.toNat 65536 || 192 < c.cores || 1024 < c.jobs

/-- The check of OPEN on PTROOT (04 R90). -/
def rootBad (c : Context) : Bool := !aligned c.ptroot 4096 || hbmFrames < c.ptroot + 4096

/-- The descriptor at an address, if a command may use it. -/
def goodDescriptor (s : State) (pa : Nat) : Option Context :=
  match readDescriptor s pa with
  | some b => if descriptorBad (parseDescriptor b) then none else some (parseDescriptor b)
  | none => none

/-! ## Commands (04 R88, R89) -/

/-- The status of the context command register. -/
def setStatus (s : State) (v : BitVec 2) : State := { s with host := { s.host with ctxStatus := v } }

/-- A command is written: it is accepted, runs on, or is rejected with nothing changed. One written while another runs
is ignored (log entry 23). -/
def ctxCommand (s : State) (cmd : Nat) (ctx : BitVec 12) (w1 : Option DWord) (f : State → Option State) :
    Host.Outcome State Fault Refusal :=
  let word0 : DWord := (0 : BitVec 20) ++ ctx ++ (0 : BitVec 28) ++ BitVec.ofNat 4 cmd
  event s (s.host.ctxStatus ≠ 1)
    (let s := { s with host := { s.host with ctxCmd0 := word0, ctxCmd1 := w1.getD s.host.ctxCmd1 } }
    (f s).getD (setStatus s 3))

/-- OPEN takes the queues of QMASK, unless another context has one (04 R89, 05 R117). -/
def openCtx (s : State) (n pa : Nat) : Option State :=
  match (getCtx s n).state, goodDescriptor s pa with
  | .free, some c =>
    let qs := setBits 64 c.qmask
    if rootBad c || qs.any fun q => (getQueue s q).state ≠ .free then none
    else
      let s := foldSt (fun s q => modQueue s q fun k => { k with state := .open_, owner := n, fifo := [], drops := 0, pause := false }) s qs
      some (setStatus (modCtx s n fun k => { c with pending := k.pending }) 2)
  | _, _ => none

/-- CTX_OPEN (04 R88 to R90). -/
def execCtxOpen (ctx : BitVec 12) (desc : BitVec 64) (s : State) : Host.Outcome State Fault Refusal :=
  ctxCommand s 1 ctx (some desc) fun s => openCtx s ctx.toNat desc.toNat

/-- UPDATE reads the descriptor again, but for PTROOT and QMASK (04 R89). -/
def updateCtx (s : State) (n pa : Nat) : Option State :=
  let k := getCtx s n
  match goodDescriptor s pa with
  | some c =>
    if k.state = .open_ || k.state = .active || k.state = .suspended || k.state = .faulted then
      some (setStatus (modCtx s n fun k =>
        { c with state := k.state, ptroot := k.ptroot, qmask := k.qmask, pending := k.pending }) 2)
    else none
  | none => none

/-- CTX_UPDATE (04 R89, R90). -/
def execCtxUpdate (ctx : BitVec 12) (desc : BitVec 64) (s : State) : Host.Outcome State Fault Refusal :=
  ctxCommand s 5 ctx (some desc) fun s => updateCtx s ctx.toNat desc.toNat

/-- The clusters of a context. -/
def ctxClusters (s : State) (n : Nat) : List Nat :=
  (s.sched.clusters.filter fun e => (getJob s e.2.job).any fun j => j.ctx = n).map Prod.fst

/-- A cluster of the context is resident. -/
def ctxResident (s : State) (n : Nat) : Bool :=
  s.sched.clusters.any fun e => clResident e.2 && (getJob s e.2.job).any fun j => j.ctx = n

/-- SUSPEND: no cluster is placed any more, and the resident ones are pre-empted (04 R89). -/
def suspendCtx (s : State) (n : Nat) : Option State :=
  if (getCtx s n).state = .open_ || (getCtx s n).state = .active then
    let s := modCtx s n fun k => { k with state := .suspending }
    some (setStatus (foldSt preemptCluster s (ctxClusters s n)) 1)
  else none

/-- CTX_SUSPEND (04 R89). -/
def execCtxSuspend (ctx : BitVec 12) (s : State) : Host.Outcome State Fault Refusal :=
  ctxCommand s 2 ctx none fun s => suspendCtx s ctx.toNat

/-- SUSPEND_COMPLETE (04 R89). -/
def execSuspendComplete (ctx : BitVec 12) (s : State) : Host.Outcome State Fault Refusal :=
  event s ((getCtx s ctx.toNat).state = .suspending && !ctxResident s ctx.toNat)
    (setStatus (modCtx s ctx.toNat fun k => { k with state := .suspended }) 2)


/-- The blocks of a FAULTED context continue, but for those that a debug stop holds or that are to leave (04 R89). -/
def continueBlocks (s : State) (n : Nat) : State :=
  foldSt (fun s e => match e.2.block with
    | some b =>
      if b.ctx = n && (getCl s b.cluster).any fun c => !c.stopped && c.state = .running then goOnAt s e.1 else s
    | none => s) s s.cores

/-- RESUME (04 R89). -/
def resumeCtx (s : State) (n : Nat) : Option State :=
  let go (s : State) : State := setStatus (modCtx s n fun k => { k with state := .open_ }) 2
  match (getCtx s n).state with
  | .suspended => some (go s)
  | .faulted => some (continueBlocks (go s) n)
  | _ => none

/-- CTX_RESUME (04 R89). -/
def execCtxResume (ctx : BitVec 12) (s : State) : Host.Outcome State Fault Refusal :=
  ctxCommand s 3 ctx none fun s => resumeCtx s ctx.toNat

/-! ## CLOSE (04 R89, R93) -/

/-- A block that is evicted issues nothing more, and its engines stop. -/
def evictBlock (b : Block) : Block :=
  { b with
    killed := true, copy := {}, mma := [], xfers := []
    fe := { b.fe with run := .killed, wait := .none }
    groups := b.groups.map fun e => (e.1, { e.2 with
      run := .killed, acquire := none, closed := [], sfrq := [], splits := e.2.splits.map fun x => (x.1, { x.2 with wait := .none }) }) }

/-- A core's block is evicted without a save; stores it has sent go on (04 R89). -/
def evictCore (s : State) (core : Nat) : State :=
  let s := purgeCore (withdraw s core).1 core false
  let s := modFlight s fun f => { f with
    global := f.global.filter fun r => !(r.thread.core = core && !isStore r.op)
    barMsgs := f.barMsgs.filter fun m => (getBlk s core).any fun b => b.cluster ≠ m.cluster }
  modCore (modBlk s core evictBlock) core fun k => { k with zeroing := false }

/-- The cores a cluster stands on. -/
def residentCores (s : State) (n : Nat) : List Nat :=
  match getCl s n with
  | some cl => if clResident cl then clusterCores cl else []
  | none => []

/-- CLOSE: queued and sluiced jobs are cancelled, saved clusters forgotten, resident ones evicted (04 R89). The jobs that end
so are not counted in their queue's DONE (05 R116, log entry 131), return no weight, and complete no tree: no completion word is
written (05 R135, log entry 141). -/
def closeCtx (s : State) (n : Nat) : Option State :=
  if (getCtx s n).state = .free || (getCtx s n).state = .closing then none
  else
    let mine := ctxClusters s n
    let s := modCtx s n fun k => { k with state := .closing }
    let s := foldSt (fun s k => foldSt evictCore s (residentCores s k)) s mine
    let s := foldSt (fun s k => match getCl s k with
      | some cl => if clResident cl then modCl s k fun c => { c with state := .running, zeroing := [], budget := none }
          else { s with sched := { s.sched with clusters := tdel k s.sched.clusters } }
      | none => s) s mine
    let s := { s with sched := { s.sched with
      jobs := s.sched.jobs.filter fun e => e.2.ctx ≠ n
      queues := s.sched.queues.map fun e => (e.1, if e.2.state ≠ .free && e.2.owner = n then { e.2 with fifo := [] } else e.2) } }
    some (setStatus s 1)

/-- CTX_CLOSE (04 R89). -/
def execCtxClose (ctx : BitVec 12) (s : State) : Host.Outcome State Fault Refusal :=
  ctxCommand s 4 ctx none fun s => closeCtx s ctx.toNat

/-- A line lies in a frame that the context owns. -/
def ctxOwns (s : State) (n k : Nat) : Bool :=
  !placeRemote (keyPlace k) && frameOwner s (placeTier (keyPlace k)) (keyAddr k) = n

/-- The registered dirty words of a context's lines drain (04 R89). Those of a privileged context, which takes no frame
(15 R364), may lie in any line: every line drains. -/
def drainCtx (s : State) (n : Nat) : State :=
  foldSt (fun s d => foldSt (fun s k => if (getCtx s n).mode.getLsbD 0 || ctxOwns s n k then drainLine s d k fun _ => true else s) s
    ((getDie s d).visitor.map Prod.fst)) s (List.range 4)

/-- A core that the context has left is zeroed (04 R93). -/
def zeroLeft (s : State) (n : Nat) : State :=
  foldSt (fun s e => if e.2.block.isNone && e.2.lastCtx = some n then
      modCore (zeroCore s e.1) e.1 fun k => { k with lastCtx := none }
    else s) s s.cores

/-- The re-stripes of a context's pages are given up, and the pages are MAPPED again (15 R373, log entry 129). -/
def dropMigs (s : State) (n : Nat) : State :=
  let s := foldSt (fun s m => match m.old with
    | some l => if m.ctx = n && m.stage ≠ .queued then writeState s l 0 else s
    | none => s) s s.pages.queue
  { s with pages := { s.pages with queue := s.pages.queue.filter fun m => m.ctx ≠ n } }

/-- Forget what the caches and units hold of a context. The owners of its frames stay (15 R364, R377). -/
def forgetCtx (s : State) (n : Nat) : State :=
  let s := dropMigs s n
  let cache (l : List TEntry) : List TEntry := l.filter fun e => e.ctx ≠ n
  let posted := s.host.walkFor.any fun i => s.flight.walks.any fun w => w.id = i && w.ctx = n
  let s := { s with
    cores := s.cores.map fun e => (e.1, { e.2 with
      tcache := cache e.2.tcache, icache := if e.2.icacheCtx = some n then [] else e.2.icache
      icacheCtx := if e.2.icacheCtx = some n then none else e.2.icacheCtx })
    dies := s.dies.map fun e => (e.1, { e.2 with
      tcache := cache e.2.tcache, waiters := e.2.waiters.filter fun w => w.ctx ≠ n })
    sched := { s.sched with queues := s.sched.queues.map fun e =>
      (e.1, if e.2.state ≠ .free && e.2.owner = n then { e.2 with state := .free, fifo := [] } else e.2) } }
  let s := modFlight s fun f => { f with walks := f.walks.filter fun w => w.ctx ≠ n, global := f.global.filter fun r => r.ctx ≠ n }
  if posted then freeWalkMail s else s

/-- Its cores are released, its dirty words drained, and what it leaves behind zeroed. -/
def freeCtx (s : State) (n : Nat) : State :=
  let s := foldSt (fun s e => match e.2.block with
    | some b => if b.ctx = n then freeCore s e.1 else s
    | none => s) s s.cores
  let s := { s with sched := { s.sched with clusters := s.sched.clusters.filter fun e => (getJob s e.2.job).isSome } }
  modCtx (forgetCtx (zeroLeft (drainCtx s n) n) n) n fun _ => {}

/-- ZEROING_COMPLETE (04 R89, R93): once the stores that the context had sent have ended. -/
def execZeroingComplete (ctx : BitVec 12) (s : State) : Host.Outcome State Fault Refusal :=
  event s ((getCtx s ctx.toNat).state = .closing
      && !s.flight.global.any fun r => r.ctx = ctx.toNat && r.send.isNone)
    (setStatus (freeCtx s ctx.toNat) 2)

/-! ## Delivery of fault records (04 R97 to R99) -/

/-- A record goes to the fault mailbox, or is counted as lost there (16 R386). -/
def mailRecord (s : State) (r : FaultRec) : State :=
  if s.host.faultFull then { s with host := { s.host with faultLost := s.host.faultLost + 1 } }
  else raiseIrq { s with host := { s.host with faultRec := recordBytes r, faultFull := true } } 0

/-- PROD and CONS, if they can be read and PROD written. -/
def queueEnds (s : State) (ctx : Nat) : State × Option (Word × Word) :=
  let base := (getCtx s ctx).fqbase.toNat
  match devRead s ctx base 8 with
  | (s, .inl b) => (s, some (BitVec.ofNat 32 (fieldAt b 0 4), BitVec.ofNat 32 (fieldAt b 4 4)))
  | (s, .inr _) => (s, none)

/-- Write a record as entry PROD; then PROD, with a release at system scope (04 R97, R98). -/
def writeEntry (s : State) (ctx : Nat) (prod : Word) (r : FaultRec) : State × Bool :=
  let c := getCtx s ctx
  match devWrite s ctx (c.fqbase.toNat + 64 + 64 * (prod.toNat % 2 ^ c.fqlog)) (recordBytes r) with
  | (s, true) => devStoreRel s (admittedDies s) ctx c.fqbase.toNat (natBytes 4 (prod + 1).toNat)
  | (s, false) => (s, false)

/-- The record a thread keeps is this one: of the same thread, block and tick. -/
def sameRecord (x r : FaultRec) : Bool :=
  x.handle = r.handle && x.job = r.job && x.cindex = r.cindex && x.member = r.member && x.gts = r.gts

/-- A block with a sequence number put into the record that it names. -/
def seqBlock (r : FaultRec) (seq : Word) (b : Block) : Block :=
  let set (l : Option FaultRec) : Option FaultRec := l.map fun x => if sameRecord x r then { x with seq := seq } else x
  { b with fe := { b.fe with lastRec := set b.fe.lastRec }
           groups := b.groups.map fun e => (e.1, { e.2 with lastRec := set e.2.lastRec }) }

/-- The thread keeps the sequence number of the record of its last fault, also when its cluster has been saved (04
R101). -/
def keepSeq (s : State) (r : FaultRec) (seq : Word) : State :=
  if r.thread.isNone then s
  else { s with
    cores := s.cores.map fun e => (e.1, { e.2 with block := e.2.block.map (seqBlock r seq) })
    sched := { s.sched with clusters := s.sched.clusters.map fun e => (e.1, { e.2 with
      saved := e.2.saved.map fun k => { k with block := seqBlock r seq k.block } }) } }

/-- Faults of the context are served in hardware (04 R91, R92). -/
def hwFaults (s : State) (ctx : Nat) : Bool := s.mode.getLsbD 0 && !(getCtx s ctx).mode.getLsbD 2

/-- MSI-X of a context's faults (04 R98). -/
def faultMsix (s : State) (ctx : Nat) : State := raiseMsix s (ctx % 62)

/-- Deliver one record (04 R98, R99). -/
def deliverRecord (s : State) (ctx : Nat) (r : FaultRec) : State :=
  let c := getCtx s ctx
  let undeliverable := (hwFaults s ctx && c.fsjob = 0) || r.fromService
  let failed (s : State) (r : FaultRec) : State := ctxFaulted (faultMsix (mailRecord (keepSeq s r r.seq) r) ctx) ctx
  match queueEnds s ctx with
  | (s, none) => failed s r
  | (s, some (prod, cons)) =>
    let r := { r with seq := prod }
    if (prod - cons).toNat = 2 ^ c.fqlog then failed s r
    else match writeEntry s ctx prod r with
      | (s, false) => failed s r
      | (s, true) =>
        let s := keepSeq s r prod
        if undeliverable then ctxFaulted (faultMsix s ctx) ctx
        else if hwFaults s ctx then devWake s ctx c.fswake.toNat ((prod + 1).zeroExtend 64)
        else faultMsix s ctx

/-- FAULT_RECORD_APPEND (04 R98). -/
def execFaultRecordAppend (ctx : BitVec 12) (s : State) : Host.Outcome State Fault Refusal :=
  match (getCtx s ctx.toNat).pending with
  | r :: l => .next (deliverRecord (modCtx s ctx.toNat fun k => { k with pending := l }) ctx.toNat r)
  | [] => .next s

/-- FAULT_MAILBOX_FREE (16 R386). -/
def execFaultMailboxFree (s : State) : Host.Outcome State Fault Refusal :=
  .next { s with host := { s.host with faultFull := false } }

end Sys2Proof.Machine
end

