-- ==== Sys2Proof/Machine/System.lean ====
section
/-! DEFINITION. System registers (04 R105 to R109): what each reads, what a write does, SMFSY, SMTSY and VMFSY; the
boundary of home and visitor ways (01 R19, R20). -/
namespace Sys2Proof.Machine

/-! ## What a register reads -/

/-- A bit. -/
def bit1 (b : Bool) : BitVec 1 := if b then 1 else 0

/-- A mask of the numbers below n that a condition picks. -/
def maskWhere (w n : Nat) (f : Nat → Bool) : BitVec w := maskOf w ((List.range n).filter f)

/-- SY.CAPS (01 R15). -/
def syCaps (s : State) : DWord :=
  let cores := ((List.range 192).filter fun c => !(getCore s c).removed && dieAdmitted s (coreDie c)).length
  let tier := ((List.range 32).filter fun i => !tgetD false i s.mgmt.tierOut).length
  maskWhere 12 12 (fun n => linkUp s (4 + n)) ++ BitVec.ofNat 8 cores ++ (0 : BitVec 4) ++ maskWhere 4 4 (dieAdmitted s)
    ++ maskWhere 4 4 (linkUp s) ++ maskWhere 8 8 (fun i => !tgetD false i s.mgmt.stacksOut) ++ BitVec.ofNat 8 tier
    ++ (0x01 : BitVec 8) ++ (0x04 : BitVec 8)

/-- SY.RFCAP (01 R15). -/
def syRfcap (s : State) (core : Nat) : DWord :=
  let p (k : Nat) : BitVec 16 := BitVec.ofNat 16 (partWords s core k)
  p 3 ++ p 2 ++ p 1 ++ p 0

/-- SY.CORE (01 R15). -/
def syCore (core : Nat) : DWord :=
  (0 : BitVec 44) ++ BitVec.ofNat 2 (coreDie core) ++ BitVec.ofNat 3 (core % 48 / 6) ++ BitVec.ofNat 3 (core % 6)
    ++ (0 : BitVec 4) ++ BitVec.ofNat 8 core

/-- SY.CLUSTER (06 R154). -/
def syCluster (s : State) (core : Nat) : DWord :=
  match getBlk s core, coreCluster s core with
  | some b, some cl =>
    BitVec.ofNat 32 cl.index ++ (0 : BitVec 7) ++ bit1 (bonded cl) ++ BitVec.ofNat 4 cl.y ++ BitVec.ofNat 4 cl.x
      ++ BitVec.ofNat 4 cl.h ++ BitVec.ofNat 4 cl.w ++ (0 : BitVec 4) ++ BitVec.ofNat 4 b.member
  | _, _ => 0

/-- SY.JOB (04 R109). -/
def syJob (s : State) (b : Block) : DWord :=
  BitVec.ofNat 32 (((getCl s b.cluster).map Cluster.index).getD 0) ++ BitVec.ofNat 32 b.job

/-- SY.CTX (04 R92). -/
def syCtx (s : State) (b : Block) : DWord :=
  (0 : BitVec 45) ++ (getCtx s b.ctx).mode ++ (0 : BitVec 4) ++ BitVec.ofNat 12 b.ctx

/-- SY.SPLIT (04 R109). -/
def sySplit (r : Group) (k : Nat) : DWord :=
  (0 : BitVec 52) ++ BitVec.ofNat 4 r.serial.length ++ (0 : BitVec 1) ++ BitVec.ofNat 3 r.splits.length ++ (0 : BitVec 2)
    ++ BitVec.ofNat 2 k

/-- SY.SFRQ (11 R288). -/
def sySfrq (r : Group) : DWord := (0 : BitVec 55) ++ bit1 r.sfOvf ++ (0 : BitVec 3) ++ BitVec.ofNat 5 r.sfrq.length

/-- SY.L2SPLIT (01 R19). -/
def syL2split (s : State) (core : Nat) : DWord :=
  let d := getDie s (coreDie core)
  (0 : BitVec 55) ++ bit1 d.busy ++ d.active ++ d.vways

/-- SY.ENERGY (18 R424). -/
def syEnergy (s : State) : DWord :=
  BitVec.ofInt 32 s.mgmt.level ++ (0 : BitVec 8) ++ BitVec.ofNat 8 s.clk.fstep ++ (0 : BitVec 15)
    ++ bit1 (s.clk.fstep < 68)

/-- SY.BUDGET (05 R128). -/
def syBudget (s : State) (b : Block) : DWord :=
  match (getCl s b.cluster).bind Cluster.budget with
  | some n => BitVec.ofNat 64 n
  | none => 0xFFFFFFFFFFFFFFFF

/-- The registers that read alike for every thread of a block, and SY.FAULT as the reader's (04 R105). -/
def sysCommon (s : State) (core : Nat) (b : Block) (fault : DWord) (n : Nat) : DWord :=
  match n with
  | 0x000 => syCaps s
  | 0x001 => syRfcap s core
  | 0x002 => syCore core
  | 0x003 => syCluster s core
  | 0x004 => syJob s b
  | 0x005 => syCtx s b
  | 0x009 => s.mode
  | 0x00A => s.clk.gts
  | 0x00B => fault
  | 0x00D => syL2split s core
  | 0x00E => syEnergy s
  | 0x00F => syBudget s b
  | 0x018 => b.trig
  | _ => if 0x010 ≤ n && n < 0x018 then tgetD 0 (n - 0x010) b.watch else 0

/-- What a group reads (04 R107, R109). -/
def sysGroup (s : State) (c : GC) (n : Nat) : DWord :=
  match n with
  | 0x006 => BitVec.ofNat 64 c.g
  | 0x007 => sySplit c.grp c.k
  | 0x008 => c.grp.fpflags.zeroExtend 64
  | 0x00C => sySfrq c.grp
  | _ => sysCommon s c.core c.blk c.grp.fault n

/-! ## What a write does -/

/-- The number of visitor ways a value of VWAYS stands for (01 R19). -/
def waysOf (v : BitVec 4) : BitVec 4 := if v.toNat < 2 then 2 else if 8 < v.toNat then 8 else v

/-- A write of VWAYS: ignored while BUSY; one that differs from ACTIVE starts a change (01 R20). -/
def writeSplit (s : State) (die : Nat) (v : DWord) : State :=
  modDie s die fun d =>
    if d.busy then d else { d with vways := v.truncate 4, busy := waysOf (v.truncate 4) ≠ d.active }

/-- A write of a debug register of a block: reserved bits stay as they are, and so does REC, but that a trigger which is not enabled
records nothing (17 R408, R416). -/
def writeDebug (b : Block) (n : Nat) (v : DWord) : Block :=
  if n < 8 then { b with watch := tputD 0 n (v &&& 0xFBFFFFFFFFFFFFF8) b.watch }
  else { b with trig := (v &&& 0x80FFCFE0FE000000) ||| (if v.getLsbD 63 then b.trig &&& 1 else 0) }

/-- A write of a system register by the front-end; read-only ones ignore it (04 R106). -/
def sysWrite (s : State) (core n : Nat) (v : DWord) : State :=
  if n = 0x009 then { s with mode := v &&& 0x7F }
  else if n = 0x00D then writeSplit s (coreDie core) v
  else if 0x010 ≤ n && n ≤ 0x018 then modBlk s core fun b => writeDebug b (n - 0x010) v
  else s

/-! ## The instructions -/

/-- SMFSY (04 R106). -/
def execSmfsy (d : BitVec 6) (n : BitVec 18) (s : State) : Host.Outcome State Fault Refusal :=
  feInstr s true fun c =>
    let num := (imm18 (feLit c) n).toNat
    if sregsPending s c [d.toNat] then .hold 2
    else chk [(0x018 < num, cILLEGAL)] (.retire (writeS s c.core d.toNat (sysCommon s c.core c.blk c.blk.fe.fault num)))

/-- SMTSY (04 R106). -/
def execSmtsy (a : BitVec 6) (n : BitVec 18) (s : State) : Host.Outcome State Fault Refusal :=
  feInstr s true fun c =>
    let num := (imm18 (feLit c) n).toNat
    if sregsPending s c [a.toNat] then .hold 2
    else chk [(0x018 < num, cILLEGAL), ((num = 0x009 || num = 0x00D) && !privileged s c.core, cPRIVILEGE)]
      (.retire (sysWrite s c.core num (sreg c a.toNat)))

/-- VMFSY (04 R107). -/
def execVmfsy (g : BitVec 3) (d : BitVec 7) (h c : BitVec 1) (n : BitVec 12) (s : State) :
    Host.Outcome State Fault Refusal :=
  grpInstr s true fun k =>
    -- a code field (03 R76): only a LIT can take it out of its 14 bits
    let code := match grpLit k with
      | some p => (imm14 (some p) (h ++ c ++ n)).toNat
      | none => 0
    if regsPending s k [d.toNat] then .hold 2
    else chk ([(decide (2 ^ 14 ≤ code), cILLEGAL), (decide (0x018 < n.toNat), cILLEGAL), (c = 1 && n ≠ 0x008, cILLEGAL)]
        ++ vecChecks k [(d.toNat, 1)] [] .uniform ++ [bankCheck k g.toNat [d.toNat]]) <|
      let act := activeLanes k g.toNat
      if act.isEmpty then .retire s
      else
        let s' := writeReg s k d.toNat act fun _ => halfOf (h = 1) (sysGroup s k n.toNat)
        .retire (if c = 1 then modGrp s' k.core k.g fun r => { r with fpflags := 0 } else s')

/-! ## The boundary of home and visitor ways (01 R20) -/

/-- L2SPLIT_WRITE (01 R19, R20). -/
def execL2splitWrite (die : BitVec 2) (v : BitVec 64) (s : State) : Host.Outcome State Fault Refusal :=
  .next (writeSplit s die.toNat v)

/-- The ways of a die whose role changes are empty of the lines of their old role (01 R20). -/
def waysEmptied (d : Die) : Bool :=
  let v := 16 - askedWays d
  d.home.all (fun e => e.2.way < v) && d.visitor.all fun e => v ≤ e.2.way

/-- L2SPLIT_DONE (01 R20): every slice has emptied the ways that change their role. The lines that leave them are given up
by turns of their own. -/
def execL2splitDone (die : BitVec 2) (s : State) : Host.Outcome State Fault Refusal :=
  event s ((getDie s die.toNat).busy && waysEmptied (getDie s die.toNat)) (modDie s die.toNat fun d => { d with active := waysOf d.vways, busy := false })

end Sys2Proof.Machine
end

