-- ==== Sys2Proof/Machine/Groups.lean ====
section
/-! DEFINITION. Waits that end as their thread goes on (07 R163, R164), WAITJ (07 R184), DQPOP (07 R177), and the active
sets (07 R165). -/
namespace Sys2Proof.Machine

/-! ## WAITJ (07 R184) -/

/-- The wait is a WAITJ's. -/
def isWaitj : Wait → Bool
  | .waitj _ _ => true
  | _ => false

/-- Splits are equal in what a merge needs, their PCs aside (07 R179). -/
def mergeEqual (x y : Split) : Bool :=
  x.levels = y.levels && x.armSize = y.armSize && (x.armSize = 0 || x.armBase = y.armBase) && x.rstack = y.rstack

/-- Every other split of the group waits at the WAITJ at an address, in a state equal to this one's. -/
def othersAtJoin (r : Group) (k : Nat) (x : Split) (pc : Word) : Bool :=
  r.splits.all fun e => e.1 = k || (isWaitj e.2.wait && e.2.unitEnd = pc && mergeEqual x e.2)

/-- The lowest split that exists. -/
def lowestSplit (r : Group) : Nat := (r.splits.head?.map Prod.fst).getD 0

/-- Every split merges into the lowest, and the predicate becomes true in its lanes. -/
def mergeAll (r : Group) (p : Nat) : Group :=
  let i := lowestSplit r
  let r := foldSt (fun r j => if j = i then r else mergePair r i j) r (r.splits.map Prod.fst)
  match tfind i r.splits with
  | some x => putPred (setSpl r i { x with wait := .none, pre := {}, held := 0 }) p x.lanes x.lanes
  | none => r

/-- The splits have met at a WAITJ: they merge, and the unit retires. -/
def joinSplits (s : State) (core g p : Nat) (first last : Word) : State :=
  modGrp s core g fun r =>
    let r := mergeAll r p
    match tfind (lowestSplit r) r.splits with
    | some x => unitRetire r (lowestSplit r) { x with uniform := if p = 0 then x.uniform else putBit x.uniform p false } first last
    | none => r

/-- WAITJ (07 R184). -/
def execWaitj (p : BitVec 3) (t : BitVec 14) (s : State) : Host.Outcome State Fault Refusal :=
  grpInstr s true fun c =>
    let n := max 0 (imm14 (grpLit c) t).toInt
    chk [(predStaged c p.toNat, cSHAPE)] <|
    if c.grp.splits.length = 1 then
      .retire (setUniform (writePred s c.core c.g p.toNat c.spl.lanes c.spl.lanes) c p.toNat false)
    else if othersAtJoin c.grp c.k c.spl c.spl.pc then
      .whole (modGrp (joinSplits s c.core c.g p.toNat (unitStart c.spl.pre c.spl.pc) c.spl.pc) c.core c.g fun r =>
        { r with issued := r.issued + 1 })
    else if n = 0 then
      .retire (setUniform (writePred s c.core c.g p.toNat c.spl.lanes 0) c p.toNat false)
    else .wait (onSplit s c fun x => { x with wait := .waitj p (s.clk.cycle + n.toNat) })

/-- A STEP has released the thread (17 R414). -/
def steppedNow (s : State) (core : Nat) (who : Who) : Bool :=
  (getBlk s core).any fun b => (b.stepping.map Stepping.who) = some who

/-- WAITJ_TIMEOUT (07 R184): a merge in the same cycle wins; a split that is stopped waits again on resume. -/
def execWaitjTimeout (core grp split : Nat) (s : State) : Host.Outcome State Fault Refusal :=
  let w : Waiting := { core := core, who := .grp grp, split := split }
  match waitOf s w, getGrp s core grp, waitingSplit s w with
  | .waitj p e, some r, some x =>
    event s (threadLive s core (.grp grp) && (!r.stopped || steppedNow s core (.grp grp)) && e ≤ s.clk.cycle
        && !othersAtJoin r split x x.unitEnd)
      (endWait (destWait s w p.toNat false) w)
  | _, _, _ => .next s

/-! ## DQPOP (07 R177) -/

/-- The tickets of the DQPOPs that wait. -/
def waitingPops (r : Group) : List Nat :=
  r.splits.filterMap fun e => match e.2.wait with
    | .dqpop _ t _ => some t
    | _ => none

/-- The tail of the decision queue as a pop sees it: an entry pushed in this cycle only in the next (07 R176). -/
def seenTail (cyc : Nat) (b : Block) : Word := if b.dqPushed = some cyc then b.dqTail - 1 else b.dqTail

/-- The next entry of the decision queue for a group is there. -/
def entryThere (cyc : Nat) (b : Block) (r : Group) : Bool := r.pg ≠ seenTail cyc b

/-- The next entry of the decision queue for a group. -/
def nextEntry (b : Block) (r : Group) : DWord := tgetD 0 (r.pg.toNat % 128) b.dq

/-- The group takes an entry into a register pair. -/
def popInto (b : Block) (r : Group) (x : Split) (vd : Nat) : Group :=
  let e := nextEntry b r
  let put (t : Table Word) (n : Nat) (v : Word) : Table Word := putReg b.hdr t (physReg x n) (lanesOf x.lanes) fun _ => v
  { r with pg := r.pg + 1, regs := put (put r.regs vd (e.truncate 32)) (vd + 1) (e.extractLsb' 32 32) }

/-- DQPOP (07 R177). -/
def execDqpop (g : BitVec 3) (d : BitVec 7) (s : State) : Host.Outcome State Fault Refusal :=
  grpInstr s false fun c =>
    let pend := regsPending s c [d.toNat, d.toNat + 1]
    if pend then .hold (if fullHolds c then 1 else 2)
    else chk [(outOfRange c d.toNat 2, cREG_RANGE)] <|
    wholeGuard s c g.toNat <|
      chk [bankCheck c g.toNat [d.toNat, d.toNat + 1]] <|
      if flagFull c.grp.flags c.spl.clause then .hold 1
      else if entryThere s.clk.cycle c.blk c.grp && (waitingPops c.grp).isEmpty then
        .retire (modSpl (modGrp s c.core c.g fun r => popInto c.blk r c.spl d.toNat) c.core c.g c.k fun x =>
          { x with clause := clauseUsed x.clause })
      else
        let t := takeFlag s c
        let t := modGrp t c.core c.g fun r => { r with tickets := r.tickets + 1 }
        .wait (onSplit t c fun x => { x with wait := .dqpop d.toNat c.grp.tickets (clauseFlag c.spl.clause) })

/-- A waiting DQPOP takes its entry. -/
def endPop (s : State) (w : Waiting) (g vd : Nat) (flag : Option Nat) : State :=
  match getBlk s w.core, waitingSplit s w with
  | some b, some x => endWait (dropFlag (modGrp s w.core g fun r => popInto b r x vd) ⟨w.core, .grp g⟩ flag) w
  | _, _ => s

/-! ## Waits that have ended -/

/-- What a thread waits for has come about (07 R163). -/
def waitMet (s : State) (w : Waiting) : Bool :=
  match waitOf s w with
  | .fullEmpty i => !(getInst s i).any fun e => 0 < e.left
  | .poolInst i => (getInst s i).all fun e => e.left = 0 && e.acks = 0
  | .barrier a n _ _ told => waitVerdict s w.core a n told ≠ .open_
  | .dqpop _ t _ => (match w.who, getBlk s w.core with
    | .grp g, some b => (tfind g b.groups).any fun r => entryThere s.clk.cycle b r && (waitingPops r).all fun u => t ≤ u
    | _, _ => false)
  | .waitw i => (getReq s i).isNone && !s.flight.drains.any (fun m => m.req = i)
      && !s.dies.any fun d => d.2.waiters.any fun x => x.id = i
  | .waitj _ _ => (match w.who with
    | .grp g => (match getGrp s w.core g, waitingSplit s w with
      | some r, some x => othersAtJoin r w.split x x.unitEnd
      | _, _ => false)
    | .fe => false)
  | .walk va _ _ => (peekLeaf s w.core (((getBlk s w.core).map Block.ctx).getD 0) va).isSome
  | .afence i => s.flight.scans.any fun x => x.id = i && x.dies.isEmpty
  | _ => false

/-- LSAVE or LREST has made its accesses (07 R194). -/
def endLoopState (s : State) (w : Waiting) (e : PoolInst) : State :=
  let t := endInst s e
  let on (f : Split → Split) : State := match w.who with
    | .grp g => modSpl t w.core g w.split f
    | .fe => t
  match e.ue, e.use with
  | some (c, a), _ => faultWait t w { code := c, addr := a.zeroExtend 64 }
  | none, .lrest =>
    if 4 < ((readImage e).getD 96 0).toNat then faultWait t w { code := cLOOP_NEST }
    else endWait (on fun x => restoreLoops x (readImage e)) w
  | none, _ => endWait (on clearLoops) w

/-- An AFENCE that every die has acknowledged ends (11 R294). -/
def endAfence (s : State) (w : Waiting) (id : Nat) : State :=
  let s := modFlight s fun f => { f with scans := f.scans.filter fun x => x.id ≠ id }
  let s := match w.who with
    | .grp g => modGrp s w.core g fun r => { r with acquire := if r.acquire = some id then none else r.acquire }
    | .fe => s
  endWait s w

/-- A PGPROBE asks for its translation, and ends when there is one (15 R379). -/
def endProbe (s : State) (w : Waiting) (va : Nat) (p : BitVec 3) (rb : Nat) : State :=
  match probeAsk s w.core (((getBlk s w.core).map Block.ctx).getD 0) va with
  | (s, some l) => probeEnd s w va p rb l
  | (s, none) => s

/-- The wait is a PGPROBE's. -/
def isWalk : Wait → Bool
  | .walk _ _ _ => true
  | _ => false

/-- A thread that may issue and waits: its wait ends if it can, and its unit retires without issuing again (07 R163); a
PGPROBE asks for its translation. -/
def finishWait (s : State) (w : Waiting) : State :=
  if !waitMet s w && !isWalk (waitOf s w) then s
  else match waitOf s w with
    | .fullEmpty _ => endWait s w
    | .poolInst i => (match getInst s i with
      | some e => endLoopState s w e
      | none => endWait s w)
    | .barrier a n p e told => endPhaseWait s w a n p e told
    | .dqpop vd _ f => (match w.who with
      | .grp g => endPop s w g vd f
      | .fe => s)
    | .waitw _ => endWait (acquireAt s w.core 3) w
    | .waitj p _ => (match w.who, waitingSplit s w with
      | .grp g, some x => joinSplits s w.core g p.toNat x.pc x.unitEnd
      | _, _ => s)
    | .walk va p rb => endProbe s w va p rb
    | .afence i => endAfence s w i
    | _ => s

/-! ## The active sets (07 R165) -/

/-- The groups of a partition. -/
def partGroups (b : Block) (k : Nat) : List (Nat × Group) := b.groups.filter fun e => e.1 % 4 = k

/-- The READY group of greatest age, the lower index first. -/
def oldestReady (l : List (Nat × Group)) : Option Nat :=
  ((l.filter fun e => e.2.run = .ready && !e.2.stopped).foldl (fun b e => match b with
    | some (i, a) => if e.2.age < a then some (e.1, e.2.age) else some (i, a)
    | none => some (e.1, e.2.age)) (none : Option (Nat × Nat))).map Prod.fst

/-- ACTIVE_SET_REFILL: at most one group a cycle for each partition (07 R165). -/
def execActiveSetRefill (core : Nat) (part : BitVec 2) (s : State) : Host.Outcome State Fault Refusal :=
  match getBlk s core with
  | none => .next s
  | some b =>
    let l := partGroups b part.toNat
    match oldestReady l with
    | some g => event s (b.launched && (l.filter fun e => e.2.run = .active && !e.2.stopped).length < 4
        && !l.any fun e => e.2.run = .active && e.2.admitted = s.clk.cycle)
        (modGrp s core g fun r => { r with run := .active, admitted := s.clk.cycle })
    | none => .next s

/-- A split has been unable to issue for 32 cycles for a cause that takes its group out of the active set: a barrier wait,
an empty decision queue, a full-empty wait, clause flags. -/
def longWait (s : State) (core g : Nat) (flags : Table Nat) (e : Nat × Split) : Bool :=
  let w : Waiting := { core := core, who := .grp g, split := e.1 }
  let cause := match e.2.wait with
    | .barrier _ _ _ _ _ => !waitMet s w
    | .barrierReply i => s.flight.bars.any fun r => r.id = i && barPending r
    | .dqpop _ _ _ => !waitMet s w
    | .fullEmpty _ => !waitMet s w
    | .none => clauseHeld flags e.2
    | _ => false
  cause && e.2.since + 32 ≤ s.clk.cycle

/-- ACTIVE_SET_LEAVE (07 R165). -/
def execActiveSetLeave (core grp : Nat) (s : State) : Host.Outcome State Fault Refusal :=
  match getGrp s core grp with
  | some r => event s (r.run = .active && !r.splits.isEmpty && r.splits.all (longWait s core grp r.flags))
      (modGrp s core grp fun r => { r with run := .waiting })
  | none => .next s

end Sys2Proof.Machine
end

