-- ==== Sys2Proof/Machine/Links.lean ====
section
/-! DEFINITION. Link states and what fails with a link (16 R383 to R385), time (16 R399), requests of a peer (16 R387),
the device number, and the warm reset of a die (16 R400 to R404). -/
namespace Sys2Proof.Machine

/-! ## States of a link (16 R383, R384) -/

/-- Modules or lanes of a link (16 R382). -/
def linkLanes (l : Nat) : Nat := if l < 4 || l = 16 then 16 else 8

/-- A link whose words the link registers reach: the side-band is the millhouse's (16 R383). Seam commands are ignored
during a die reset (16 R384). -/
def linkCommanded (s : State) (l : Nat) : Bool := l ≤ 16 && !(l < 4 && s.dreset.busy)

/-- Add one to a saturating 16-bit count. -/
def satInc (n : Nat) : Nat := min (n + 1) 0xFFFF

/-- A fabric link is UP. -/
def fabricUp (s : State) : Bool := (List.range 12).any fun i => linkUp s (4 + i)

/-- A link changes its state. With no fabric link UP there is no route to the master: TSYNC clears and the GTS runs free (16
R399, log entry 133). -/
def setLink (s : State) (l : Nat) (st : LinkState) : State :=
  let s := modLink s l fun k => { k with state := st }
  if fabricUp s then s
  else { s with clk := { s.clk with slew := 0 }, links := s.links.map fun e => (e.1, { e.2 with tsync := false, locked := false }) }

/-- A link begins to train. -/
def beginTraining (s : State) (l : Nat) : State :=
  modLink (setLink s l .training) l fun k => { k with attempts := 0, since := s.clk.gts.toNat }

/-- A link begins to retrain (16 R383, R384). -/
def beginRetraining (s : State) (l : Nat) : State :=
  modLink (setLink s l .retraining) l fun k =>
    { k with attempts := 0, since := s.clk.gts.toNat, retrains := satInc k.retrains }

/-- The ticks for which a link may train: 10 ms (16 R383). -/
def trainingLimit : Nat := 10000000

/-- A link admits no new request; waiters without a route are un-parked (16 R383, 05 R137). -/
def quiesceLink (s : State) (l : Nat) : State :=
  if linkUp s l then endUnrouted (setLink s l .quiescing) else s

/-- LINK_ENABLE (16 R383). -/
def execLinkEnable (link : BitVec 5) (s : State) : Host.Outcome State Fault Refusal :=
  let l := link.toNat
  event s (linkCommanded s l) (match (getLink s l).state with
    | .down => beginTraining s l
    | .failed => beginTraining s l
    | .quiesced => beginRetraining s l
    | _ => s)

/-- LINK_QUIESCE (16 R383). -/
def execLinkQuiesce (link : BitVec 5) (s : State) : Host.Outcome State Fault Refusal :=
  event s (linkCommanded s link.toNat) (quiesceLink s link.toNat)

/-- LINK_DISABLE (16 R383). -/
def execLinkDisable (link : BitVec 5) (s : State) : Host.Outcome State Fault Refusal :=
  let l := link.toNat
  event s (linkCommanded s l) (match (getLink s l).state with
    | .quiesced => setLink s l .down
    | .failed => setLink s l .down
    | _ => s)

/-- TRAINING_SUCCESS (16 R383), before 10 ms have passed: the modules and lanes in service are those that no lasting fault has taken (18 R426);
the peer device's number is the peer's (log entry 4). -/
def execTrainingSuccess (link : BitVec 5) (s : State) : Host.Outcome State Fault Refusal :=
  let l := link.toNat
  let st := (getLink s l).state
  let fabric : Bool := 4 ≤ l && l < 16
  event s (l ≤ 16 && (st = .training || st = .retraining) && s.clk.gts.toNat < (getLink s l).since + trainingLimit)
    (let peer := if fabric then (freshValue s).toNat % 1024 else 0
    modLink (setLink (if fabric then bumpFree s else s) l .up) l fun k =>
      { k with width := linkLanes l - k.lost, attempts := 0, replayRun := 0, peer := peer })

/-! ## A link that fails (16 R385) -/

/-- No route between two cores is left. -/
def coresCut (s : State) (a b : Nat) : Bool := a < 192 && b < 192 && !routeBy s keeps (coreDie a) (coreDie b)

/-- A pool access whose route is gone is answered LINK_DOWN. -/
def cutPool (s : State) (r : PoolReq) : State :=
  let s := modFlight s fun f => { f with pool := f.pool.filter fun x => x.id ≠ r.id }
  let s := informCode s r none (some cLINK_DOWN)
  match getInst s r.inst with
  | some e => match e.ue with
    | some (c, a) => if e.left = 0 && e.acks = 0 && e.use = .none then lateError (endInst s e) e c a else s
    | none => s
  | none => s

/-- A thread that waits for a reply which cannot come faults at its unit. -/
def cutWait (s : State) (t : Thread) (split : Nat) (wait : Wait) : State :=
  let w : Waiting := { core := t.core, who := t.who, split := split }
  if waitOf s w = wait then faultWait s w { code := cLINK_DOWN } else s

/-- Requests to other cores that wait on a failed link are answered LINK_DOWN: pool accesses, service requests, barrier
operations (16 R385). -/
def cutRequests (s : State) : State :=
  let s := foldSt (fun s r => if !r.arrived && coresCut s r.src.core r.dst then cutPool s r else s) s s.flight.pool
  let s := foldSt (fun s r => if r.reply.isNone && coresCut s r.src.core (bitsOf r.handle.toNat 7 0) then
      cutWait (modFlight s fun f => { f with services := f.services.filter fun x => x.id ≠ r.id }) r.src r.split (.service r.id)
    else s) s s.flight.services
  foldSt (fun s r => if r.reply.isNone && coresCut s r.src.core r.dst then
      cutWait (modFlight s fun f => { f with bars := f.bars.filter fun x => x.id ≠ r.id }) r.src r.split (.barrierReply r.id)
    else s) s s.flight.bars

/-- The link by which a message stage leaves or enters the device, if it crosses one. -/
def msgLink (s : State) (m : MsgFlight) : Option Nat :=
  if m.hdr.srcDev ≠ s.host.devnum then routeLink (tgetD 0 m.hdr.srcDev s.host.route)
  else if m.dstDev ≠ s.host.devnum then routeLink (tgetD 0 m.dstDev s.host.route) else none

/-- A matched receive is posted again, with the bytes already written (16 R397). -/
def repost (s : State) (core recv : Nat) : State :=
  modRecvs s core fun l => l.map fun r => if r.id = recv then { r with matched := false } else r

/-- The granules of a message's data that had been written when its link failed: how many is open (16 R397, log entry
138). -/
def partWritten (s : State) (m : MsgFlight) : State :=
  match (getCore s m.dstCore).recvs.find? fun r => r.id = m.recv with
  | some r =>
    let n := min m.data.length (r.len - 16) / 16
    let k := 16 * ((freshValue s).toNat % (n + 1))
    let off := r.addr.toNat % 2 ^ 19 + 16
    if k = 0 then bumpFree s
    else satisfyFe (setFull (poolPut (bumpFree s) m.dstCore off (m.data.take k)) m.dstCore off k true) m.dstCore
  | none => s

/-- A message stage loses its link or route: the sender's completion is negative, and a receive that was being filled
stays posted (16 R397). -/
def cutMsg (s : State) (m : MsgFlight) : State :=
  let mine := m.hdr.srcDev = s.host.devnum
  let end_ (s : State) : State := if mine then sendCompletion s m.hdr.srcCore m.hdr cLINK_DOWN else s
  match m.stage with
  | 3 => if mine then s else dropMsg s m.id
  | 4 => end_ (dropMsg s m.id)
  | 0 => end_ (dropMsg s m.id)
  | 2 => end_ (repost (dropMsg (partWritten s m) m.id) m.dstCore m.recv)
  | _ => end_ (repost (dropMsg s m.id) m.dstCore m.recv)

/-- The messages that a failed link carried or that have no route left. -/
def cutMsgs (s : State) (l : Nat) : State :=
  foldSt (fun s m => if msgLink s m = some l || (m.stage ≠ 3 && msgCut s m) then cutMsg s m else s) s s.flight.msgs

/-- A link enters FAILED (16 R383, R385). Global requests that find no route take LINK_DOWN at their next step. -/
def failLink (s : State) (l : Nat) : State :=
  cutMsgs (cutRequests (endUnrouted (setLink s l .failed))) l

/-- TRAINING_FAILURE (16 R383): an attempt has failed; the eighth, or 10 ms, ends in FAILED. -/
def execTrainingFailure (link : BitVec 5) (s : State) : Host.Outcome State Fault Refusal :=
  let l := link.toNat
  let k := getLink s l
  event s (l ≤ 16 && (k.state = .training || k.state = .retraining))
    (let s' := modLink s l fun k => { k with attempts := k.attempts + 1 }
    if 8 ≤ k.attempts + 1 || k.since + trainingLimit ≤ s.clk.gts.toNat then failLink s' l else s')

/-- CRC_FAILURE (16 R385): the sender replays. Whether the flit is the one that it replayed last, so that the run of replays
of one flit goes on (16 R383), is a free value (log entry 93). -/
def execCrcFailure (link : BitVec 5) (s : State) : Host.Outcome State Fault Refusal :=
  let same := (freshValue s).getLsbD 0
  event s (link.toNat ≤ 16 && carries (getLink s link.toNat).state)
    (modLink (bumpFree s) link.toNat fun k =>
      { k with replays := satInc k.replays, replayRun := if same then k.replayRun + 1 else 1 })

/-- REPLAY_LIMIT (16 R383). -/
def execReplayLimit (link : BitVec 5) (s : State) : Host.Outcome State Fault Refusal :=
  event s (link.toNat ≤ 16 && linkUp s link.toNat && 16 ≤ (getLink s link.toNat).replayRun)
    (endUnrouted (beginRetraining s link.toNat))

/-! ## A link that falls quiet (16 R383) -/

/-- The seams that traffic between two dies crosses, on the one route or the other (01 R10). -/
def seamsOf (a b : Nat) (via : Bool) : List Nat :=
  if a = b then []
  else if a / 2 = b / 2 then [rowSeam a]
  else if a % 2 = b % 2 then [colSeam a]
  else if via then [colSeam a, rowSeam b] else [rowSeam a, colSeam b]

/-- What has been sent between two dies, with its route, and has not yet been acknowledged or answered: requests to homes and
between homes and owners. -/
def homeTraffic (s : State) : List (Nat × Nat × Bool) :=
  let home (die : Nat) (l : Leaf) (va : Nat) (via : Bool) : List (Nat × Nat × Bool) :=
    if placeRemote l.place then [] else [(die, homeDie l.place (physAddr l va), via)]
  let owner (h : Nat) (o : BitVec 3) (via : Bool) : List (Nat × Nat × Bool) := if o.toNat ≤ 4 then [(h, o.toNat - 1, via)] else []
  (s.flight.global.flatMap fun r => match r.leaf with
    | some l => if r.stage = .translate then [] else home r.die l r.va r.via
    | none => [])
  ++ (s.flight.reads.flatMap fun r => home r.die r.leaf r.va r.via)
  ++ (s.flight.recalls.flatMap fun m => owner m.home m.owner m.via)
  ++ s.flight.drains.flatMap fun m => owner m.home m.owner m.via

/-- The same between cores: pool accesses and their acknowledgements, service requests, barrier operations, messages between
members, credits, claims, stops and messages of one device. -/
def coreTraffic (s : State) : List (Nat × Nat × Bool) :=
  (s.flight.pool.map fun r => (coreDie r.src.core, coreDie r.dst, viaTo s r))
  ++ (s.flight.poolInsts.flatMap fun e => if e.acks = 0 then [] else e.routes.map fun p => (coreDie e.src.core, p.1, p.2))
  ++ (s.flight.services.map fun r => (coreDie r.src.core, coreDie (handleCore r.handle), r.via))
  ++ (s.flight.bars.map fun r => (coreDie r.src.core, coreDie r.dst, r.via))
  ++ (s.flight.barMsgs.flatMap fun m => match getCl s m.cluster with
    | some cl => [(coreDie (memberCore cl m.fromMember), coreDie (memberCore cl m.toMember), false)]
    | none => [])
  ++ (s.flight.credits.map fun m => (coreDie m.src, coreDie m.core, false))
  ++ (s.flight.mcids.map fun m => (coreDie m.src, coreDie m.core, false))
  ++ (s.flight.stops.map fun m => (coreDie m.src, coreDie m.core, false))
  ++ s.flight.msgs.flatMap fun m => (msgPath s m).toList.map fun p => (p.1, p.2, m.via)
where
  viaTo (s : State) (r : PoolReq) : Bool := (getInst s r.inst).any fun e => e.routes.contains (coreDie r.dst, true)

/-- A tier outside the device is being accessed over a link. -/
def remoteBusy (s : State) (l : Nat) : Bool :=
  (s.flight.global.any fun r => r.stage ≠ .translate && (r.leaf.any fun k => placeRemote k.place
    && remoteLink s k.place (physAddr k r.va) = some l))
  || (s.flight.reads.any fun r => placeRemote r.leaf.place && remoteLink s r.leaf.place (physAddr r.leaf r.va) = some l)
  || s.flight.msgs.any fun m => msgLink s m = some l

/-- Everything sent on a link has been acknowledged or answered. -/
def linkQuiet (s : State) (l : Nat) : Bool :=
  if l < 4 then !(homeTraffic s ++ coreTraffic s).any fun p => (seamsOf p.1 p.2.1 p.2.2).contains l else !remoteBusy s l

/-- LINK_QUIESCED (16 R383). -/
def execLinkQuiesced (link : BitVec 5) (s : State) : Host.Outcome State Fault Refusal :=
  event s ((getLink s link.toNat).state = .quiescing && linkQuiet s link.toNat) (setLink s link.toNat .quiesced)

/-! ## Time (16 R399) -/

/-- The offset of the master's time from four stamps. -/
def timeOffset (t1 t2 t3 t4 : DWord) : Int := ((t2 - t1).toInt + (t3 - t4).toInt) / 2

/-- The UP fabric link whose route leads nearest the master: how far each leads is Config.masterHops; of equal ones the lowest
(16 R399, log entry 133). -/
def masterLink (s : State) : Option Nat :=
  ((List.range 12).map (· + 4)).foldl (fun b l => if !linkUp s l then b else match b with
    | some x => if Config.masterHops l < Config.masterHops x then some l else b
    | none => some l) none

/-- A time lock is held, on whichever link. -/
def timeLocked (s : State) : Bool := s.links.any fun e => e.2.locked

/-- TIME_EXCHANGE (16 R399), every 4096 ticks on the link nearest the master: the first lock removes a large offset by one step
forward; otherwise the clock slews. The lock is that of the link of the last exchange. -/
def execTimeExchange (link : BitVec 5) (t1 t2 t3 t4 : BitVec 64) (s : State) : Host.Outcome State Fault Refusal :=
  let l := link.toNat
  let o := timeOffset t1 t2 t3 t4
  event s (masterLink s = some l && !s.host.tmaster && s.clk.exchanged + 4096 ≤ s.clk.gts.toNat)
    (let held := s.links.any fun e => e.2.tsync
    let step : Bool := !timeLocked s && 4096 < o
    let c := if step then { s.clk with gts := s.clk.gts + BitVec.ofInt 64 o, slew := 0 } else { s.clk with slew := o }
    let free := s.links.map fun e => (e.1, { e.2 with tsync := false, locked := false })
    modLink { s with links := free, clk := { c with exchanged := c.gts.toNat } } l fun k =>
      { k with locked := true, tsync := o.natAbs ≤ 4 || (held && o.natAbs ≤ 8) })

/-! ## The device number, and requests of a peer (16 R387) -/

/-- DEVNUM_WRITE (16 R386, R387). -/
def execDevnumWrite (v : BitVec 64) (s : State) : Host.Outcome State Fault Refusal :=
  .next { s with host := { s.host with
    tmaster := v.getLsbD 16, devnum := if fabricUp s then s.host.devnum else bitsOf v.toNat 9 0 } }

/-- n bytes from an address lie within the exported window. -/
def inWindow (s : State) (a n : Nat) : Bool :=
  s.host.winBase.toNat ≤ a && a + n ≤ s.host.winBase.toNat + s.host.winSize

/-- The words that n bytes touch are whole: neither owner-lost nor uncorrectable. -/
def windowSound (s : State) (a n : Nat) : Bool :=
  (List.range ((n + 3) / 4)).all fun i =>
    !(regWord s windowPlace (a + 4 * i)).lost && !badAt s windowPlace (a + 4 * i) 4

/-- A peer's atomic is performed at the word's home (10 R258); the old value goes back to the peer. -/
def peerAtomic (s : State) (op : BitVec 4) (a : Nat) (data : List Byte) : State :=
  let n := atomicSize op
  if !inWindow s a n || !aligned a n || !windowSound s a n then s
  else
    let p := windowPlace
    let s := foldSt (fun s i => recallWord s p (a + 4 * i)) s (List.range (n / 4))
    let b := BitVec.ofNat 64 (fieldAt data 0 8)
    let b' := BitVec.ofNat 64 (fieldAt data 8 8)
    physPut s p a (natBytes n (atomicNew op (homeValue s p a n) b b').toNat)

/-- A peer's wake write (16 R398). -/
def peerWake (s : State) (a : Nat) (data : List Byte) : State :=
  if !inWindow s a 8 || !aligned a 8 || data.length ≠ 8 then s
  else wakeWord (physPut s windowPlace a data) windowPlace a

/-- The header of a peer's message: source device and core, destination core, tag, length and FID. -/
def peerHeader (s : State) (d : List Byte) : State :=
  addMsg s { id := 0, stage := 0, dstDev := s.host.devnum, dstCore := fieldAt d 3 1
             hdr := { srcDev := fieldAt d 0 2 % 1024, srcCore := fieldAt d 2 1, tag := BitVec.ofNat 32 (fieldAt d 4 4)
                      len := fieldAt d 8 4 % 2 ^ 17, send := 0, ctx := fieldAt d 12 2 } }

/-- PEER_REQUEST (16 R387): a read, an atomic or a wake write within the exported window, or a message header. One
beyond the window is answered PERMISSION: nothing changes here. -/
def execPeerRequest (link : BitVec 5) (kind : BitVec 2) (op : BitVec 4) (addr : BitVec 52) (data : List (BitVec 8)) (s : State) :
    Host.Outcome State Fault Refusal :=
  let a := addr.toNat
  event s (4 ≤ link.toNat && link.toNat < 16 && linkUp s link.toNat && (kind = 3 || !frozenAt s windowPlace a)
      && (kind = 3 || kind = 0 || !throttledAt s windowPlace a)
      && (kind = 3 || !homeIsDown s windowPlace a))
    (match kind.toNat with
    | 1 => peerAtomic s op a data
    | 2 => peerWake s a data
    | 3 => if fieldAt data 0 2 % 1024 = s.host.devnum then s else peerHeader s data
    | _ => s)

/-! ## The warm reset of a die (16 R400 to R404) -/

/-- The clusters with a core on a die. -/
def clustersOn (s : State) (d : Nat) : List Nat :=
  (s.sched.clusters.filter fun e => clResident e.2 && (clusterCores e.2).any fun c => coreDie c = d).map Prod.fst

/-- An entry of the evacuation list, 32 bytes: context, VA, new frame, placement word, 8 bytes each. -/
def evacEntry (s : State) (i : Nat) : Migration :=
  let b := physBytes s geoQuad (s.host.evacBase.toNat + 32 * i) 32
  { id := 0, ctx := fieldAt b 0 2, va := fieldAt b 8 8, by_ := .evacuate, newPa := fieldAt b 16 8
    newPlace := BitVec.ofNat 32 (fieldAt b 24 4) }

/-- The page of an entry has memory on a die. -/
def entryUses (s : State) (d : Nat) (m : Migration) : Bool :=
  (rawLeaf s m.ctx m.va).any fun l => !placeRemote l.place && (placeDies l.place).contains d

/-- Step 2: the entries whose page uses the die become requests of the restriper. -/
def evacuate (s : State) (d : Nat) : State :=
  foldSt (fun s i =>
    let m := { evacEntry s i with id := nextId s }
    if entryUses s d m then bumpId { s with pages := { s.pages with queue := s.pages.queue ++ [m] } } else s)
    s (List.range s.host.evacCount)

/-- A re-stripe whose new geometry excludes a die is under way. -/
def leavingDie (s : State) (d : Nat) : Bool :=
  s.pages.queue.any fun m => !(!placeRemote m.newPlace && (placeDies m.newPlace).contains d)

/-- Words of a visitor line that cannot reach their home are owner-lost (10 R268, 16 R401). -/
def loseLine (s : State) (x k : Nat) : State :=
  foldSt (fun s i =>
    if (visitorOf s x k).owned.getLsbD i then
      modReg (dropWord s x k i) (keyPlace k) (keyAddr k + 4 * i) fun r => { r with owner := 0, lost := true }
    else s) s (List.range 32)

/-- A die's visitor line drains, or is lost. -/
def drainOrLose (s : State) (x k : Nat) : State :=
  let h := homeDie (keyPlace k) (keyAddr k)
  if placeRemote (keyPlace k) then s
  else if routeBy s keeps x h && !dieHomeDown s h then drainLine s x k fun _ => true else loseLine s x k

/-- Step 3: the die's own visitor words, and the other dies' and link buffers' words of lines homed on it, drain. -/
def drainForReset (s : State) (d : Nat) : State :=
  let s := foldSt (fun s k => drainOrLose s d k) s ((getDie s d).visitor.map Prod.fst)
  let s := foldSt (fun s x => foldSt (fun s k => if homeDie (keyPlace k) (keyAddr k) = d then drainOrLose s x k else s) s
    ((getDie s x).visitor.map Prod.fst)) s (List.range 4)
  let s := foldSt (fun s w => if w.home = d then recallWord s (keyPlace w.key) (keyAddr w.key + 4 * w.word) else s)
    s s.flight.linkWords
  foldSt (fun s e => if e.2.owner = 0 then s else recallWord s (keyPlace (e.1 / 32)) (keyAddr (e.1 / 32) + 4 * (e.1 % 32)))
    s (getDie s d).registry

/-- A registration is on its way to a home of the die, or from its stores. -/
def registering (s : State) (d : Nat) : Bool :=
  s.flight.global.any fun r => r.visitor && r.stage = .atHome && (r.die = d || homeDie (reqPlace r) (reqAddr r) = d)

/-- Write back the dirty home lines of a die, and those of the others whose memory lies on it (16 R401, R402). -/
def writeBackDie (s : State) (d : Nat) : State :=
  foldSt (fun s x => foldSt (fun s (e : Nat × HomeLine) =>
    if e.2.dirty && (x = d || (locate (keyPlace e.1) (keyAddr e.1)).die = d) then
      modDie (writeBack s e.1 e.2) x fun y => { y with home := tput e.1 { e.2 with dirty := false } y.home }
    else s) s (getDie s x).home) s (List.range 4)

/-- The words of a die's registry that are owner-lost. -/
def lostWords (s : State) (d : Nat) : List Nat := ((getDie s d).registry.filter fun e => e.2.lost).map Prod.fst

/-- Step 6: the die's registers and the caches of its cores. -/
def resetDie (s : State) (d : Nat) : State :=
  let s := modDie s d fun x =>
    { x with vways := 4, active := 4, busy := false, tcache := [], waiters := [], limited := false }
  foldSt (fun s c => modCore s c fun k => { k with tcache := [], icache := [], icacheCtx := none }) s
    ((List.range 48).map fun i => 48 * d + i)

/-- Step 8: the die's L2, registry and core memories are zeroed. -/
def zeroDie (s : State) (d : Nat) : State :=
  let s := modDie s d fun x => { x with home := [], visitor := [], registry := [], regOrder := [] }
  foldSt (fun s c => modCore (zeroCore s c) c fun k => { k with lastCtx := none }) s ((List.range 48).map fun i => 48 * d + i)

/-- What a step of the sequence does as it begins (16 R401). -/
def resetStep (s : State) (d : Nat) : Nat → State
  | 1 => foldSt preemptCluster (modDie s d fun x => { x with admitted := false }) (clustersOn s d)
  | 2 => evacuate s d
  | 3 => drainForReset s d
  | 4 =>
    let s := endRegistrations s fun x _ => x = d
    writeBackDie { s with dreset := { s.dreset with lost := s.dreset.lost ++ lostWords s d } } d
  | 5 => quiesceLink (quiesceLink (modDie (writeBackDie s d) d fun x => { x with homeDown := true }) (rowSeam d)) (colSeam d)
  | 6 => resetDie s d
  | 8 => zeroDie s d
  | 9 => foldSt (fun s l => if (getLink s l).state = .quiesced then beginRetraining s l else s) s [rowSeam d, colSeam d]
  | 10 => modDie s d fun x =>
      { x with homeDown := false, marked := false, admitted := true
               registry := s.dreset.lost.foldl (fun t k => tputD {} k { tgetD {} k t with lost := true } t) x.registry
               regOrder := s.dreset.lost.foldl (fun l k => if l.contains (k / 32) then l else l ++ [k / 32]) x.regOrder }
  | _ => s

/-- A step of the sequence has done its work (16 R401). -/
def resetStepDone (s : State) (d : Nat) : Nat → Bool
  | 1 => (clustersOn s d).isEmpty
  | 2 => !leavingDie s d
  | 3 => !registering s d
  | 5 => [rowSeam d, colSeam d].all fun l => !carries (getLink s l).state
  | 9 => [rowSeam d, colSeam d].all fun l => linkUp s l
  | _ => true

/-- What a step of the sequence does as it ends: step 2 marks the pages left on the die (16 R402), and step 3 drains what
was registered while it ran (16 R404). -/
def resetStepEnd (s : State) (d : Nat) : Nat → State
  | 2 => modDie s d fun x => { x with marked := true }
  | 3 => drainForReset s d
  | _ => s

/-- The sequence goes on to its next step, or ends. -/
def resetAdvance (s : State) : State :=
  let k := s.dreset.step + 1
  if 10 < k then { s with dreset := { s.dreset with busy := false, held := false, step := 0, lost := [] } }
  else resetStep { s with dreset := { s.dreset with step := k, held := false } } s.dreset.die.toNat k

/-- A seam of the die has FAILED as it was retrained: the sequence ends, and the die stays out, its owner-lost words
saved (16 R401, R402). -/
def resetFailed (s : State) (d : Nat) : Bool :=
  s.dreset.step = 9 && [rowSeam d, colSeam d].any fun l => (getLink s l).state = .failed || (getLink s l).state = .down

/-- The die-reset sequencer ends its present step, if the step has done its work (16 R400, R401). -/
def resetGoes (s : State) : State :=
  let d := s.dreset.die.toNat
  if !s.dreset.busy || s.dreset.held then s
  else if resetFailed s d then { s with dreset := { s.dreset with busy := false, step := 0 } }
  else if resetStepDone s d s.dreset.step then
    let s := resetStepEnd s d s.dreset.step
    if s.dreset.assisted then raiseIrq { s with dreset := { s.dreset with held := true } } 4 else resetAdvance s
  else s

/-- The die is the only one admitted. -/
def lastAdmitted (s : State) (d : Nat) : Bool := (List.range 4).all fun x => x = d || !dieAdmitted s x

/-- Begin a sequence (16 R400). -/
def startReset (s : State) (d : BitVec 2) : State :=
  let lost := if s.dreset.die = d then s.dreset.lost else []
  resetStep { s with dreset := { reg := d, die := d, step := 1, busy := true, assisted := !s.mode.getLsbD 4, lost := lost } } d.toNat 1

/-- DIE_RESET_START (16 R400): the register takes DIE; a start that may not be is ignored. -/
def execDieResetStart (die : BitVec 2) (s : State) : Host.Outcome State Fault Refusal :=
  .next (if s.dreset.busy || lastAdmitted s die.toNat then { s with dreset := { s.dreset with reg := die } } else startReset s die)

/-- DIE_RESET_CONTINUE (16 R400). -/
def execDieResetContinue (s : State) : Host.Outcome State Fault Refusal :=
  event s (s.dreset.busy && s.dreset.held) (resetAdvance s)

end Sys2Proof.Machine
end

