-- ==== Sys2Proof/Machine/Stops.lean ====
section
/-! DEFINITION. TRAP and BKPT (17 R420), the debug commands (17 R407, R411 to R414), single steps and their records, and
when a trace sample is due (17 R417). -/
namespace Sys2Proof.Machine

/-! ## TRAP and BKPT (17 R420) -/

/-- The recorded value: an s-register, or a uniform v-register zero-extended. -/
def trapValue (i : Iss) (a : Nat) : DWord :=
  match i with
  | .grp c => (vreg c a 0).zeroExtend 64
  | .fe c => sreg c a

/-- TRAP (17 R420): the restart PC is the unit after it. -/
def execTrap (g : BitVec 3) (a : BitVec 6) (c : BitVec 9) (s : State) : Host.Outcome State Fault Refusal :=
  sharedInstr s true [(a.toNat, 1)] [a.toNat] false false anyOne (.guard g) fun i =>
    .fault { code := cTRAP, addr := trapValue i a.toNat, detail := imm9 (issLit i) c, next := true }

/-- BKPT takes effect: a trigger event, and with BKEN a record and a stop (17 R416, R420). -/
def breakpoint (s : State) (i : Iss) (v : DWord) (code : Word) : State :=
  let core := issCore i
  let s := trigEvent s core (.bkpt (code.toNat % 8))
  if !s.dbg.dctl.getLsbD 0 then s
  else
    let b := issBlk i
    let h := handleOf b core (issThread i).who
    let rec_ := debugBytes s core b 1 cBREAK 0xFFFF s.clk.gts h v (issPc i) (code &&& 0x1FF) 0 []
    startStop (ringAppend s rec_) core h v (issPc i)

/-- BKPT (17 R420). -/
def execBkpt (g : BitVec 3) (a : BitVec 6) (c : BitVec 9) (s : State) : Host.Outcome State Fault Refusal :=
  sharedInstr s true [(a.toNat, 1)] [a.toNat] false false anyOne (.guard g) fun i =>
    .retire (breakpoint s i (trapValue i a.toNat) (imm9 (issLit i) c))

/-! ## The debug command register (17 R407) -/

/-- Word 0 of a command. -/
def dbgWord (cmd : BitVec 4) (core : BitVec 8) (sel : BitVec 6) (fe dest : Bool) : DWord :=
  (0 : BitVec 40) ++ (if dest then 1 else 0 : BitVec 1) ++ (if fe then 1 else 0 : BitVec 1) ++ sel ++ core ++ (0 : BitVec 4) ++ cmd

/-- The status of the command register. -/
def dbgStatus (s : State) (v : BitVec 2) : State := { s with dbg := { s.dbg with status := v } }

/-- A command is written: it is carried out or begun, or rejected with nothing changed. One written while another runs
is ignored (log entry 23). -/
def dbgCommand (s : State) (word : DWord) (arg : Option DWord) (f : State → Option State) : Host.Outcome State Fault Refusal :=
  event s (s.dbg.status ≠ 1)
    (let s := { s with dbg := { s.dbg with word0 := word, word1 := arg.getD s.dbg.word1 } }
    (f s).getD (dbgStatus s 3))

/-- The cluster of a core is held by a debug stop. -/
def clusterStopped (s : State) (core : Nat) : Bool := (coreCluster s core).any Cluster.stopped

/-- STOP (17 R407, R411). -/
def execDbgStop (core : BitVec 8) (s : State) : Host.Outcome State Fault Refusal :=
  dbgCommand s (dbgWord 1 core 0 false false) none fun s =>
    if (getBlk s core.toNat).isNone then none else some (dbgStatus (startStop s core.toNat 0 0 0) 2)

/-- RELEASE: stops under way are called off, and the threads go on unless their context or a pre-emption holds them (17
R413, 04 R89, 05 R131). -/
def releaseStop (s : State) (n : Nat) (cl : Cluster) : State :=
  let cs := clusterCores cl
  let s := modCl s n fun c => { c with stopped := false }
  let s := modFlight s fun f => { f with stops := f.stops.filter fun m => !cs.contains m.core }
  foldSt (fun s c =>
    let s := modBlk s c fun b => { b with stopCause := none, stepping := none }
    if cl.state = .running && (getBlk s c).any fun b => (getCtx s b.ctx).state ≠ .faulted then goOnAt s c else s) s cs

/-- RELEASE (17 R407, R413). -/
def execDbgRelease (core : BitVec 8) (s : State) : Host.Outcome State Fault Refusal :=
  dbgCommand s (dbgWord 2 core 0 false false) none fun s =>
    match getBlk s core.toNat, coreCluster s core.toNat with
    | some b, some cl => if cl.stopped then some (dbgStatus (releaseStop s b.cluster cl) 2) else none
    | _, _ => none

/-! ## Single steps (17 R414) -/

/-- Instructions that a thread has issued. -/
def issuedOf (b : Block) : Who → Nat
  | .fe => b.fe.issued
  | .grp g => ((tfind g b.groups).map Group.issued).getD 0

/-- The run state a thread has or keeps. -/
def keptRun (b : Block) : Who → Run
  | .fe => b.fe.run
  | .grp g => ((tfind g b.groups).map Group.run).getD .killed

/-- A thread of a stopped block is released for one unit; a WAITJ waits again in full and a WAITW compares again (07
R163, R184, 05 R145). -/
def beginStep (s : State) (core : Nat) (who : Who) : State :=
  let s := forgetWaits s ⟨core, who⟩
  let s := match who with
    | .fe => modFe s core fun e => { e with
        stopMark := e.issued
        wait := match e.wait with
          | .waitw _ => .none
          | w => w }
    | .grp g => modGrp s core g fun r => { r with
        stopMark := r.issued, splits := r.splits.map fun x => (x.1, waitAgain x.2) }
  modBlk s core fun b => { b with stepping := some { who := who, gen := threadGen b who, expires := s.clk.cycle + 2 ^ 16 } }

/-- STEP (17 R407, R414). -/
def execDbgStep (core : BitVec 8) (sel : BitVec 6) (fe : Bool) (s : State) : Host.Outcome State Fault Refusal :=
  let who : Who := if fe then .fe else .grp sel.toNat
  dbgCommand s (dbgWord 3 core sel fe false) none fun s =>
    match getBlk s core.toNat with
    | none => none
    | some b =>
      if !clusterStopped s core.toNat || keptRun b who = .exited || keptRun b who = .killed then none
      else some (dbgStatus (beginStep s core.toNat who) 1)

/-- The skids of a step record (17 R412, R414). -/
def stepSkids (b : Block) (st : Stepping) (issued : Bool) : List Byte :=
  (List.range 64).map fun g =>
    if st.who = .grp g then (if issued then 1 else 0)
    else match tfind g b.groups with
      | some r => if r.run = .exited || r.run = .killed then 0xFF else 0
      | none => 0xFF

/-- A step has ended: its record is written and the command completes (17 R414, R415). -/
def endStep (s : State) (core : Nat) (b : Block) (st : Stepping) (issued : Bool) : State :=
  let rec_ := debugBytes s core b 4 0 st.object s.clk.gts (handleOf b core st.who) 0 st.pc 0 0 (stepSkids b st issued)
  dbgStatus (modBlk (ringAppend s rec_) core fun b => { b with stepping := none }) 2

/-- The stepped thread stands at a unit boundary. -/
def stepBoundary (b : Block) : Who → Bool
  | .fe => atBoundary b.fe.pre
  | .grp g => (tfind g b.groups).all grpAtBoundary

/-- The marks from which a stepped thread's issues count. -/
def markOf (b : Block) : Who → Nat
  | .fe => b.fe.stopMark
  | .grp g => ((tfind g b.groups).map Group.stopMark).getD 0

/-- The kind of the thread's last record: 0 for a precise fault. -/
def lastKind (b : Block) (who : Who) : Byte :=
  let r := match who with
    | .fe => b.fe.lastRec
    | .grp g => (tfind g b.groups).bind Group.lastRec
  (r.map FaultRec.kind).getD 0

/-- A barrier object of a core is still to be evaluated in this cycle (14 R345): the records that a turn writes follow it, with
the phases it leaves (17 R414, R415). -/
def evalsPending (s : State) (core : Nat) : Bool := s.evals.any fun e => e.1 = core

/-- A record of a thread's fault has still to be delivered: the step record follows it (17 R414). -/
def recordPending (s : State) (t : Thread) (ctx : Nat) : Bool := (getCtx s ctx).pending.any fun r => r.thread = some t

/-- A step completes once its thread has issued a unit, or has faulted (17 R414). -/
def stepSettle (s : State) (core : Nat) : State :=
  match getBlk s core with
  | some b => match b.stepping with
    | some st =>
      let issued : Bool := markOf b st.who < issuedOf b st.who
      let faulted : Bool := keptRun b st.who = .faulted && threadGen b st.who ≠ st.gen
      if evalsPending s core || recordPending s ⟨core, st.who⟩ b.ctx then s
      else if faulted then endStep s core b st (lastKind b st.who ≠ 0)
      else if issued && stepBoundary b st.who then endStep s core b st true else s
    | none => s
  | none => s

/-- STEP_TIMEOUT (17 R414): the thread is stopped again at the unit it has not issued. -/
def execStepTimeout (s : State) : Host.Outcome State Fault Refusal :=
  let core := bitsOf s.dbg.word0.toNat 15 8
  match (getBlk s core).bind Block.stepping with
  | some st => event s (s.dbg.status = 1 && st.expires ≤ s.clk.cycle)
      (let s := match st.who with
        | .fe => modFe s core fun e => { e with pc := unitStart e.pre e.pc, pre := {}, clause := none, held := 0 }
        | .grp g => modGrp s core g fun r => { r with splits := r.splits.map fun x =>
            (x.1, if atBoundary x.2.pre then x.2 else toUnitStart x.2) }
      dbgStatus (modBlk s core fun b => { b with stepping := none }) 3)
  | none => .next s

/-! ## Stops that arrive (17 R411) -/

/-- STOP_ARRIVE (17 R411), in the order of the cluster crossbar (01 R28). -/
def execStopArrive (id : Nat) (s : State) : Host.Outcome State Fault Refusal :=
  match s.flight.stops.find? fun m => m.id = id with
  | some m => event s (!crossBefore s m.src m.core id && !seamHeld s (coreDie m.src) (coreDie m.core))
      (receiveStop (modFlight s fun f => { f with stops := f.stops.filter fun x => x.id ≠ id }) m.core m.cause)
  | none => .next s

/-! ## DUMP and WRITE (17 R407) -/

/-- Every result already issued by a block's engines and accesses has landed (17 R407, R411). -/
def resultsLanded (s : State) (core : Nat) : Bool :=
  match getBlk s core with
  | some b =>
    !b.copy.cmds.any CopyCmd.started && !b.mma.any MmaCmd.started && b.xfers.isEmpty
      && !s.flight.pool.any (fun r => r.src.core = core && !r.arrived)
      && !s.flight.poolInsts.any (fun e => e.src.core = core
          && (e.acks ≠ 0 || !s.flight.pool.any fun r => r.inst = e.id))
      && !s.flight.atgs.any (fun r => r.src.core = core)
      && !s.flight.global.any (fun r => r.thread.core = core && !isCompare r.op)
  | none => true

/-- The placement of host bus addresses (15 R367, R371). -/
def hostPlace : Word := 0x00000020

/-- The frame is written, and the command completes; with the host link not UP it cannot go to host memory. -/
def writeDump (s : State) (core : Nat) (b : Block) (dest : Bool) (arg : DWord) : State :=
  let bytes := frameBytes s core b
  let done (s : State) : State :=
    { s with dbg := { s.dbg with status := 2, result := BitVec.ofNat 64 frameSize, dump := none } }
  if dest then done { frameTaken s with mgmt := { s.mgmt with sent := bytes :: s.mgmt.sent } }
  else if linkUp s 16 then done (physPut (frameTaken s) hostPlace (alignDown arg.toNat 65536) bytes)
  else { s with dbg := { s.dbg with status := 3, dump := none } }

/-- A DUMP that waits is written once the results have landed. -/
def dumpSettle (s : State) : State :=
  match s.dbg.dump with
  | some (core, dest, arg) => match getBlk s core with
    | some b => if resultsLanded s core then writeDump s core b dest arg else s
    | none => { s with dbg := { s.dbg with status := 3, dump := none } }
  | none => s

/-- DUMP: of a block that is stopped, whatever stopped it (17 R407). -/
def execDbgDump (core : BitVec 8) (dest : Bool) (arg : BitVec 64) (s : State) : Host.Outcome State Fault Refusal :=
  dbgCommand s (dbgWord 4 core 0 false dest) (some arg) fun s =>
    if (getBlk s core.toNat).any fun b => b.stopping && allStopped b then
      some (dumpSettle { s with dbg := { s.dbg with status := 1, dump := some (core.toNat, dest, arg) } })
    else none

/-- WRITE (17 R407, R408). -/
def execDbgWrite (core : BitVec 8) (sel : BitVec 6) (arg : BitVec 64) (s : State) : Host.Outcome State Fault Refusal :=
  dbgCommand s (dbgWord 5 core sel false false) (some arg) fun s =>
    if (getBlk s core.toNat).isNone || 8 < sel.toNat then none
    else some (dbgStatus (modBlk s core.toNat fun b => writeDebug b sel.toNat arg) 2)

/-! ## Trace samples (17 R417) -/

/-- The next group that exists, from an index on. -/
def nextGroup (b : Block) (n : Nat) : Option (Nat × Group) :=
  match b.groups.find? fun e => n ≤ e.1 with
  | some e => some e
  | none => b.groups.head?

/-- TRACE_SAMPLE: a sample of this cycle is due; it is appended at the cycle's end, with the stall reason of the cycle (17
R417). -/
def execTraceSample (core : Nat) (s : State) : Host.Outcome State Fault Refusal :=
  match getBlk s core with
  | none => .next s
  | some b =>
    let period := 2 ^ (bitsOf b.trigNow.toNat 55 52 + 6)
    event s (b.trigNow.getLsbD 63 && b.trigNow.getLsbD 0 && !b.groups.isEmpty && b.sampledAt + period ≤ s.clk.cycle)
      (modBlk s core fun b => { b with sampleDue := true })

end Sys2Proof.Machine
end

