-- ==== Sys2Proof/Machine/Device.lean ====
section
/-! DEFINITION. Power, errors and self-test, and the millhouse (18 R421 to R431, 01 R14, 15 R377). -/
namespace Sys2Proof.Machine

/-! ## The millpond (18 R421 to R425) -/

/-- PLIMIT of PWRCFG in watts: the microjoules of one update (18 R421, R425). -/
def pondLimit (s : State) : Nat := min (bitsOf s.mgmt.pwrcfg.toNat 15 0) 1800

/-- FMIN of PWRCFG in steps (18 R425). -/
def pondFmin (s : State) : Nat :=
  let f := bitsOf s.mgmt.pwrcfg.toNat 55 48
  if f < 32 || 68 < f then 32 else f

/-- The three steps of an update (18 R421). -/
def pondStep (level : Int) (limit cap measured : Nat) : Int := min (level + limit) cap - measured

/-- A check of the clock is due (18 R422). -/
def checkDue (s : State) : Bool := s.mgmt.checked < s.mgmt.updates && s.mgmt.updates % 10 = 0

/-- MILLPOND_UPDATE (18 R421): once per GTS microsecond; the check of the tenth update comes before the eleventh (18
R422). -/
def execMillpondUpdate (measured : Nat) (s : State) : Host.Outcome State Fault Refusal :=
  event s (pondDue s && !checkDue s)
    { s with mgmt := { s.mgmt with
      level := pondStep s.mgmt.level (pondLimit s) (pondCap s) measured, updates := s.mgmt.updates + 1 } }

/-- The clock after a check (18 R422). -/
def clockStep (level : Int) (cap fmin f : Nat) : Nat :=
  if level < 0 then (if fmin < f then f - 1 else f)
  else if (cap : Int) < 8 * level then (if f < 68 then f + 1 else f)
  else f

/-- Set the clock; the part of a tick not yet counted keeps its length. -/
def setClock (s : State) (f : Nat) : State :=
  { s with clk := { s.clk with fstep := f, frac := s.clk.frac * f / s.clk.fstep } }

/-- CLOCK_CHECK (18 R422): at every tenth update. -/
def execClockCheck (s : State) : Host.Outcome State Fault Refusal :=
  event s (checkDue s)
    (setClock { s with mgmt := { s.mgmt with checked := s.mgmt.updates } }
      (clockStep s.mgmt.level (pondCap s) (pondFmin s) s.clk.fstep))

/-- CURRENT_LIMIT (18 R423): for the next microsecond. -/
def execCurrentLimit (die : BitVec 2) (s : State) : Host.Outcome State Fault Refusal :=
  .next (modDie s die.toNat fun d => { d with limited := true, limitEnd := s.clk.gts.toNat + 1000 })

/-- CURRENT_LIMIT_END (18 R423). -/
def execCurrentLimitEnd (die : BitVec 2) (s : State) : Host.Outcome State Fault Refusal :=
  event s ((getDie s die.toNat).limitEnd ≤ s.clk.gts.toNat) (modDie s die.toNat fun d => { d with limited := false })

/-! ## Units (18 R426)

The codes of the units and the meaning of a unit's index are the model's: 0 register bank (16 a core: core of the die *
16 + bank), 1 pool, 2 grist store, 3 tile store (core of the die), 4 L2 way (16 a slice), 5 registry (slice), 6 HBM row,
7 stack, 8 HBM channel (32 a stack), 9 second-tier channel, 10 seam module (16 a seam), 11 fabric lane (8 a link). -/

/-- Add one to a saturating count. -/
def sat32 (w : Word) : Word := if w = 0xFFFFFFFF then w else w + 1

/-- A test is of a unit. -/
def testOf (unit : Byte) (die : BitVec 2) (idx : BitVec 16) (t : SelfTest) : Bool :=
  t.unit = unit && t.die = die && t.idx = idx

/-- CORRECTED_ERROR (18 R426): it is logged, and a test of its unit starts unless one is under way. -/
def execCorrectedError (unit : BitVec 8) (die : BitVec 2) (idx : BitVec 16) (s : State) : Host.Outcome State Fault Refusal :=
  let t : SelfTest := { unit := unit, die := die, idx := idx, hw := s.mode.getLsbD 3 }
  .next { s with mgmt := { s.mgmt with
    corrected := sat32 s.mgmt.corrected
    tests := if s.mgmt.tests.any (testOf unit die idx) then s.mgmt.tests else s.mgmt.tests ++ [t] } }

/-! ## Lasting faults -/

/-- A register bank is mapped out (01 R14); the block on the core has lost what lay in it. -/
def loseBank (s : State) (core bank : Nat) : State :=
  if (getCore s core).banksOut.contains bank then s
  else modBlk (modCore s core fun c => { c with banksOut := c.banksOut ++ [bank] }) core fun b =>
    { b with banksLost := b.banksLost ++ [bank] }

/-- A core leaves placement, once its block has retired (18 R426). -/
def loseCore (s : State) (core : Nat) : State :=
  if coreTaken s core then modCore s core fun k => { k with removeAtRetire := true }
  else modCore s core fun k => { k with removed := true }

/-- An L2 way of a slice is disabled: its dirty lines are written back, or drain, and leave it (18 R426). A line that the
slice may not give up stays in it until it may (16 R402). -/
def loseWay (s : State) (d slice way : Nat) : State :=
  let here (e : Nat × Nat) : Bool := homeSlice (keyAddr e.1) = slice && e.2 = way
  let s := foldSt (fun s e => if here e && !pinned s d e.1 then evictHome s d e.1 else s) s (homeWaysOf (getDie s d))
  let s := foldSt (fun s e => if here e then evictVisitor s d e.1 else s) s (visitorWaysOf (getDie s d))
  modDie s d fun x =>
    { x with lastingWays := if x.lastingWays.contains (slice * 16 + way) then x.lastingWays else x.lastingWays ++ [slice * 16 + way] }

/-- A slice recalls every registration and runs with half its entries (18 R426). An entry whose line still has release marks
or an owner-lost bit stays, as far as there is room. -/
def halveRegistry (s : State) (d slice : Nat) : State :=
  let mine (k : Nat) : Bool := homeSlice (keyAddr k) = slice
  let s := foldSt (fun s e => if mine (e.1 / 32) && e.2.owner ≠ 0 then
      recallWord s (keyPlace (e.1 / 32)) (keyAddr (e.1 / 32) + 4 * (e.1 % 32)) else s) s (getDie s d).registry
  let s := modDie s d fun x => { x with
    regOrder := x.regOrder.filter fun k => !mine k || x.registry.any fun e => e.1 / 32 = k
    halved := if x.halved.contains slice then x.halved else x.halved ++ [slice] }
  let left := (getDie s d).regOrder.filter mine
  foldSt (fun s _ => freeOldest s d ((getDie s d).regOrder.filter mine)) s (List.range (left.length - 8192))

/-- A link retrains at reduced width (18 R426, 16 R384). -/
def loseLane (s : State) (l : Nat) : State :=
  let s := modLink s l fun k => { k with lost := min (k.lost + 1) (linkLanes l) }
  if linkUp s l then endUnrouted (beginRetraining s l) else s

/-! ## Pages of a failed stack or channel (15 R377) -/

/-- The pages of a context below a table: virtual address and leaf. -/
def pagesFrom (s : State) (va base : Nat) : List (Nat × Nat × Nat × Nat) → List (Nat × Leaf)
  | [] => []
  | (lv, sh, n, size) :: r => (List.range (2 ^ n)).flatMap fun idx =>
    let e := tableEntry s base idx
    let leaf := bitOf e 1
    let va := va + idx * 2 ^ sh
    if !bitOf e 0 || entryReserved e leaf || (lv = 4 && leaf) || (lv = 1 && !leaf) then []
    else if leaf then [(va, leafOf e (base + 16 * idx) size)]
    else pagesFrom s va (bitsOf e 51 12 * 4096) r

/-- The mapped pages of every context, with the context. -/
def allPages (s : State) : List (Nat × Nat × Leaf) :=
  s.ctxs.flatMap fun c =>
    if c.2.state = .free then [] else (pagesFrom s 0 c.2.ptroot tableLevels).map fun p => (c.1, p.1, p.2)

/-- A placement word uses a stack, an HBM channel or a second-tier channel. -/
def usesUnit (unit : Nat) (die idx : Nat) (p : Word) : Bool :=
  !placeRemote p && (placeDies p).contains die && (match unit with
    | 7 => placeTier p = 0 && (placeStacks p).contains idx
    | 8 => placeTier p = 0 && (placeStacks p).contains (idx / 32) && idx % 32 < 2 ^ placeChan p
    | _ => placeTier p = 1 && idx < 2 ^ placeChan p)

/-- The target placement word (15 R377); none when no channel is left to drop. -/
def retireTarget (unit idx : Nat) (p : Word) : Option Word :=
  if unit = 7 then some (p &&& ~~~ (BitVec.ofNat 32 (2 ^ (6 + idx))))
  else if placeChan p = 0 then none
  else some (p - 0x100)

/-- Frames of the reserve for a page: the first aligned address whose frame has not been retired, and the parts left
after it. -/
def reserveFrame (s : State) (p : Word) (n : Nat) : Option (Nat × Nat) :=
  let first := s.host.reserveFirst.toNat
  let used (a : Nat) : Nat := (a - first) / 65536 + n / 65536
  if s.host.reserveTier.toNat ≠ placeTier p then none
  else (((List.range s.host.reserveCount).map fun i => ((first + n - 1) / n + i) * n).find? fun a =>
      used a ≤ s.host.reserveCount && !retiredFrame s p a n).map fun a => (a, s.host.reserveCount - used a)

/-- A page enters RETIRED: every later access of it faults, and its frames are never placed again (15 R373, R377). -/
def enterRetired (s : State) (ctx va : Nat) (l : Leaf) : State :=
  let s := retireFrames (dropTranslations (writeState s l 4) fun e => e.ctx = ctx && e.va = pageBase l va) l
  { s with pages := { s.pages with failing := tdel (framePart (placeTier l.place) l.pa) s.pages.failing } }

/-- A page of a failed unit, which the page mailbox names so: it moves to a frame of the reserve, or is RETIRED (15 R377). -/
def retirePage (s : State) (u : DWord) (ctx va : Nat) (l : Leaf) : State :=
  let n := pageBytes l.size
  match retireTarget (bitsOf u.toNat 7 0) (bitsOf u.toNat 31 16) l.place with
    | none => enterRetired s ctx va l
    | some p => match reserveFrame s p n with
      | none => enterRetired s ctx va l
      | some (a, left) =>
        if placeUnusable s p a n then enterRetired s ctx va l
        else
          let m : Migration := { id := nextId s, ctx := ctx, va := va, by_ := .retire u, newPa := a, newPlace := p }
          let s := { s with host := { s.host with reserveFirst := BitVec.ofNat 64 (a + n), reserveCount := left } }
          bumpId { s with pages := { s.pages with queue := s.pages.queue ++ [m] } }

/-- A unit as the mailboxes name it (18 R425). -/
def unitWord (unit : Byte) (die : BitVec 2) (idx : BitVec 16) : DWord :=
  (0 : BitVec 32) ++ idx ++ (0 : BitVec 6) ++ die ++ unit

/-- Post a page to the page mailbox (15 R377, 16 R386). -/
def postPage (s : State) (ctx va : Nat) (u : DWord) : State :=
  raiseIrq { s with host := { s.host with pageCtx := ctx, pageVa := BitVec.ofNat 64 va, pageUnit := u } } 3

/-- A word uses the unit that a mailbox word names. -/
def usesNamed (u : DWord) (p : Word) : Bool :=
  usesUnit (bitsOf u.toNat 7 0) (bitsOf u.toNat 9 8) (bitsOf u.toNat 31 16) p

/-- A page that waits to be moved: one that is under re-striping waits for its end, one that no longer uses the unit needs
nothing. With RESTRIPE = 1 it moves or is RETIRED; with RESTRIPE = 0 it is posted once the host has served the page before it
(15 R377, 16 R386). -/
def movePost (s : State) (e : Nat × Nat × DWord) : State :=
  let done (s : State) : State := { s with pages := { s.pages with posts := s.pages.posts.erase e } }
  if s.pages.queue.any fun m => migPage m e.1 e.2.1 then s
  else match rawLeaf s e.1 e.2.1 with
    | none => done s
    | some l =>
      if l.state ≠ 0 || !usesNamed e.2.2 l.place then done s
      else if s.mode.getLsbD 5 then retirePage (done s) e.2.2 e.1 e.2.1 l
      else if s.host.irq.getLsbD 3 then s
      else postPage (done s) e.1 e.2.1 e.2.2

/-- The pages that wait to be moved, in their order. -/
def pagesSettle (s : State) : State := foldSt movePost s s.pages.posts

/-- The pages under re-striping whose new geometry uses a unit. -/
def comingPages (s : State) (u : DWord) : List (Nat × Nat) :=
  (s.pages.queue.filter fun m => m.stage ≠ .queued && usesNamed u m.newPlace).map fun m => (m.ctx, m.va)

/-- Every page whose geometry uses a failed unit is to move away; until then it stays MAPPED, and its accesses to the unit
report DATA_UNCORRECTABLE (15 R377). -/
def movePages (s : State) (unit : Byte) (die : BitVec 2) (idx : BitVec 16) : State :=
  let u := unitWord unit die idx
  let mine := (allPages s).filter fun e => usesNamed u e.2.2.place && e.2.2.state ≠ 4
  let failing := mine.foldl (fun t e => tput (framePart (placeTier e.2.2.place) e.2.2.pa) true t) s.pages.failing
  let posts := (mine.map fun e => (e.1, e.2.1, u)) ++ (comingPages s u).map fun e => (e.1, e.2, u)
  pagesSettle { s with pages := { s.pages with failing := failing, posts := s.pages.posts ++ posts } }

/-- What a lasting fault leads to (18 R426). -/
def applyLasting (s : State) (unit : Byte) (die : BitVec 2) (idx : BitVec 16) : State :=
  let d := die.toNat
  let i := idx.toNat
  let core (n : Nat) : Nat := 48 * d + n % 48
  match unit.toNat with
  | 0 => loseBank s (core (i / 16)) (i % 16)
  | 1 => loseCore s (core i)
  | 2 => loseCore s (core i)
  | 3 => loseCore s (core i)
  | 4 => loseWay s d (i / 16 % 32) (i % 16)
  | 5 => halveRegistry s d (i % 32)
  | 7 => movePages { s with mgmt := { s.mgmt with stacksOut := tput (d * 2 + i % 2) true s.mgmt.stacksOut } } unit die
      (BitVec.ofNat 16 (i % 2))
  | 8 => movePages { s with mgmt := { s.mgmt with chansOut := tput ((d * 2 + i / 32 % 2) * 32 + i % 32) true s.mgmt.chansOut } }
      unit die (BitVec.ofNat 16 (i % 64))
  | 9 => movePages { s with mgmt := { s.mgmt with tierOut := tput (d * 8 + i % 8) true s.mgmt.tierOut } } unit die
      (BitVec.ofNat 16 (i % 8))
  | _ => match unitLink unit i with
    | some l => loseLane s l
    | none => s

/-! ## Verdicts (18 R426, R427) -/

/-- A verdict takes effect: the unit returns to service, or its lasting fault is applied and logged. -/
def settleTest (s : State) (t : SelfTest) (lasting : Bool) : State :=
  let s := { s with mgmt := { s.mgmt with tests := s.mgmt.tests.filter fun x => !testOf t.unit t.die t.idx x } }
  if lasting then applyLasting { s with mgmt := { s.mgmt with lasting := sat32 s.mgmt.lasting } } t.unit t.die t.idx else s

/-- A verdict goes to the self-test mailbox (18 R425, R427). -/
def postVerdict (s : State) (t : SelfTest) (v : BitVec 2) : State :=
  raiseIrq { s with mgmt := { s.mgmt with
    tests := s.mgmt.tests.map fun x => if testOf t.unit t.die t.idx x then { x with posted := some v } else x
    mailUnit := t.unit, mailDie := t.die, mailIdx := t.idx, mailVerdict := v } } 5

/-- SELFTEST_VERDICT (18 R426, R427): applied, or posted once the mailbox is free. -/
def execSelftestVerdict (unit : BitVec 8) (die : BitVec 2) (idx : BitVec 16) (lasting : Bool) (s : State) :
    Host.Outcome State Fault Refusal :=
  match s.mgmt.tests.find? (testOf unit die idx) with
  | some t =>
    if t.hw then event s t.posted.isNone (settleTest s t lasting)
    else event s (!s.mgmt.tests.any fun x => x.posted.isSome) (postVerdict s t (if lasting then 2 else 1))
  | none => .next s

/-- SELFTEST_ACCEPT (18 R425, R427): the posted verdict is applied, and the mailbox is free. -/
def execSelftestAccept (s : State) : Host.Outcome State Fault Refusal :=
  match s.mgmt.tests.find? fun x => x.posted.isSome with
  | some t => .next (settleTest { s with mgmt := { s.mgmt with mailVerdict := 0 } } t (t.posted = some 2))
  | none => .next s

/-! ## The millhouse (18 R430, R431) -/

/-- Right after a cold reset, with what outlives it: the firmware image, the fuses, what has been sent out, and the
model's own agenda and count of free values. -/
def coldState (s : State) : State :=
  { State.reset with
    agenda := s.agenda, free := s.free
    mgmt := { State.reset.mgmt with image := s.mgmt.image, keyIndex := s.mgmt.keyIndex, sent := s.mgmt.sent } }

/-- The compute dies stay in reset, and the millhouse waits for an image (18 R430). -/
def enterRecovery (s : State) : State :=
  foldSt (fun s d => modDie s d fun x => { x with admitted := false, homeDown := true })
    { s with mgmt := { s.mgmt with recovery := true } } (List.range 4)

/-- COLD_RESET (18 R430): the boot ROM checks the image. -/
def execColdReset (s : State) : Host.Outcome State Fault Refusal :=
  .next (if Config.imageSigned s.mgmt.image then coldState s else enterRecovery (coldState s))

/-- RECOVERY_IMAGE (18 R430): accepted only in recovery, checked in the same way, and booted. -/
def execRecoveryImage (image : List (BitVec 8)) (s : State) : Host.Outcome State Fault Refusal :=
  event s (s.mgmt.recovery && Config.imageSigned image) (coldState { s with mgmt := { s.mgmt with image := image } })

/-- The bytes of a report: the firmware hash, the identity, the nonce, the GTS (18 R431). -/
def reportBytes (s : State) (nonce : BitVec 128) : List Byte :=
  natBytes 32 (Config.imageHash s.mgmt.image).toNat ++ natBytes 32 Config.identity.toNat ++ natBytes 16 nonce.toNat
    ++ natBytes 8 s.clk.gts.toNat

/-- The millhouse sends a report over the side-band: RASLOG, or power telemetry, whose form is open: the word of SY.ENERGY (18 R429,
log entry 154). -/
def sideBandReport (s : State) (ras : Bool) : State :=
  let w : DWord := if ras then s.mgmt.lasting ++ s.mgmt.corrected else syEnergy s
  { s with mgmt := { s.mgmt with sent := natBytes 8 w.toNat :: s.mgmt.sent } }

/-- ATTESTATION_REQUEST (18 R431): the key index is used up before the signature leaves; with none left it is refused. -/
def execAttestationRequest (nonce : BitVec 128) (s : State) : Host.Outcome State Fault Refusal :=
  let r := reportBytes s nonce
  event s (s.mgmt.keyIndex < 2 ^ 20)
    { s with mgmt := { s.mgmt with
      keyIndex := s.mgmt.keyIndex + 1, sent := (r ++ Config.lmsSign s.mgmt.keyIndex r) :: s.mgmt.sent } }

end Sys2Proof.Machine
end

