-- ==== Sys2Proof/Machine/Bus.lean ====
section
/-! DEFINITION. The host-link register space (00 R4, 16 R386): plain writes, what a register reads, and the writes that
stores to a command page bring (04 R88, 05 R116, 15 R366, 17 R405). -/
namespace Sys2Proof.Machine

/-! ## Plain registers (00 R4, 16 R386) -/

/-- Entries of the context fabric table, FID in [15:0] and EN in [16]: the one that an offset names and, from an offset that
is a multiple of 8, the next (16 R386, log entry 112). -/
def writeFabric (s : State) (off : Nat) (v : DWord) : State :=
  let w (i : Nat) : Word := BitVec.ofNat 32 (v.toNat / 2 ^ (32 * i) % 2 ^ 17)
  { s with host := { s.host with fabric := (List.range (if aligned off 8 then 2 else 1)).foldl (fun t i =>
      tputD 0 ((off - 0x2000) / 4 + i) (w i) t) s.host.fabric } }

/-- Bytes of the fabric route table, link in [3:0] and valid in [7]: the one that an offset names and, from an offset that is
a multiple of 8, the seven after it (16 R386, log entry 112). -/
def writeRoutes (s : State) (off : Nat) (v : DWord) : State :=
  { s with host := { s.host with route := (List.range (if aligned off 8 then 8 else 1)).foldl (fun t i =>
      tputD 0 (off - 0x6200 + i) (v.extractLsb' (8 * i) 8 &&& 0x8F) t) s.host.route } }

/-- A write of one register of the host-link space that only holds a value (16 R386, 17 R405, 18 R425). A command no
table lists is rejected (04 R88, 17 R407). -/
def writeRegister (s : State) (off : Nat) (v : DWord) : State :=
  let h := s.host
  let put (h : HostIf) : State := { s with host := h }
  let page : DWord := v &&& ~~~ 0xFFFF
  match off with
  | 0x0008 => { s with dreset := { s.dreset with reg := v.extractLsb' 2 2 } }
  | 0x0010 => put { h with irq := h.irq &&& ~~~ (v.truncate 6) }
  | 0x0040 =>
    let c := bitsOf v.toNat 3 0
    if h.ctxStatus ≠ 1 && (c = 0 || 5 < c) then put { h with ctxStatus := 3 } else s
  | 0x0048 => put { h with ctxCmd1 := v }
  | 0x0080 => { s with pages := { s.pages with shoot := { s.pages.shoot with word0 := v &&& 0xFFFFFFFFFFFFFF } } }
  | 0x60A0 => put { h with reserveFirst := v }
  | 0x60A8 => put { h with reserveCount := v.toNat }
  | 0x60B0 => put { h with reserveTier := v.truncate 2 }
  | 0x6100 => put { h with evacBase := v }
  | 0x6108 => put { h with evacCount := v.toNat }
  | 0x6180 => put { h with winBase := page }
  | 0x6188 => put { h with winSize := page.toNat }
  | 0x7000 => { s with dbg := { s.dbg with dctl := v &&& 3 } }
  | 0x7008 => { s with dbg := { s.dbg with drbase := v &&& 0x3FFFFFFFFFFFFF } }
  | 0x7010 => { s with dbg := { s.dbg with drlog := v.truncate 4 } }
  | 0x7020 =>
    let c := bitsOf v.toNat 3 0
    if s.dbg.status ≠ 1 && (c = 0 || 5 < c) then { s with dbg := { s.dbg with word0 := v, status := 3 } } else s
  | 0x7028 => { s with dbg := { s.dbg with word1 := v } }
  | 0x7100 => { s with mgmt := { s.mgmt with pwrcfg := v &&& 0xFFFFFFFFFFFFFF } }
  | _ =>
    if 0x2000 ≤ off && off < 0x6000 && aligned off 4 then writeFabric s off v
    else if 0x6200 ≤ off && off < 0x6600 then writeRoutes s off v
    else s

/-- REGISTER_WRITE (00 R4). -/
def execRegisterWrite (off : Nat) (v : BitVec 64) (s : State) : Host.Outcome State Fault Refusal :=
  .next (writeRegister s off v)

/-! ## What a register reads (00 R4) -/

/-- The code of a link's state (16 R384). -/
def linkCode : LinkState → BitVec 3
  | .down => 0
  | .training => 1
  | .up => 2
  | .quiescing => 3
  | .quiesced => 4
  | .retraining => 5
  | .failed => 6

/-- The status word of a link (16 R384). -/
def linkStatus (s : State) (l : Nat) : DWord :=
  let k := getLink s l
  BitVec.ofNat 16 k.retrains ++ BitVec.ofNat 16 k.replays ++ (0 : BitVec 6) ++ BitVec.ofNat 10 (if 4 ≤ l && l < 16 then k.peer else 0)
    ++ BitVec.ofNat 8 k.width ++ (0 : BitVec 4) ++ bit1 k.tsync ++ linkCode k.state

/-- The code of a queue's state (05 R116). -/
def queueCode : QueueState → BitVec 2
  | .free => 0
  | .open_ => 1
  | .paused => 2

/-- STATUS of a queue (05 R116). -/
def queueStatus (k : HwQueue) : DWord :=
  (0 : BitVec 16) ++ k.lastCode ++ (0 : BitVec 8) ++ BitVec.ofNat 16 k.drops ++ (0 : BitVec 4) ++ queueCode k.state ++ (0 : BitVec 1)
    ++ BitVec.ofNat 9 k.fifo.length

/-- The four registers of a queue: SUBMIT reads zero (05 R116). -/
def readQueue (k : HwQueue) (i : Nat) : DWord :=
  match i with
  | 1 => queueStatus k
  | 2 => (0 : BitVec 63) ++ bit1 k.pause
  | 3 => k.done
  | _ => 0

/-- The die-reset register (16 R400). -/
def readDieReset (s : State) : DWord :=
  (0 : BitVec 48) ++ maskWhere 4 4 (dieHomeDown s) ++ BitVec.ofNat 4 s.dreset.step ++ bit1 s.dreset.busy ++ (0 : BitVec 3)
    ++ s.dreset.reg ++ (0 : BitVec 2)

/-- Eight bytes of a list, from a place on. -/
def readBytes (b : List Byte) (i : Nat) : DWord := BitVec.ofNat 64 (fieldAt b i 8)

/-- A 64-bit register at an offset that is a multiple of 8 (16 R386). Where a mailbox's words are given only by name, each
takes the place of its order (log entry 132). -/
def readRegister (s : State) (off : Nat) : DWord :=
  let h := s.host
  match off with
  | 0x0000 => (0 : BitVec 47) ++ bit1 h.tmaster ++ (0 : BitVec 6) ++ BitVec.ofNat 10 h.devnum
  | 0x0008 => readDieReset s
  | 0x0010 => h.irq.zeroExtend 64
  | 0x0040 => h.ctxCmd0
  | 0x0048 => h.ctxCmd1
  | 0x0050 => h.ctxStatus.zeroExtend 64
  | 0x0080 => s.pages.shoot.word0
  | 0x0088 => s.pages.shoot.word1
  | 0x0090 => s.pages.shoot.status.zeroExtend 64
  | 0x6040 => h.faultLost ++ (0 : BitVec 31) ++ bit1 h.faultFull
  | 0x6048 => h.placeIndex ++ h.placeJob
  | 0x6050 => BitVec.ofNat 64 h.placeCores
  | 0x6058 => h.placeCorner.zeroExtend 64
  | 0x6060 => BitVec.ofNat 64 h.walkCtx
  | 0x6068 => h.walkVa
  | 0x6088 => BitVec.ofNat 64 h.pageCtx
  | 0x6090 => h.pageVa
  | 0x6098 => h.pageUnit
  | 0x60A0 => h.reserveFirst
  | 0x60A8 => BitVec.ofNat 64 h.reserveCount
  | 0x60B0 => h.reserveTier.zeroExtend 64
  | 0x6100 => h.evacBase
  | 0x6108 => BitVec.ofNat 64 h.evacCount
  | 0x6180 => h.winBase
  | 0x6188 => BitVec.ofNat 64 h.winSize
  | 0x7000 => s.dbg.dctl
  | 0x7008 => s.dbg.drbase
  | 0x7010 => s.dbg.drops ++ (0 : BitVec 28) ++ s.dbg.drlog
  | 0x7020 => s.dbg.word0
  | 0x7028 => s.dbg.word1
  | 0x7030 => s.dbg.status.zeroExtend 64
  | 0x7038 => s.dbg.result
  | 0x7100 => s.mgmt.pwrcfg
  | 0x7108 => s.mgmt.lasting ++ s.mgmt.corrected
  | 0x7110 => (0 : BitVec 30) ++ s.mgmt.mailVerdict ++ s.mgmt.mailIdx ++ (0 : BitVec 6) ++ s.mgmt.mailDie ++ s.mgmt.mailUnit
  | _ =>
    if 0x0100 ≤ off && off < 0x0220 then (if off % 16 = 0 then linkStatus s ((off - 0x0100) / 16) else 0)
    else if 0x1000 ≤ off && off < 0x1800 then readQueue (getQueue s ((off - 0x1000) / 0x20)) (off % 0x20 / 8)
    else if 0x2000 ≤ off && off < 0x6000 then
      tgetD 0 ((off - 0x2000) / 4 + 1) h.fabric ++ tgetD 0 ((off - 0x2000) / 4) h.fabric
    else if 0x6000 ≤ off && off < 0x6040 then readBytes h.faultRec (off - 0x6000)
    else if 0x6200 ≤ off && off < 0x6600 then
      BitVec.ofNat 64 (bytesNat ((List.range 8).map fun i => tgetD 0 (off - 0x6200 + i) h.route))
    else 0

/-! ## Stores to a command page (04 R88, 05 R116, 15 R366, 17 R405) -/

/-- The state that a meaning answers. -/
def stateOf (s : State) : Host.Outcome State Fault Refusal → State
  | .next t => t
  | .fault _ => s
  | .refused _ => s

/-- The context command register is written (04 R88). -/
def writeCtxCommand (s : State) (v : DWord) : State :=
  let ctx : BitVec 12 := v.extractLsb' 32 12
  let w := s.host.ctxCmd1
  match bitsOf v.toNat 3 0 with
  | 1 => stateOf s (execCtxOpen ctx w s)
  | 2 => stateOf s (execCtxSuspend ctx s)
  | 3 => stateOf s (execCtxResume ctx s)
  | 4 => stateOf s (execCtxClose ctx s)
  | 5 => stateOf s (execCtxUpdate ctx w s)
  | _ => writeRegister s 0x0040 v

/-- The debug command register is written (17 R407). -/
def writeDbgCommand (s : State) (v : DWord) : State :=
  let core : BitVec 8 := v.extractLsb' 8 8
  let sel : BitVec 6 := v.extractLsb' 16 6
  match bitsOf v.toNat 3 0 with
  | 1 => stateOf s (execDbgStop core s)
  | 2 => stateOf s (execDbgRelease core s)
  | 3 => stateOf s (execDbgStep core sel (v.getLsbD 22) s)
  | 4 => stateOf s (execDbgDump core (v.getLsbD 23) s.dbg.word1 s)
  | 5 => stateOf s (execDbgWrite core sel s.dbg.word1 s)
  | _ => writeRegister s 0x7020 v

/-- A register of a queue is written: SUBMIT, or PAUSE and FLUSH of CONTROL (05 R116, R117). -/
def writeQueue (s : State) (q : BitVec 6) (i : Nat) (v : DWord) : State :=
  match i with
  | 0 => stateOf s (execQueueSubmit q v s)
  | 2 =>
    let s := stateOf s (if v.getLsbD 0 then execQueuePause q s else execQueueUnpause q s)
    if v.getLsbD 1 then stateOf s (execQueueFlush q s) else s
  | _ => s

/-- A register that a command page reaches is written: those of the context command, the shootdown, the queues and the debug
block (04 R88, 05 R116, 15 R366, 17 R405, log entry 83). -/
def writeBus (s : State) (off : Nat) (v : DWord) : State :=
  if off = 0x0040 then writeCtxCommand s v
  else if off = 0x0048 || off = 0x0080 then writeRegister s off v
  else if off = 0x0088 then stateOf s (execShootdown s.pages.shoot.word0 v s)
  else if 0x1000 ≤ off && off < 0x1800 then writeQueue s (BitVec.ofNat 6 ((off - 0x1000) / 0x20)) (off % 0x20 / 8) v
  else if off = 0x7020 then writeDbgCommand s v
  else if 0x7000 ≤ off && off < 0x7040 then writeRegister s off v
  else s

/-- Some bytes of a register are written; the others keep what it reads. -/
def writeSome (s : State) (off : Nat) (bs : List (Nat × Byte)) : State :=
  let old := readRegister s off
  writeBus s off (BitVec.ofNat 64 (bytesNat ((List.range 8).map fun i =>
    ((bs.find? fun b => b.1 = i).map Prod.snd).getD (old.extractLsb' (8 * i) 8))))

/-- A write to this register starts a command, which takes the register after it as it then stands. -/
def startsCommand (off : Nat) : Bool := off = 0x0040 || off = 0x7020

/-- What a store has brought to registers is written: of one store, a register that starts a command last. -/
def busSettle (s : State) : State :=
  let l := s.flight.regWrites
  if l.isEmpty then s
  else
    let s := modFlight s fun f => { f with regWrites := [] }
    foldSt (fun s e => writeSome s e.1 e.2) s ((l.filter fun e => !startsCommand e.1) ++ l.filter fun e => startsCommand e.1)

end Sys2Proof.Machine
end

