-- ==== Sys2Proof/Machine/Issue.lean ====
section
/-! DEFINITION. Issue (03 R77, 07 R164, R165, R179): which thread issues what, the fetch of its word through the
instruction cache (06 R157), and what settles between turns. -/
namespace Sys2Proof.Machine

/-! ## Fetch (06 R157) -/

/-- The virtual address of an offset in a block's kernel image. -/
def codeVa (b : Block) (pc : Word) : Nat := (b.kernel + pc.zeroExtend 64).toNat

/-- The word at an offset, if the instruction cache of the core holds its line for the block's context. -/
def fetchWord (s : State) (core : Nat) (b : Block) (pc : Word) : Option Word :=
  let k := getCore s core
  let va := codeVa b pc
  if k.icacheCtx = some b.ctx then (tfind (va / 128) k.icache).map fun l => lineWord l (va % 128 / 4) else none

/-- The offset lies in the kernel's code (06 R148, R157). -/
def inCode (b : Block) (pc : Word) : Bool :=
  b.hdr.codeStart ≤ pc.toNat && pc.toNat < b.hdr.codeStart + b.hdr.codeSize

/-- Put a line into an instruction cache of 1024 lines. Which lines it gives up is open: here all of them. -/
def putLine (s : State) (core ctx va : Nat) (l : Line) : State :=
  modCore s core fun k =>
    let old := if k.icacheCtx = some ctx && k.icache.length < 1024 then k.icache else []
    { k with icache := tput (va / 128) l old, icacheCtx := some ctx }

/-- The outcome of a fetch: not yet known, a code, or the line's bytes. It waits while what serves the line is under test or its
link is held (18 R426, 16 R383). What a fetch of an owner-lost word gets is open: the home's value, without a fault (log entry
152). -/
def codeLine (s : State) (core : Nat) (b : Block) (va : Nat) : State × Option (Line ⊕ Byte) :=
  match askLeaf s core b.ctx va with
  | (s, none) => (s, none)
  | (s, some (.code c)) => (s, some (.inr (readCode c)))
  | (s, some (.leaf l)) => match leafRight l false false true with
    | some c => (s, some (.inr (readCode c)))
    | none =>
      let a := physAddr l (alignDown va 128)
      if homeTested s l.place a || routeHeld s (coreDie core) l.place a then (s, none)
      else if (sendCode s (coreDie core) l.place a).isSome || badAt s l.place a 128 then (s, some (.inr cTRANSLATION))
      else (if placeTier l.place = 3 then bumpFree s else s, some (.inl (lineOf (physBytes s l.place a 128))))

/-- The issuing thread's PC and block. -/
def fetcher (s : State) : Option (Block × Word) :=
  match groupCtx s with
  | some c => some (c.blk, c.spl.pc)
  | none => (feCtx s).map fun c => (c.blk, c.blk.fe.pc)

/-- The issuing thread is held, or faults at its PC. -/
def fetchEnds (s : State) (e : Eff) : State :=
  match groupCtx s with
  | some c => endGrp s c e
  | none => match feCtx s with
    | some c => endFe s c e
    | none => s

/-- INSTRUCTION_FETCH_FILL (06 R157): the line of the issuing thread's next word arrives, or the thread faults. -/
def execInstructionFetchFill (s : State) : Host.Outcome State Fault Refusal :=
  match fetcher s with
  | none => .next s
  | some (b, pc) =>
    if (fetchWord s s.cur.core b pc).isSome then .next s
    else
      let va := codeVa b pc
      match codeLine s s.cur.core b va with
      | (s, none) => .next (fetchEnds s (.hold 11))
      | (s, some (.inl l)) => .next (putLine s s.cur.core b.ctx va l)
      | (s, some (.inr c)) => .next (fetchEnds s (.fault { code := c, addr := BitVec.ofNat 64 va }))

/-! ## What an instruction names -/

/-- The predicates an instruction reads or writes, for the hold of a pending JSPAWN (05 R142). A constructor that is not
listed names none. -/
def namedPreds : Instr → List Nat
  | .scmp p _ _ _ _ | .ssel _ _ _ p | .dqpush p _ | .waitj p _ | .tcopy p _ _ | .tcopym p _ _ | .tfill p _ _
  | .tslot p _ _ | .tstore p _ _ | .tgather p _ _ | .tscatter p _ _ | .tstream p _ _ | .mclaim p _ _
  | .mma p _ _ _ _ _ _ | .bwait p _ _ | .barrw p _ _ | .btwait p _ _ _ | .jenq p _ _ _ | .jspawn p _ _
  | .msend p _ _ _ _ _ | .mrecv p _ _ _ _ _ | .mprobe p _ _ | .mcancel p _ | .mwake p _ _ _ _ _ | .greplay p _ _
  | .gkill p _ | .pgprobe p _ _ | .pgmig p _ _ _ _ | .vsel p _ _ _ | .br p _ | .bru p _ | .call p _ => [p.toNat]
  | .vadd g _ _ _ | .vsub g _ _ _ | .vmul g _ _ _ | .vmulhI g _ _ _ | .vmulhN g _ _ _ | .vmad g _ _ _ | .vand g _ _ _
  | .vor g _ _ _ | .vxor g _ _ _ | .vandn g _ _ _ | .vshl g _ _ _ | .vshr g _ _ _ | .vsar g _ _ _ | .vminI g _ _ _
  | .vminN g _ _ _ | .vmaxI g _ _ _ | .vmaxN g _ _ _ | .vabs g _ _ | .vclz g _ _ | .vpop g _ _ | .vbrev g _ _
  | .vbfe g _ _ _ | .vbfi g _ _ _ | .vaddi g _ _ _ | .vli g _ _ | .vmov g _ _ | .vlane g _ | .vshflIdx g _ _ _
  | .vshflUp g _ _ _ | .vshflDown g _ _ _ | .vshflXor g _ _ _ | .vredadd g _ _ | .vredmin g _ _ _ | .vredmax g _ _ _
  | .vscan g _ _ _ _ _ | .vmfsy g _ _ _ _ | .vtime g _ _ | .fadd g _ _ _ | .fsub g _ _ _ | .fmul g _ _ _
  | .ffma g _ _ _ | .ffms g _ _ _ | .fnma g _ _ _ | .fmin g _ _ _ | .fmax g _ _ _ | .fabs g _ _ | .fneg g _ _
  | .fclass g _ _ | .fround g _ _ _ | .cvt g _ _ _ _ | .cvtx g _ _ _ | .hadd2F16 g _ _ _ | .hmul2F16 g _ _ _
  | .hfma2F16 g _ _ _ | .hadd2Bf16 g _ _ _ | .hmul2Bf16 g _ _ _ | .hfma2Bf16 g _ _ _ | .dot4E4m3 g _ _ _
  | .dot4E5m2 g _ _ _ | .dot2Bf16 g _ _ _ | .idp4I8 g _ _ _ | .frcp g _ _ | .frsq g _ _ | .fsqrt g _ _ | .fexp2 g _ _
  | .flog2 g _ _ | .fsinp g _ _ | .fcosp g _ _ | .twid g _ _ _ | .bfly2 g _ _ _ | .cmul g _ _ _ | .cmad g _ _ _
  | .fredadd g _ _ | .fredmax g _ _ | .fredmin g _ _ | .brx g _ | .lbrk g | .dqpop g _ | .ldp g _ _ _ _ _ _
  | .stp g _ _ _ _ _ _ | .atp g _ _ _ _ _ | .stg g _ _ _ _ _ | .atg g _ _ _ _ _ | .drainst g | .fence g _ _
  | .invr g _ _ _ | .afence g | .pfill g _ _ _ | .twait g _ | .tquery g _ _ | .mrel g _ _ | .mfence g _
  | .accld g _ _ _ _ | .accst g _ _ _ _ | .accz g _ _ | .accwait g _ | .mquery g _ _ _ | .binit g _ _ _ _
  | .bjoin g _ | .bleave g _ | .barr g _ _ | .bexpect g _ _ | .bquery g _ _ _ _ | .jdone g _ | .jyield g
  | .waitw g _ _ | .jself g _ _ _ | .trap g _ _ | .bkpt g _ _ | .gstate g _ _ _ _ | .pgscrub g _ => [g.toNat]
  | .vcmp g p _ _ _ | .vballot g _ p | .fcmp g p _ _ _ => [g.toNat, p.toNat]
  | .vvote g p _ a | .pnot g p a => [g.toNat, p.toNat, a.toNat]
  | .pand g p a b | .por g p a b | .pxor g p a b => [g.toNat, p.toNat, a.toNat, b.toNat]
  | _ => []

/-- The barrier object an instruction names, for a step record (17 R415): a barrier instruction, MFENCE, a copy or
messaging command, PGMIG. -/
def namedBarrier (i : Iss) : Instr → Option (BitVec 16)
  | .binit _ _ _ _ n => some (localSpot (issBlk i) n.toNat)
  | .bjoin _ n | .bleave _ n | .barr _ _ n | .barrw _ _ n | .mfence _ n => some (localSpot (issBlk i) n.toNat)
  | .bwait _ a _ | .btwait _ a _ _ | .bexpect _ a _ | .bquery _ _ a _ _ => some ((opWord i a.toNat).truncate 16)
  | .tcopy _ _ b | .tcopym _ _ b | .tfill _ _ b | .tslot _ _ b | .tstore _ _ b | .tgather _ _ b | .tscatter _ _ b =>
    some ((opWide i b.toNat).truncate 16)
  | .msend _ _ _ _ x n | .mrecv _ _ _ _ x n | .mwake _ _ _ _ x n | .pgmig _ _ _ x n =>
    if x = 1 then none else some (localSpot (issBlk i) n.toNat)
  | _ => none

/-- The instruction waits for the predicate of a pending JSPAWN of its thread (05 R142). -/
def spawnHolds (s : State) (t : Thread) (i : Instr) : Bool :=
  (spawnOf s t).any fun d => d.pred ≠ 0 && (namedPreds i).contains d.pred

/-! ## Who may issue -/

/-- What a turn to issue comes to: nothing to execute, or an instruction. -/
inductive Pick where
  | idle (s : State)
  | run (s : State) (i : Instr)

/-- The STEP under way releases the thread (17 R414). -/
def stepped (b : Block) (who : Who) : Bool := (b.stepping.map Stepping.who) = some who

/-- A thread that is being stopped, or is stopped, issues only the rest of its unit; a stepped one issues one unit (03 R77,
17 R411, R414). -/
def stopAllows (b : Block) (who : Who) (stopped atStart whole : Bool) : Bool :=
  if stepped b who then !atStart || (whole && issuedOf b who ≤ markOf b who) else !stopped && (!b.stopping || !atStart)

/-- Note what a stepped thread issues, for its record (17 R415). -/
def noteStep (s : State) (core : Nat) (who : Who) (pc : Word) (i : Iss) (ins : Instr) : State :=
  modBlk s core fun b => { b with stepping := b.stepping.map fun st =>
    if st.who = who then { st with pc := pc, object := (namedBarrier i ins).getD 0xFFFF } else st }

/-- The word at a PC of the issuing thread: an instruction, or a fetch that misses; outside the code it is ILLEGAL (06
R157). -/
def issueWord (s : State) (i : Iss) (pc : Word) : Pick :=
  let core := issCore i
  if !inCode (issBlk i) pc then .idle (fetchEnds s (.fault { code := cILLEGAL }))
  else match fetchWord s core (issBlk i) pc with
    | none => .run s .instructionFetchFill
    | some w =>
      let ins := decodeWord w
      if spawnHolds s (issThread i) ins then .idle (fetchEnds s (.hold 2))
      else .run (noteStep s core (issThread i).who pc i ins) ins

/-- A turn of a front-end. -/
def pickFe (s : State) (core : Nat) : Pick :=
  match getBlk s core with
  | none => .idle s
  | some b =>
    let live : Bool := b.fe.run = .ready || b.fe.run = .active || b.fe.run = .waiting
    if !b.launched || !live || b.fe.issuedAt = some s.clk.cycle
      || !stopAllows b .fe b.fe.stopped (atBoundary b.fe.pre) true then .idle s
    else if b.fe.wait ≠ .none then .idle (finishWait s { core := core, who := .fe, split := 0 })
    else match feCtx s with
      | some c => issueWord s (.fe c) c.blk.fe.pc
      | none => .idle s

/-- The group issues nothing until an ATG of it has ended, or its reissued stores have (11 R283, 04 R112). -/
def groupHeld (s : State) (core g : Nat) (r : Group) : Bool :=
  (r.splits.any fun e => match e.2.wait with
    | .atg _ => true
    | _ => false)
  || s.flight.global.any fun q => q.again.isSome && q.thread = ⟨core, .grp g⟩

/-- The group loses this cycle to the over-current limit, which lasts 1 µs: it issues on alternate cycles only (18 R423). -/
def throttled (s : State) (core : Nat) : Bool :=
  let d := getDie s (coreDie core)
  d.limited && s.clk.gts.toNat < d.limitEnd && s.clk.cycle % 2 = 1

/-- A group that waits outside the active set is READY again once a split of it can go on (07 R163). -/
def wakeGroup (s : State) (core g k : Nat) (r : Group) : State :=
  match tfind k r.splits with
  | some x =>
    if x.wait ≠ .none && !waitMet s { core := core, who := .grp g, split := k } then s
    else if x.wait = .none && clauseHeld r.flags x then s
    else modGrp s core g fun r => { r with run := .ready }
  | none => s

/-! ## Arbitration (07 R164, 03 R81, log entry 8) -/

/-- A split can issue in this cycle, as far as it has been tried in it. -/
def ableSplit (s : State) (x : Split) : Bool :=
  x.wait = .none && x.busyUntil ≤ s.clk.cycle && !(x.held ≠ 0 && x.heldAt = s.clk.cycle)

/-- A member of an active set can issue in this cycle, as far as its splits have been tried in it. -/
def ableGroup (s : State) (core : Nat) (e : Nat × Group) : Bool :=
  e.2.run = .active && !e.2.stopped && e.2.admitted + 4 ≤ s.clk.cycle && e.2.issuedAt ≠ some s.clk.cycle
    && !groupHeld s core e.1 e.2 && e.2.splits.any fun x => ableSplit s x.2

/-- The rank of an issue level: high, normal, low (03 R81). -/
def prioRank (p : BitVec 2) : Nat := if p = 1 then 0 else if p = 2 then 2 else 1

/-- How far n comes after the one before it in a ring of m. -/
def ringAfter (m last n : Nat) : Nat := (n + m - last - 1) % m

/-- The place of a group in the choice of its partition, the lowest first: a member passed over for 64 cycles, then by
level, within a level round-robin from the member after the one that issued last (07 R164, 03 R81). -/
def groupRank (b : Block) (e : Nat × Group) : Nat :=
  (if 64 ≤ e.2.passed then 0 else 1 + prioRank e.2.prio) * 64 + ringAfter 64 (tgetD 63 (e.1 % 4) b.lastIssue) e.1

/-- The split has presented an instruction in this cycle that the special-function unit has not accepted (09 R237). -/
def sfuLost (s : State) (x : Split) : Bool := x.held = 8 && x.heldAt = s.clk.cycle

/-- The partition has issued in this cycle, or keeps its slot unused for a loser of the special-function unit, or another
member that can issue comes first (07 R164, 09 R237). -/
def groupLoses (s : State) (core g : Nat) (b : Block) (r : Group) : Bool :=
  let others := b.groups.filter fun e => e.1 % 4 = g % 4 && e.1 ≠ g
  r.issuedAt = some s.clk.cycle || others.any fun e =>
    e.2.issuedAt = some s.clk.cycle || (e.2.splits.any fun x => sfuLost s x.2)
      || (ableGroup s core e && groupRank b e < groupRank b (g, r))

/-- Another split of the group comes first: round-robin, from the one after the one that issued last (07 R164); or it has lost
this cycle's issue to the special-function unit. -/
def splitLoses (s : State) (k : Nat) (r : Group) : Bool :=
  r.splits.any fun e => e.1 ≠ k &&
    (sfuLost s e.2 || (ableSplit s e.2 && ringAfter 4 r.lastSplit e.1 < ringAfter 4 r.lastSplit k))

/-- A split that does not wait issues its next word, unless another one comes first; a stepped thread has no rival (17
R414). -/
def issueSplit (s : State) (b : Block) (c : GC) : Pick :=
  if s.clk.cycle < c.spl.busyUntil || groupHeld s c.core c.g c.grp then .idle s
  else if !stepped b (.grp c.g) && (groupLoses s c.core c.g b c.grp || splitLoses s c.k c.grp) then .idle s
  else issueWord s (.grp c) c.spl.pc

/-- A turn of a group's split. Splits merge before one of them issues (07 R179). -/
def pickGroup (s : State) (core g k : Nat) : Pick :=
  match getBlk s core with
  | none => .idle s
  | some b => match tfind g b.groups with
    | none => .idle s
    | some r =>
      let runs : Bool := r.run = .active || (stepped b (.grp g) && (r.run = .ready || r.run = .waiting))
      let atStart := match tfind k r.splits with
        | some x => atBoundary x.pre
        | none => true
      if !b.launched || !stopAllows b (.grp g) r.stopped atStart (grpAtBoundary r) then .idle s
      else if r.run = .waiting && !stepped b (.grp g) then .idle (wakeGroup s core g k r)
      else if !runs || (r.run = .active && s.clk.cycle < r.admitted + 4) || throttled s core then .idle s
      else
        let s := modGrp s core g mergeSplits
        match groupCtx s with
        | some c =>
          if c.spl.wait ≠ .none then .idle (finishWait s { core := core, who := .grp g, split := k })
          else issueSplit s b c
        | none => .idle s

/-- A turn to issue. -/
def pick (s : State) (a : Agent) : Pick :=
  let s := { s with cur := a }
  match a.who with
  | .fe => pickFe s a.core
  | .grp g => pickGroup s a.core g a.split

/-- A PC lies in an entry of the idempotent table. -/
def inRegion (b : Block) (n : Nat) (pc : Word) : Bool :=
  (b.hdr.idem[n]?).any fun e => e.1.toNat ≤ pc.toNat && pc.toNat < e.2.toNat

/-- The front-end has issued: a snapshot is taken as it issues the unit at a region's start, and a region is left with its
PC (05 R132, 06 R159). -/
def idemIssued (b : Block) (was e : FrontEnd) : FrontEnd :=
  let enters := if atBoundary was.pre then
      (List.range b.hdr.idem.length).find? fun i => (b.hdr.idem[i]?).any fun x => x.1 = was.pc
    else none
  match enters with
  | some i => { e with idem := if inRegion b i e.pc then some i else none, lastStart := some i, snapshot := was.regs }
  | none => { e with idem := e.idem.filter fun i => inRegion b i was.pc && inRegion b i e.pc }

/-- The block has issued its first instruction (06 R161). -/
def blockBegins (s : State) (b : Block) : Block :=
  if b.begun then b else { b with begun := true, firstGts := s.clk.gts }

/-- What an issue has counted: the cycle of the issue, the round-robin order, and no skid in the cycle of a stop's event (07
R164, 17 R412, R418). -/
def afterIssue (before s : State) (a : Agent) : State :=
  let sameCycle := (coreCluster s a.core).any fun c => c.stopped && c.stopCycle = s.clk.cycle
  match getBlk before a.core with
  | none => s
  | some b =>
    if (getBlk s a.core).map (fun x => issuedOf x a.who) = some (issuedOf b a.who) then s
    else
      let s := modBlk s a.core (blockBegins before)
      match a.who with
      | .fe => modFe s a.core fun e => { idemIssued b b.fe e with issuedAt := some s.clk.cycle }
      | .grp g =>
        let s := modBlk s a.core fun x => { x with lastIssue := tput (g % 4) g x.lastIssue }
        modGrp s a.core g fun r => { r with
          issuedAt := some s.clk.cycle, lastSplit := a.split, passed := 0
          stopMark := if sameCycle then r.issued else r.stopMark }

/-! ## What settles after each turn -/

/-- A block that is being stopped: threads at a unit boundary stop, and the stop record follows the last (17 R411). -/
def stopSettle (s : State) (core : Nat) : State :=
  match getBlk s core with
  | some b =>
    if !b.stopping then s
    else
      let s := modBlk s core stopThreads
      if evalsPending s core then s else stopRecord s core
  | none => s

/-- The walks that the device asked for and has now used. -/
def usedWalk (l : List (Nat × Nat)) (w : Walk) : Bool := l.any fun e => walkDone deviceCore e.1 e.2 w

/-- With WALK = 0 the device's own accesses need translations from the walk mailbox: what lacks one does nothing but ask for
it, and comes about again once it is there (15 R363, 04 R91, log entry 22). -/
def withWalks (s t : State) : State :=
  if t.flight.misses.isEmpty then
    if t.flight.taken.isEmpty then t
    else modFlight t fun f => { f with taken := [], walks := f.walks.filter fun w => !usedWalk f.taken w }
  else foldSt (fun s e => startWalk s deviceCore e.1 e.2 true) s t.flight.misses

/-- The words of the debug ring's PROD take the marks of the release with which it was written (17 R406). -/
def ringSettle (s : State) : State :=
  if !s.dbg.prodWritten then s
  else
    let s := { s with dbg := { s.dbg with prodWritten := false } }
    match ringPlace s with
    | some p => if placeRemote p then s
      else let r := devRelease s (admittedDies s); r.2.foldl (fun s m => putMark s p (bitsOf s.dbg.drbase.toNat 51 0) m) r.1
    | none => s

/-- What follows every turn without a step of its own. -/
def settle (s : State) : State :=
  let s := busSettle s
  let s := withWalks s (settleReturns s)
  let s := foldSt (fun s c => stepSettle (stopSettle s c) c) s (s.cores.map Prod.fst)
  ringSettle (pagesSettle (dumpSettle s))

/-! ## Turns that are no instruction -/

/-- A slice gives up a line; a dirty line whose memory is on a die under reset stays (16 R402). -/
def evictLine (s : State) (d : Nat) (visitor : Bool) (k : Nat) : State :=
  if visitor then evictVisitor s d k else if dieHomeDown s d || pinned s d k then s else evictHome s d k

/-- A word in memory, in a home line or in a pool takes an uncorrectable error (18 R428). -/
def upsetWord (s : State) (loc : Nat) : State := { s with bad := tput (loc / 4) true s.bad }

/-- The home of a word of a line marks it owner-lost, if the owner has a code (10 R268). -/
def loseWord (s : State) (owner : BitVec 3) (k i : Nat) : State :=
  let p := keyPlace k
  let a := keyAddr k + 4 * i
  if (regWord s p a).owner = owner then modReg s p a fun r => { r with owner := 0, lost := true } else s

/-- A word of a die's visitor copy takes an uncorrectable error: an OWNED word is lost to its home, a CLEAN one reports the
error (10 R268, 18 R428). -/
def upsetCopy (s : State) (d k i : Nat) : State :=
  match tfind k (getDie s d).visitor with
  | none => s
  | some v =>
    if v.owned.getLsbD i then loseWord (dropWord s d k i) (ownerOfDie d) k i
    else if v.clean.getLsbD i then putVisitor s d k { v with bad := putBit v.bad i true }
    else s

/-- A word of a link buffer takes an uncorrectable error: it is lost to its home (10 R259, R268). -/
def upsetBuffer (s : State) (k i : Nat) : State :=
  match s.flight.linkWords.find? fun w => w.key = k && w.word = i with
  | none => s
  | some w =>
    loseWord (modFlight s fun f => { f with linkWords := f.linkWords.filter fun x => !(x.key = k && x.word = i) })
      (BitVec.ofNat 3 (w.buf + 5)) k i

/-- The metadata of a block of 512 bytes takes an uncorrectable error (15 R372). -/
def upsetMeta (s : State) (block : Nat) : State := { s with badMeta := tput block true s.badMeta }

/-- The turns that remain, without the one taken. -/
def restOf (s : State) : State := { s with agenda := s.agenda.drop 1 }

/-- A row of the table without an encoding: a step of the device or of the outside world (95). -/
def isOccurrence (i : Instr) : Bool := (encode i).isEmpty

/-! ## A program placed from outside (log entry 1) -/

/-- The header of the block that runs a word placed at the first PC. -/
def probeHeader : Header := { nu := 32, na := 8, ng := 40, slots := 64, tiles := 16, barriers := 64, pool := 0x80000
                              feEntry := 0x40, grpEntry := 0x40, codeSize := 0x1000 }

/-- Its block: one group, in the active set. -/
def probeBlock : Block :=
  { job := 1, cluster := 1, member := 0, ctx := 0, hdr := probeHeader, kernel := 0x10000, launched := true
    fe := { pc := 0x40 }, groups := [(0, { run := .active, splits := [(0, { pc := 0x40, lanes := 0xFFFFFFFF })] })] }

/-- The class of an opcode is of the front-end only (03 R71). -/
def feOpcode (op : Nat) : Bool := op < 0x30 || (0xB0 ≤ op && op < 0xC0)

/-- Core 0 runs a block of one group whose next word is w, in its instruction cache; the next turn issues it. -/
def placeWord (s : State) (w : Word) : State :=
  let who : Who := if feOpcode (opcodeOf w) then .fe else .grp 0
  let line : Line := BitVec.ofNat 1024 (w.toNat * 2 ^ (8 * 0x40))
  let s := modCore s 0 fun k => { k with block := some probeBlock, icache := [(0x10040 / 128, line)], icacheCtx := some 0 }
  let s := modCtx s 0 fun c => { c with state := .active, cores := 1, jobs := 1 }
  { s with
    agenda := [{ dt := 4, act := .issue { core := 0, who := who, split := 0 } }]
    sched := { s.sched with
      jobs := tput 1 { num := 1, ctx := 0, queue := none, recAddr := 0, state := .running, hdr := probeHeader, root := 1
                       parent := 1, weight := 2 ^ 32 } s.sched.jobs
      clusters := tput 1 { job := 1, index := 0, x := 0, y := 0, w := 1, h := 1, state := .running } s.sched.clusters
      nextJob := 2, nextCluster := 2 } }

end Sys2Proof.Machine
end

