-- ==== Sys2Proof/Machine/Matrix.lean ====
section
/-! DEFINITION. The matrix engine (13 R320 to R340): slots, commands and their exact sums (02 R58), batches, transfers
between tiles and registers. -/
namespace Sys2Proof.Machine

/-! ## Geometry (13 R320) -/

/-- Output rows of a mode. -/
def modeRows (m : Nat) : Nat := if m = 5 then 128 else if m = 6 then 256 else 64

/-- Output columns of a mode. -/
def modeCols (m : Nat) : Nat := if m = 4 then 256 else if m = 5 then 128 else 64

/-- The sub-array that produces an output element. -/
def subOf (m row col : Nat) : Nat :=
  if m < 4 then m else if m = 4 then col / 64 else if m = 5 then row / 64 * 2 + col / 64 else row / 64

/-- The first output row that a sub-array produces. -/
def subRow (m k : Nat) : Nat := if m = 5 then k / 2 * 64 else if m = 6 then k * 64 else 0

/-- The number of a tile word (13 R321). -/
def tileKey (k t row col : Nat) : Nat := ((k * 16 + t) * 64 + row) * 64 + col

/-- The tile word of an output element (13 R320). -/
def outputKey (m t row col : Nat) : Nat := tileKey (subOf m row col) t (row % 64) (col % 64)

/-- The lane that owns an output row (13 R328). -/
def rowLane (m row : Nat) : Nat := row / (modeRows m / 32)

/-! ## Slots (13 R322 to R324) -/

/-- Change several slots. -/
def modSlots (s : State) (core : Nat) (ns : List Nat) (f : Slot → Slot) : State :=
  foldSt (fun s n => modSlot s core n f) s ns

/-- Slots b to b + n - 1. -/
def slotRun (b n : Nat) : List Nat := (List.range n).map (b + ·)

/-- The lowest run of n FREE slots below SLOTS (13 R323). -/
def freeRun (s : State) (core slots n : Nat) : Option Nat :=
  (List.range (slots + 1 - n)).find? fun b => (slotRun b n).all fun x => (getSlot s core x).state = 0

/-- MCLAIM (13 R323): vd takes the base as a uniform result. -/
def execMclaim (p : BitVec 3) (d : BitVec 7) (n : BitVec 14) (s : State) : Host.Outcome State Fault Refusal :=
  grpInstr s true fun c =>
    let k := (imm14 (grpLit c) n).toInt
    if regsPending s c [d.toNat] then .hold 2
    else chk ([(decide (k < 1 ∨ 64 < k), cILLEGAL)] ++ vecChecks c [(d.toNat, 1)] [] .uniform
        ++ [(predStaged c p.toNat, cSHAPE), bankCheck c 0 [d.toNat]]) <|
      let put (s : State) (v : Bool) : State :=
        setUniform (writePred s c.core c.g p.toNat c.spl.lanes (if v then c.spl.lanes else 0)) c p.toNat false
      match (if c.blk.hdr.slots < k.toNat then none else freeRun s c.core c.blk.hdr.slots k.toNat) with
      | none => .retire (put s false)
      | some b =>
        let s := modSlots s c.core (slotRun b k.toNat) fun x => { x with state := 1, header := 0 }
        .retire (put (writeReg s c d.toNat (lanesOf c.spl.lanes) fun _ => BitVec.ofNat 32 b) true)

/-- A slot is released (13 R322). -/
def releaseSlot (x : Slot) : Slot :=
  match x.state with
  | 0 => x
  | 5 => x
  | 2 => { x with state := 5 }
  | _ => if x.refs = 0 then { x with state := 0, header := 0 } else { x with state := 5 }

/-- MREL (13 R324). -/
def execMrel (g : BitVec 3) (a n : BitVec 7) (s : State) : Host.Outcome State Fault Refusal :=
  grpInstr s true fun c =>
    let k := (imm7 (grpLit c) n).toInt
    if regsPending s c [a.toNat] then .hold 2
    else chk [(decide (k < 1), cILLEGAL), (outOfRange c a.toNat 1, cREG_RANGE), (vtag c a.toNat ≠ .uniform, cSHAPE)] <|
      wholeGuard s c g.toNat <|
        let b := (vreg c a.toNat 0).toNat
        chk [bankCheck c g.toNat [a.toNat], (decide (63 < (b : Int) + k - 1), cILLEGAL)] <|
        .retire (modSlots s c.core (slotRun b k.toNat) releaseSlot)

/-! ## MMA (13 R325, R326) -/

/-- Change the matrix queue of a core's block. -/
def modMma (s : State) (core : Nat) (f : List MmaCmd → List MmaCmd) : State :=
  modBlk s core fun b => { b with mma := f b.mma }

/-- MMA (13 R325, R326). -/
def execMma (p : BitVec 3) (a b : BitVec 6) (t : BitVec 4) (m : BitVec 3) (c s' : BitVec 1) (s : State) :
    Host.Outcome State Fault Refusal :=
  grpInstr s false fun x =>
    let h := x.blk.hdr
    let subs := modeSubs m.toNat a.toNat b.toNat
    let beyond := subs.any fun y => 64 ≤ y.2.1 || h.slots ≤ y.2.1 || 64 ≤ y.2.2 || h.slots ≤ y.2.2
    chk [(m = 7, cILLEGAL), (beyond, cILLEGAL), (h.tiles ≤ t.toNat, cILLEGAL), (predStaged x p.toNat, cSHAPE)] <|
    let put (s : State) (v : Bool) : State :=
      setUniform (writePred s x.core x.g p.toNat x.spl.lanes (if v then x.spl.lanes else 0)) x p.toNat false
    if 64 ≤ x.blk.mma.length then .retire (put s false)
    else
      let id := nextId s
      let k : MmaCmd := { id := id, pc := x.spl.pc, mode := m, aslot := a.toNat, bslot := b.toNat, tile := t.toNat
                          acc := c = 1, sat := s' = 1, group := x.g, batch := x.grp.batch, lanes := x.spl.lanes
                          marked := [], held := [], after := id }
      let gone (n : Nat) : Bool := (getSlot s x.core n).state = 0 || (getSlot s x.core n).state = 5
      let k := { k with marked := (mmaSlots k).filter gone, held := (mmaSlots k).filter fun n => !gone n }
      let s := modSlots (bumpId s) x.core k.held fun y => { y with refs := y.refs + 1 }
      .retire (put (modMma s x.core fun q => q ++ [k]) true)

/-! ## Start (13 R327) -/

/-- Two commands use a sub-array in common. -/
def shareSub (m n : MmaCmd) : Bool :=
  (modeSubs m.mode.toNat m.aslot m.bslot).any fun x => (modeSubs n.mode.toNat n.aslot n.bslot).any fun y => x.1 = y.1

/-- The fields of a slot's header: TYPE, SKIND, GSZ, K. -/
def headerOf (s : State) (core n : Nat) : Nat × Nat × Nat × Nat :=
  let h := (getSlot s core n).header.toNat
  (bitsOf h 3 0, bitsOf h 5 4, bitsOf h 14 13, bitsOf h 12 6 * 8)

/-- The class of a type (02 R55). -/
def typeClass (t : Nat) : Nat := if t ≤ 5 then 0 else if t ≤ 10 then 1 else t

/-- The first reason for which a command completes with SLOT, with its slot (13 R327, R332). A slot marked at enqueue that is FAULTED
at the start gives both of the reasons 4 and 5: the model takes 5 (log entry 149). -/
def slotReason (s : State) (core : Nat) (m : MmaCmd) : Option (Nat × Nat) :=
  let ns := mmaSlots m
  let bad (n : Nat) : Option (Nat × Nat) :=
    if m.marked.contains n then some (5, n) else if (getSlot s core n).state = 4 then some (4, n) else none
  let inval (n : Nat) : Bool := let h := headerOf s core n; !headerValid h.1 h.2.1 h.2.2.1 h.2.2.2
  let k (n : Nat) : Nat := (headerOf s core n).2.2.2
  match ns.findSome? bad with
  | some r => some r
  | none => match ns.find? inval with
    | some n => some (2, n)
    | none => match ns.find? fun n => k n ≠ k (ns.getD 0 0) with
      | some n => some (1, n)
      | none =>
        ((modeSubs m.mode.toNat m.aslot m.bslot).find? fun x =>
          typeClass (headerOf s core x.2.1).1 ≠ typeClass (headerOf s core x.2.2).1).map fun x => (3, min x.2.1 x.2.2)

/-- The command at the head of those not started may start: its sub-arrays are idle, no slot of it is CLAIMED or
FILLING, and its group's earlier ACCST and ACCZ are in the tile store (13 R327, R337), and neither memory is under test (18 R426). -/
def mmaReady (s : State) (core : Nat) (b : Block) (m : MmaCmd) : Bool :=
  !coreTested s 2 core && !coreTested s 3 core && !(b.mma.any fun x => x.started && shareSub x m)
    && (mmaSlots m).all (fun n => (getSlot s core n).state ≠ 1 && (getSlot s core n).state ≠ 2)
    && !b.xfers.any fun x => x.group = m.group && x.kind ≠ 0 && x.id < m.id

/-- Change a queued matrix command. -/
def modOneMma (s : State) (core id : Nat) (f : MmaCmd → MmaCmd) : State :=
  modMma s core fun q => q.map fun m => if m.id = id then f m else m

/-- MMA_START (13 R327). -/
def execMmaStart (core : Nat) (s : State) : Host.Outcome State Fault Refusal :=
  match getBlk s core with
  | none => .next s
  | some b =>
    match b.mma.find? fun m => !m.started with
    | none => .next s
    | some m => event s (mmaReady s core b m)
        (modOneMma s core m.id fun m => { m with started := true, slotFault := slotReason s core m })

/-! ## The product (13 R328, 02 R58) -/

/-- The code of element k of a slot row (02 R52). -/
def slotCode (x : Slot) (t row k : Nat) : Nat :=
  let byte (i : Nat) : Nat := (tgetD 0 (256 * row + i) x.data).toNat
  if typeBits t = 4 then byte (k / 2) / 2 ^ (4 * (k % 2)) % 16
  else if typeBits t = 16 then byte (2 * k) + 256 * byte (2 * k + 1)
  else if t = 3 || t = 4 then byte k % 64 else byte k

/-- The scale and zero point of the group that holds an element (02 R53, R58). -/
def slotScale (x : Slot) (sk gsz row k : Nat) : Val × Nat :=
  let side (i : Nat) : Nat := (tgetD 0 (16 * row + i) x.side).toNat
  let j := k / scaleGroup sk gsz
  match sk with
  | 0 => (oneVal, 0)
  | 1 => (e8m0Val (side j), 0)
  | 2 => (valOf f16 (side (2 * j) + 256 * side (2 * j + 1)), 0)
  | _ => (valOf f16 (side (2 * j) + 256 * side (2 * j + 1)), side (8 + j))

/-- The exact sum of the terms of a group, as one term: NaN, an infinity or a finite sum. -/
def exactSum (ts : List Term) : Val :=
  let pos := ts.any fun t => t.v = .inf false
  let neg := ts.any fun t => t.v = .inf true
  if ts.any (fun t => match t.v with
      | .nan _ => true
      | _ => false) || (pos && neg) then .nan false
  else if pos then .inf false
  else if neg then .inf true
  else let e := minExp ts
       let x := sumAt e ts
       .num (x < 0) x.natAbs e

/-- A matrix zero is +0 (02 R56, R58). -/
def plusZero (c : Nat) : Nat := if c = 2 ^ 31 then 0 else c

/-- T of one K-group: P × S_A × S_B rounded once to binary32 (02 R58). -/
def groupTerm (p sa sb : Val) : Nat := plusZero (sumRound f32 rne [termMul (termMul p sa).v sb]).1

/-- The elements of a row in a K-group: their values less the zero point. -/
def groupVals (x : Slot) (t sk gsz row from_ n : Nat) : List Val :=
  (List.range n).map fun i => elemVal t (slotCode x t row (from_ + i)) (slotScale x sk gsz row (from_ + i)).2

/-- The exact product sum of one K-group. -/
def groupSum (xs ys : List Val) : Val := exactSum ((xs.zip ys).map fun v => termMul v.1 v.2)

/-- A finite integer sum. -/
def intOf (v : Val) : Int :=
  match v with
  | .num n m e => if n then -((m * 2 ^ e.toNat : Nat) : Int) else ((m * 2 ^ e.toNat : Nat) : Int)
  | _ => 0

/-- One K-group is added to the accumulator of an element (02 R58). -/
def accGroup (sat ints : Bool) (acc : Word) (p sa sb : Val) : Word :=
  if ints then
    let x := acc.toInt + intOf p
    if sat then BitVec.ofInt 32 (clampS 32 x) else BitVec.ofInt 32 x
  else
    let t := groupTerm p sa sb
    BitVec.ofNat 32 (plusZero (sumRound f32 rne [termOf (valOf f32 acc.toNat), termOf (valOf f32 t)]).1)

/-- The word of element (i, j) of a sub-array: K-groups in ascending order (13 R328, 02 R58). -/
def mmaWord (s : State) (core : Nat) (m : MmaCmd) (a b : Nat) (i j : Nat) (old : Word) : Word :=
  let x := getSlot s core a
  let y := getSlot s core b
  let ha := headerOf s core a
  let hb := headerOf s core b
  let n := kGroup ha.1
  let ints := typeClass ha.1 = 1 && ha.2.1 = 0 && hb.2.1 = 0
  (List.range (ha.2.2.2 / n)).foldl (fun acc g =>
    let k := g * n
    let p := groupSum (groupVals x ha.1 ha.2.1 ha.2.2.1 i k n) (groupVals y hb.1 hb.2.1 hb.2.2.1 j k n)
    accGroup m.sat ints acc p (slotScale x ha.2.1 ha.2.2.1 i k).1 (slotScale y hb.2.1 hb.2.2.1 j k).1)
    (if m.acc then old else 0)

/-- The tile of one sub-array takes its product, in the rows that the recorded lanes own (13 R328). -/
def mmaTile (s : State) (core : Nat) (m : MmaCmd) (sub : Nat × Nat × Nat) (tiles : Table Word) : Table Word :=
  let rows := (List.range 64).filter fun i => m.lanes.getLsbD (rowLane m.mode.toNat (subRow m.mode.toNat sub.1 + i))
  rows.foldl (fun t i => (List.range 64).foldl (fun t j =>
    let k := tileKey sub.1 m.tile i j
    tputD 0 k (mmaWord s core m sub.2.1 sub.2.2 i j (tgetD 0 k tiles)) t) t) tiles

/-- A command computes its product in every sub-array it uses. -/
def mmaProduct (s : State) (core : Nat) (m : MmaCmd) : State :=
  modCore s core fun k => { k with
    tiles := (modeSubs m.mode.toNat m.aslot m.bslot).foldl (fun t x => mmaTile s core m x t) k.tiles }

/-! ## Completion (13 R329, R332) -/

/-- The references of a command end; a RELEASED slot without any is FREE (13 R322). -/
def dropRefs (s : State) (core : Nat) (m : MmaCmd) : State :=
  modSlots s core m.held fun x =>
    let x := { x with refs := x.refs - 1 }
    if x.state = 5 && x.refs = 0 && !x.filling then { x with state := 0, header := 0 } else x

/-- The record of a command that completes with SLOT (13 R332), and what its group and batch keep of it. -/
def slotRecord (s : State) (core : Nat) (b : Block) (m : MmaCmd) (r : Nat × Nat) : State :=
  let bar := ((tfind m.group b.groups).bind fun g => (g.closed.find? fun x => x.num = m.batch).map Batch.bar)
  let s := agentRecord s b.ctx { blockRecord s core b (.grp m.group) cSLOT 2 with
    pc := m.pc
    barrier := match bar with
      | some n => localSpot b n
      | none => 0xFFFF
    detail := BitVec.ofNat 32 (0xC2 + r.2 % 64 * 2 ^ 8 + r.1 % 16 * 2 ^ 16 + m.batch.toNat % 2 ^ 12 * 2 ^ 20) }
  modGrp s core m.group fun g => { g with mmaFault := cSLOT, badBatches := tput m.batch.toNat cSLOT g.badBatches }

/-- MMA_COMPLETE (13 R329). -/
def execMmaComplete (core id : Nat) (s : State) : Host.Outcome State Fault Refusal :=
  match getBlk s core with
  | none => .next s
  | some b =>
    match b.mma.find? fun m => m.id = id with
    | none => .next s
    | some m => event s m.started
        (let t := match m.slotFault with
          | some r => slotRecord s core b m r
          | none => mmaProduct s core m
        modMma (dropRefs t core m) core fun q => q.filter fun x => x.id ≠ id)

/-! ## Batches (13 R330, R331) -/

/-- MFENCE (13 R330). -/
def execMfence (g : BitVec 3) (b : BitVec 6) (s : State) : Host.Outcome State Fault Refusal :=
  grpInstr s true fun c =>
    wholeGuard s c g.toNat <|
      match getBar s c.core b.toNat with
      | none => .fault (barErr (localSpot c.blk b.toNat))
      | some o =>
        if !isMember o (.grp c.g) then .fault (barErr (localSpot c.blk b.toNat))
        else .retire (modGrp s c.core c.g fun r =>
          { r with closed := r.closed ++ [{ num := r.batch, bar := b.toNat }], batch := r.batch + 1 })

/-- BATCH_ARRIVAL (13 R331): the group's oldest closed batch, whose commands have all completed. -/
def execBatchArrival (core grp : Nat) (s : State) : Host.Outcome State Fault Refusal :=
  match getBlk s core, getGrp s core grp with
  | some b, some r =>
    match r.closed with
    | [] => .next s
    | x :: _ => event s (!(b.mma.any fun m => m.group = grp && m.batch = x.num) && !batchHeld s core x.bar grp)
        (batchArrives s core x.bar grp (tfind x.num.toNat r.badBatches).isSome)
  | _, _ => .next s

/-! ## Transfers (13 R333 to R336) -/

/-- The transfer counter of a group. -/
def xferCount (b : Block) (g : Nat) : Nat := (b.xfers.filter fun x => x.group = g).length

/-- The view's fields are legal, and a LIT has not taken it out of its range (13 R333, 03 R76). -/
def viewBad (c : GC) (m : BitVec 3) (t : BitVec 4) : Bool :=
  m = 7 || c.blk.hdr.tiles ≤ t.toNat || (grpLit c).any fun p => p ≠ 0

/-- The fields of a transfer word: J, N, C0 (13 R333). -/
def transferWord (w : Word) : Nat × Nat × Nat := (bitsOf w.toNat 15 13, bitsOf w.toNat 12 8 + 1, bitsOf w.toNat 7 0)

/-- Put a transfer on its way. -/
def addXfer (s : State) (c : GC) (x : AccXfer) : State :=
  bumpId (modBlk s c.core fun b => { b with xfers := b.xfers ++ [{ x with id := nextId s, group := c.g }] })

/-- ACCLD and ACCST (13 R333 to R336): the checks, the holds, and what is put on its way. -/
def accMove (s : State) (load : Bool) (g d a : Nat) (m : BitVec 3) (t : BitVec 4) : Host.Outcome State Fault Refusal :=
  grpInstr s true fun c =>
    let full : Bool := load && fullHolds c
    if regsPending s c [a] then .hold (if full then 1 else 2)
    else
      let w := transferWord (vreg c a 0)
      let n := if outOfRange c a 1 then 1 else w.2.1
      let names := (List.range n).map (d + ·)
      let tags := load && names.any fun r => vtag c r ≠ .general
      if regsPending s c names then .hold (if full then 1 else 2)
      else chk [(viewBad c m t, cILLEGAL), (outOfRange c a 1 || outOfRange c d n, cREG_RANGE),
          (vtag c a ≠ .uniform || tags, cSHAPE)] <|
        let act := guarded c g
        if act = 0 then .retire s
        else chk [bankCheck c g (a :: names), (decide (modeRows m.toNat / 32 ≤ w.1 ∨ modeCols m.toNat < w.2.2 + w.2.1), cILLEGAL)] <|
          heldBy [(full, 1), (63 ≤ xferCount c.blk c.g, 12)] <|
            let x : AccXfer := { id := 0, kind := if load then 0 else 1, group := c.g, mode := m, tile := t.toNat, row := w.1
                                 n := w.2.1, col := w.2.2, lanes := act }
            if load then
              .retire (addXfer (takeFlag s c) c { x with dests := names.map (physReg c.spl), flag := clauseFlag c.spl.clause })
            else
              let words := (lanesOf act).flatMap fun i => (List.range n).map fun j => (i * 32 + j, vreg c (d + j) i)
              .retire (addXfer s c { x with words := words })

/-- ACCLD (13 R334). -/
def execAccld (g : BitVec 3) (d a : BitVec 7) (m : BitVec 3) (t : BitVec 4) (s : State) : Host.Outcome State Fault Refusal :=
  accMove s true g.toNat d.toNat a.toNat m t

/-- ACCST (13 R335). -/
def execAccst (g : BitVec 3) (v a : BitVec 7) (m : BitVec 3) (t : BitVec 4) (s : State) : Host.Outcome State Fault Refusal :=
  accMove s false g.toNat v.toNat a.toNat m t

/-- ACCZ (13 R335). -/
def execAccz (g m : BitVec 3) (t : BitVec 4) (s : State) : Host.Outcome State Fault Refusal :=
  grpInstr s true fun c =>
    chk [(viewBad c m t, cILLEGAL)] <|
    let act := guarded c g.toNat
    if act = 0 then .retire s
    else if 63 ≤ xferCount c.blk c.g then .hold 12
    else .retire (addXfer s c { id := 0, kind := 2, group := c.g, mode := m, tile := t.toNat, row := 0, n := 0, col := 0, lanes := act })

/-- ACCWAIT (13 R336). -/
def execAccwait (g : BitVec 3) (n : BitVec 14) (s : State) : Host.Outcome State Fault Refusal :=
  grpInstr s true fun c =>
    wholeGuard s c g.toNat <|
      if (xferCount c.blk c.g : Int) ≤ max 0 (imm14 (grpLit c) n).toInt then .retire s else .hold 12

/-- The output element of a lane and column in a transfer (13 R333). -/
def xferKey (x : AccXfer) (i c : Nat) : Nat :=
  outputKey x.mode.toNat x.tile (i * (modeRows x.mode.toNat / 32) + x.row) (x.col + c)

/-- An ACCLD writes its destinations (13 R334). -/
def landAccld (s : State) (core : Nat) (b : Block) (x : AccXfer) : State :=
  let tiles := (getCore s core).tiles
  modGrp s core x.group fun r =>
    { r with regs := (List.range x.n).foldl (fun t c =>
        putReg b.hdr t (x.dests.getD c 0) (lanesOf x.lanes) fun i => tgetD 0 (xferKey x i c) tiles) r.regs }

/-- An ACCST writes its words, and an ACCZ zeroes the rows its lanes own (13 R335). -/
def landAccst (s : State) (core : Nat) (x : AccXfer) : State :=
  let words := if x.kind = 1 then
      (lanesOf x.lanes).flatMap fun i => (List.range x.n).map fun c => (xferKey x i c, tgetD 0 (i * 32 + c) x.words)
    else
      let rows := (List.range (modeRows x.mode.toNat)).filter fun r => x.lanes.getLsbD (rowLane x.mode.toNat r)
      rows.flatMap fun r => (List.range (modeCols x.mode.toNat)).map fun c => (outputKey x.mode.toNat x.tile r c, 0)
  modCore s core fun k => { k with tiles := words.foldl (fun t w => tputD 0 w.1 w.2 t) k.tiles }

/-- A transfer comes before another: of the same group, or by the path that all groups share, which an ACCZ does not use (13
R336). -/
def xferBefore (y x : AccXfer) : Bool := y.id < x.id && (y.group = x.group || (y.kind ≠ 2 && x.kind ≠ 2))

/-- ACC_TRANSFER_COMPLETE (13 R336): the transfers are performed in issue order. -/
def execAccTransferComplete (core id : Nat) (s : State) : Host.Outcome State Fault Refusal :=
  match getBlk s core with
  | none => .next s
  | some b =>
    match b.xfers.find? fun x => x.id = id with
    | none => .next s
    | some x => event s (!coreTested s 3 core && !b.xfers.any (xferBefore · x))
        (let t := if x.kind = 0 then landAccld s core b x else landAccst s core x
        dropFlag (modBlk t core fun b => { b with xfers := b.xfers.filter fun y => y.id ≠ id }) ⟨core, .grp x.group⟩ x.flag)

/-! ## MQUERY (13 R338) -/

/-- What MQUERY reads. -/
def mquery (s : State) (c : GC) (sel n : Nat) : Word :=
  let inside := n < c.blk.hdr.slots
  match sel with
  | 0 =>
    let busy := (List.range 4).filter fun k => c.blk.mma.any fun m => m.started
      && (modeSubs m.mode.toNat m.aslot m.bslot).any fun x => x.1 = k
    c.grp.mmaFault ++ (0 : BitVec 6) ++ BitVec.ofNat 6 (xferCount c.blk c.g) ++ maskOf 4 busy ++ (0 : BitVec 1)
      ++ BitVec.ofNat 7 (64 - c.blk.mma.length)
  | 1 => c.grp.lastBatch ++ c.grp.batch
  | 2 => if inside then (getSlot s c.core n).header else 0
  | _ => if inside then BitVec.ofNat 32 ((getSlot s c.core n).state + (getSlot s c.core n).refs * 256) else 0

/-- MQUERY (13 R338). -/
def execMquery (g : BitVec 3) (d : BitVec 7) (n : BitVec 6) (k : BitVec 2) (s : State) : Host.Outcome State Fault Refusal :=
  grpInstr s true fun c =>
    if regsPending s c [d.toNat] then .hold 2
    else chk (vecChecks c [(d.toNat, 1)] [] .uniform ++ [bankCheck c g.toNat [d.toNat]]) <|
      .retire (writeReg s c d.toNat (activeLanes c g.toNat) fun _ => mquery s c k.toNat n.toNat)

end Sys2Proof.Machine
end

