-- ==== Sys2Proof/Machine/Dispatch.lean ====
section
/-! DEFINITION. The dispatch: one arm for each constructor of Instr, a direct call of its meaning. -/
namespace Sys2Proof.Machine

def exec (i : Instr) (s : State) : Host.Outcome State Fault Refusal :=
  match i with
  | .sadd d a b w => Sys2Proof.Machine.execSadd d a b w s
  | .ssub d a b w => Sys2Proof.Machine.execSsub d a b w s
  | .smul d a b w => Sys2Proof.Machine.execSmul d a b w s
  | .smulh d a b w u => Sys2Proof.Machine.execSmulh d a b w u s
  | .sand d a b w => Sys2Proof.Machine.execSand d a b w s
  | .sor d a b w => Sys2Proof.Machine.execSor d a b w s
  | .sxor d a b w => Sys2Proof.Machine.execSxor d a b w s
  | .sshl d a b w n => Sys2Proof.Machine.execSshl d a b w n s
  | .sshr d a b w n => Sys2Proof.Machine.execSshr d a b w n s
  | .ssar d a b w n => Sys2Proof.Machine.execSsar d a b w n s
  | .smin d a b w u => Sys2Proof.Machine.execSmin d a b w u s
  | .smax d a b w u => Sys2Proof.Machine.execSmax d a b w u s
  | .scmp p a b w c => Sys2Proof.Machine.execScmp p a b w c s
  | .ssel d a b p => Sys2Proof.Machine.execSsel d a b p s
  | .sclz d a w => Sys2Proof.Machine.execSclz d a w s
  | .spop d a w => Sys2Proof.Machine.execSpop d a w s
  | .saddi d n => Sys2Proof.Machine.execSaddi d n s
  | .sli d n => Sys2Proof.Machine.execSli d n s
  | .slih d n => Sys2Proof.Machine.execSlih d n s
  | .sldp d a w u => Sys2Proof.Machine.execSldp d a w u s
  | .sstp a b w => Sys2Proof.Machine.execSstp a b w s
  | .sj o => Sys2Proof.Machine.execSj o s
  | .sbz a o => Sys2Proof.Machine.execSbz a o s
  | .sbnz a o => Sys2Proof.Machine.execSbnz a o s
  | .scall o => Sys2Proof.Machine.execScall o s
  | .sret => Sys2Proof.Machine.execSret s
  | .stime d => Sys2Proof.Machine.execStime d s
  | .smfsy d n => Sys2Proof.Machine.execSmfsy d n s
  | .smtsy a n => Sys2Proof.Machine.execSmtsy a n s
  | .sexit => Sys2Proof.Machine.execSexit s
  | .dqpush p a => Sys2Proof.Machine.execDqpush p a s
  | .swait m => Sys2Proof.Machine.execSwait m s
  | .vadd g d a b => Sys2Proof.Machine.execVadd g d a b s
  | .vsub g d a b => Sys2Proof.Machine.execVsub g d a b s
  | .vmul g d a b => Sys2Proof.Machine.execVmul g d a b s
  | .vmulhI g d a b => Sys2Proof.Machine.execVmulhI g d a b s
  | .vmulhN g d a b => Sys2Proof.Machine.execVmulhN g d a b s
  | .vmad g d a b => Sys2Proof.Machine.execVmad g d a b s
  | .vand g d a b => Sys2Proof.Machine.execVand g d a b s
  | .vor g d a b => Sys2Proof.Machine.execVor g d a b s
  | .vxor g d a b => Sys2Proof.Machine.execVxor g d a b s
  | .vandn g d a b => Sys2Proof.Machine.execVandn g d a b s
  | .vshl g d a b => Sys2Proof.Machine.execVshl g d a b s
  | .vshr g d a b => Sys2Proof.Machine.execVshr g d a b s
  | .vsar g d a b => Sys2Proof.Machine.execVsar g d a b s
  | .vminI g d a b => Sys2Proof.Machine.execVminI g d a b s
  | .vminN g d a b => Sys2Proof.Machine.execVminN g d a b s
  | .vmaxI g d a b => Sys2Proof.Machine.execVmaxI g d a b s
  | .vmaxN g d a b => Sys2Proof.Machine.execVmaxN g d a b s
  | .vabs g d a => Sys2Proof.Machine.execVabs g d a s
  | .vclz g d a => Sys2Proof.Machine.execVclz g d a s
  | .vpop g d a => Sys2Proof.Machine.execVpop g d a s
  | .vbrev g d a => Sys2Proof.Machine.execVbrev g d a s
  | .vbfe g d a b => Sys2Proof.Machine.execVbfe g d a b s
  | .vbfi g d a b => Sys2Proof.Machine.execVbfi g d a b s
  | .vaddi g d a n => Sys2Proof.Machine.execVaddi g d a n s
  | .vli g d n => Sys2Proof.Machine.execVli g d n s
  | .vmov g d a => Sys2Proof.Machine.execVmov g d a s
  | .vcmp g p c a b => Sys2Proof.Machine.execVcmp g p c a b s
  | .vsel u d a b => Sys2Proof.Machine.execVsel u d a b s
  | .vlane g d => Sys2Proof.Machine.execVlane g d s
  | .vshflIdx g d a b => Sys2Proof.Machine.execVshflIdx g d a b s
  | .vshflUp g d a b => Sys2Proof.Machine.execVshflUp g d a b s
  | .vshflDown g d a b => Sys2Proof.Machine.execVshflDown g d a b s
  | .vshflXor g d a b => Sys2Proof.Machine.execVshflXor g d a b s
  | .vballot g d p => Sys2Proof.Machine.execVballot g d p s
  | .vvote g p f a => Sys2Proof.Machine.execVvote g p f a s
  | .vredadd g d a => Sys2Proof.Machine.execVredadd g d a s
  | .vredmin g d a u => Sys2Proof.Machine.execVredmin g d a u s
  | .vredmax g d a u => Sys2Proof.Machine.execVredmax g d a u s
  | .vscan g d a u x o => Sys2Proof.Machine.execVscan g d a u x o s
  | .pand g p a b => Sys2Proof.Machine.execPand g p a b s
  | .por g p a b => Sys2Proof.Machine.execPor g p a b s
  | .pxor g p a b => Sys2Proof.Machine.execPxor g p a b s
  | .pnot g p a => Sys2Proof.Machine.execPnot g p a s
  | .vmfsy g d h c n => Sys2Proof.Machine.execVmfsy g d h c n s
  | .vtime g d h => Sys2Proof.Machine.execVtime g d h s
  | .fadd g d a b => Sys2Proof.Machine.execFadd g d a b s
  | .fsub g d a b => Sys2Proof.Machine.execFsub g d a b s
  | .fmul g d a b => Sys2Proof.Machine.execFmul g d a b s
  | .ffma g d a b => Sys2Proof.Machine.execFfma g d a b s
  | .ffms g d a b => Sys2Proof.Machine.execFfms g d a b s
  | .fnma g d a b => Sys2Proof.Machine.execFnma g d a b s
  | .fmin g d a b => Sys2Proof.Machine.execFmin g d a b s
  | .fmax g d a b => Sys2Proof.Machine.execFmax g d a b s
  | .fabs g d a => Sys2Proof.Machine.execFabs g d a s
  | .fneg g d a => Sys2Proof.Machine.execFneg g d a s
  | .fcmp g p c a b => Sys2Proof.Machine.execFcmp g p c a b s
  | .fclass g d a => Sys2Proof.Machine.execFclass g d a s
  | .fround g d a x => Sys2Proof.Machine.execFround g d a x s
  | .cvt g d a o n => Sys2Proof.Machine.execCvt g d a o n s
  | .cvtx g d a b => Sys2Proof.Machine.execCvtx g d a b s
  | .hadd2F16 g d a b => Sys2Proof.Machine.execHadd2F16 g d a b s
  | .hmul2F16 g d a b => Sys2Proof.Machine.execHmul2F16 g d a b s
  | .hfma2F16 g d a b => Sys2Proof.Machine.execHfma2F16 g d a b s
  | .hadd2Bf16 g d a b => Sys2Proof.Machine.execHadd2Bf16 g d a b s
  | .hmul2Bf16 g d a b => Sys2Proof.Machine.execHmul2Bf16 g d a b s
  | .hfma2Bf16 g d a b => Sys2Proof.Machine.execHfma2Bf16 g d a b s
  | .dot4E4m3 g d a b => Sys2Proof.Machine.execDot4E4m3 g d a b s
  | .dot4E5m2 g d a b => Sys2Proof.Machine.execDot4E5m2 g d a b s
  | .dot2Bf16 g d a b => Sys2Proof.Machine.execDot2Bf16 g d a b s
  | .idp4I8 g d a b => Sys2Proof.Machine.execIdp4I8 g d a b s
  | .frcp g d a => Sys2Proof.Machine.execFrcp g d a s
  | .frsq g d a => Sys2Proof.Machine.execFrsq g d a s
  | .fsqrt g d a => Sys2Proof.Machine.execFsqrt g d a s
  | .fexp2 g d a => Sys2Proof.Machine.execFexp2 g d a s
  | .flog2 g d a => Sys2Proof.Machine.execFlog2 g d a s
  | .fsinp g d a => Sys2Proof.Machine.execFsinp g d a s
  | .fcosp g d a => Sys2Proof.Machine.execFcosp g d a s
  | .twid g d a b => Sys2Proof.Machine.execTwid g d a b s
  | .bfly2 g d a b => Sys2Proof.Machine.execBfly2 g d a b s
  | .cmul g d a b => Sys2Proof.Machine.execCmul g d a b s
  | .cmad g d a b => Sys2Proof.Machine.execCmad g d a b s
  | .fredadd g d a => Sys2Proof.Machine.execFredadd g d a s
  | .fredmax g d a => Sys2Proof.Machine.execFredmax g d a s
  | .fredmin g d a => Sys2Proof.Machine.execFredmin g d a s
  | .br c o => Sys2Proof.Machine.execBr c o s
  | .bru c o => Sys2Proof.Machine.execBru c o s
  | .brx g a => Sys2Proof.Machine.execBrx g a s
  | .join => Sys2Proof.Machine.execJoin s
  | .waitj p t => Sys2Proof.Machine.execWaitj p t s
  | .call c o => Sys2Proof.Machine.execCall c o s
  | .ret => Sys2Proof.Machine.execRet s
  | .loop l c e => Sys2Proof.Machine.execLoop l c e s
  | .loops l c u e => Sys2Proof.Machine.execLoops l c u e s
  | .rot b n => Sys2Proof.Machine.execRot b n s
  | .lbrk g => Sys2Proof.Machine.execLbrk g s
  | .lsave a => Sys2Proof.Machine.execLsave a s
  | .lrest a => Sys2Proof.Machine.execLrest a s
  | .dqpop g d => Sys2Proof.Machine.execDqpop g d s
  | .exit => Sys2Proof.Machine.execExit s
  | .yield => Sys2Proof.Machine.execYield s
  | .ldp g d a w m x u => Sys2Proof.Machine.execLdp g d a w m x u s
  | .stp g v a w q x c => Sys2Proof.Machine.execStp g v a w q x c s
  | .atp g d a o q u => Sys2Proof.Machine.execAtp g d a o q u s
  | .stg g v a w q c => Sys2Proof.Machine.execStg g v a w q c s
  | .atg g d a o q u => Sys2Proof.Machine.execAtg g d a o q u s
  | .drainst g => Sys2Proof.Machine.execDrainst g s
  | .fence g q u => Sys2Proof.Machine.execFence g q u s
  | .invr g n a u => Sys2Proof.Machine.execInvr g n a u s
  | .afence g => Sys2Proof.Machine.execAfence g s
  | .pfill g n a x => Sys2Proof.Machine.execPfill g n a x s
  | .tcopy p a b => Sys2Proof.Machine.execTcopy p a b s
  | .tcopym p a b => Sys2Proof.Machine.execTcopym p a b s
  | .tfill p a b => Sys2Proof.Machine.execTfill p a b s
  | .tslot p a b => Sys2Proof.Machine.execTslot p a b s
  | .tstore p a b => Sys2Proof.Machine.execTstore p a b s
  | .tgather p a b => Sys2Proof.Machine.execTgather p a b s
  | .tscatter p a b => Sys2Proof.Machine.execTscatter p a b s
  | .tstream p a b => Sys2Proof.Machine.execTstream p a b s
  | .twait g n => Sys2Proof.Machine.execTwait g n s
  | .tquery g d u => Sys2Proof.Machine.execTquery g d u s
  | .mclaim p d n => Sys2Proof.Machine.execMclaim p d n s
  | .mrel g a n => Sys2Proof.Machine.execMrel g a n s
  | .mma p a b t m c u => Sys2Proof.Machine.execMma p a b t m c u s
  | .mfence g b => Sys2Proof.Machine.execMfence g b s
  | .accld g d a m t => Sys2Proof.Machine.execAccld g d a m t s
  | .accst g v a m t => Sys2Proof.Machine.execAccst g v a m t s
  | .accz g m t => Sys2Proof.Machine.execAccz g m t s
  | .accwait g n => Sys2Proof.Machine.execAccwait g n s
  | .mquery g d n u => Sys2Proof.Machine.execMquery g d n u s
  | .binit g a l f n => Sys2Proof.Machine.execBinit g a l f n s
  | .bjoin g n => Sys2Proof.Machine.execBjoin g n s
  | .bleave g n => Sys2Proof.Machine.execBleave g n s
  | .barr g d n => Sys2Proof.Machine.execBarr g d n s
  | .bwait p a h => Sys2Proof.Machine.execBwait p a h s
  | .barrw p d n => Sys2Proof.Machine.execBarrw p d n s
  | .btwait p a h t => Sys2Proof.Machine.execBtwait p a h t s
  | .bexpect g a b => Sys2Proof.Machine.execBexpect g a b s
  | .bquery g d a h u => Sys2Proof.Machine.execBquery g d a h u s
  | .jenq p a b q => Sys2Proof.Machine.execJenq p a b q s
  | .jspawn p a b => Sys2Proof.Machine.execJspawn p a b s
  | .jdone g a => Sys2Proof.Machine.execJdone g a s
  | .jyield g => Sys2Proof.Machine.execJyield g s
  | .waitw g a b => Sys2Proof.Machine.execWaitw g a b s
  | .jself g d h u => Sys2Proof.Machine.execJself g d h u s
  | .msend p a b r x n => Sys2Proof.Machine.execMsend p a b r x n s
  | .mrecv p a b j x n => Sys2Proof.Machine.execMrecv p a b j x n s
  | .mprobe p d a => Sys2Proof.Machine.execMprobe p d a s
  | .mcancel p a => Sys2Proof.Machine.execMcancel p a s
  | .mwake p a b r x n => Sys2Proof.Machine.execMwake p a b r x n s
  | .trap g a c => Sys2Proof.Machine.execTrap g a c s
  | .bkpt g a c => Sys2Proof.Machine.execBkpt g a c s
  | .greplay p a f => Sys2Proof.Machine.execGreplay p a f s
  | .gkill p a => Sys2Proof.Machine.execGkill p a s
  | .gstate g a b k n => Sys2Proof.Machine.execGstate g a b k n s
  | .pgprobe p a b => Sys2Proof.Machine.execPgprobe p a b s
  | .pgmig p a b x n => Sys2Proof.Machine.execPgmig p a b x n s
  | .pgscrub g a => Sys2Proof.Machine.execPgscrub g a s
  | .clause w l a b => Sys2Proof.Machine.execClause w l a b s
  | .lit p => Sys2Proof.Machine.execLit p s
  | .mod n u r => Sys2Proof.Machine.execMod n u r s
  | .prio l => Sys2Proof.Machine.execPrio l s
  | .definedHint w => Sys2Proof.Machine.execDefinedHint w s
  | .illegalEncoding w => Sys2Proof.Machine.execIllegalEncoding w s
  | .instructionFetchFill => Sys2Proof.Machine.execInstructionFetchFill s
  | .registerWrite off v => Sys2Proof.Machine.execRegisterWrite off v s
  | .coldReset => Sys2Proof.Machine.execColdReset s
  | .recoveryImage image => Sys2Proof.Machine.execRecoveryImage image s
  | .attestationRequest nonce => Sys2Proof.Machine.execAttestationRequest nonce s
  | .ctxOpen ctx desc => Sys2Proof.Machine.execCtxOpen ctx desc s
  | .ctxSuspend ctx => Sys2Proof.Machine.execCtxSuspend ctx s
  | .ctxResume ctx => Sys2Proof.Machine.execCtxResume ctx s
  | .ctxClose ctx => Sys2Proof.Machine.execCtxClose ctx s
  | .ctxUpdate ctx desc => Sys2Proof.Machine.execCtxUpdate ctx desc s
  | .suspendComplete ctx => Sys2Proof.Machine.execSuspendComplete ctx s
  | .zeroingComplete ctx => Sys2Proof.Machine.execZeroingComplete ctx s
  | .faultRecordAppend ctx => Sys2Proof.Machine.execFaultRecordAppend ctx s
  | .faultMailboxFree => Sys2Proof.Machine.execFaultMailboxFree s
  | .queueSubmit q addr => Sys2Proof.Machine.execQueueSubmit q addr s
  | .queuePause q => Sys2Proof.Machine.execQueuePause q s
  | .queueUnpause q => Sys2Proof.Machine.execQueueUnpause q s
  | .queueFlush q => Sys2Proof.Machine.execQueueFlush q s
  | .acceptanceDraw => Sys2Proof.Machine.execAcceptanceDraw s
  | .jobAccept job => Sys2Proof.Machine.execJobAccept job s
  | .jspawnResolve job => Sys2Proof.Machine.execJspawnResolve job s
  | .dispatch => Sys2Proof.Machine.execDispatch s
  | .placementMailboxGo corner => Sys2Proof.Machine.execPlacementMailboxGo corner s
  | .coreZeroingComplete core => Sys2Proof.Machine.execCoreZeroingComplete core s
  | .clusterLaunch cl => Sys2Proof.Machine.execClusterLaunch cl s
  | .budgetExhausted cl => Sys2Proof.Machine.execBudgetExhausted cl s
  | .clusterSave cl => Sys2Proof.Machine.execClusterSave cl s
  | .idempotentDiscard cl => Sys2Proof.Machine.execIdempotentDiscard cl s
  | .blockRetire core => Sys2Proof.Machine.execBlockRetire core s
  | .wakeWritePerform id => Sys2Proof.Machine.execWakeWritePerform id s
  | .waitwCompare id => Sys2Proof.Machine.execWaitwCompare id s
  | .activeSetRefill core part => Sys2Proof.Machine.execActiveSetRefill core part s
  | .activeSetLeave core grp => Sys2Proof.Machine.execActiveSetLeave core grp s
  | .waitjTimeout core grp split => Sys2Proof.Machine.execWaitjTimeout core grp split s
  | .poolPortAccess id => Sys2Proof.Machine.execPoolPortAccess id s
  | .poolLoadReply id => Sys2Proof.Machine.execPoolLoadReply id s
  | .remoteStoreAck id => Sys2Proof.Machine.execRemoteStoreAck id s
  | .serviceRequestArrive id => Sys2Proof.Machine.execServiceRequestArrive id s
  | .serviceReply id => Sys2Proof.Machine.execServiceReply id s
  | .homeStore id => Sys2Proof.Machine.execHomeStore id s
  | .storeAck id => Sys2Proof.Machine.execStoreAck id s
  | .recall id => Sys2Proof.Machine.execRecall id s
  | .forwardedRead id => Sys2Proof.Machine.execForwardedRead id s
  | .visitorFill id => Sys2Proof.Machine.execVisitorFill id s
  | .atomicAtHome id => Sys2Proof.Machine.execAtomicAtHome id s
  | .globalAtomicReply id => Sys2Proof.Machine.execGlobalAtomicReply id s
  | .drainOrder id => Sys2Proof.Machine.execDrainOrder id s
  | .drainAck id => Sys2Proof.Machine.execDrainAck id s
  | .linkBufferStore buf addr data => Sys2Proof.Machine.execLinkBufferStore buf addr data s
  | .linkBufferWriteback buf => Sys2Proof.Machine.execLinkBufferWriteback buf s
  | .staleGenerationReturn id => Sys2Proof.Machine.execStaleGenerationReturn id s
  | .storeFaultReport id => Sys2Proof.Machine.execStoreFaultReport id s
  | .l2splitWrite die v => Sys2Proof.Machine.execL2splitWrite die v s
  | .l2splitDone die => Sys2Proof.Machine.execL2splitDone die s
  | .pageWalk id => Sys2Proof.Machine.execPageWalk id s
  | .frameOwnerZeroing id => Sys2Proof.Machine.execFrameOwnerZeroing id s
  | .walkMailboxDone leaf => Sys2Proof.Machine.execWalkMailboxDone leaf s
  | .walkMailboxFault => Sys2Proof.Machine.execWalkMailboxFault s
  | .shootdown word0 word1 => Sys2Proof.Machine.execShootdown word0 word1 s
  | .shootdownComplete => Sys2Proof.Machine.execShootdownComplete s
  | .restripeCheck id => Sys2Proof.Machine.execRestripeCheck id s
  | .restripePassEnd id => Sys2Proof.Machine.execRestripePassEnd id s
  | .restripeFinalCopy id => Sys2Proof.Machine.execRestripeFinalCopy id s
  | .restripeShootdownAck id cache => Sys2Proof.Machine.execRestripeShootdownAck id cache s
  | .restripeAbort id dieLoss => Sys2Proof.Machine.execRestripeAbort id dieLoss s
  | .copyDataLand core cmd tr => Sys2Proof.Machine.execCopyDataLand core cmd tr s
  | .copyTransferFault core cmd tr => Sys2Proof.Machine.execCopyTransferFault core cmd tr s
  | .copyCommandComplete core cmd => Sys2Proof.Machine.execCopyCommandComplete core cmd s
  | .mcidReplicaUpdate id => Sys2Proof.Machine.execMcidReplicaUpdate id s
  | .mcidRelease cl mcid => Sys2Proof.Machine.execMcidRelease cl mcid s
  | .streamPrefetch core stream => Sys2Proof.Machine.execStreamPrefetch core stream s
  | .mmaStart core => Sys2Proof.Machine.execMmaStart core s
  | .mmaComplete core id => Sys2Proof.Machine.execMmaComplete core id s
  | .batchArrival core grp => Sys2Proof.Machine.execBatchArrival core grp s
  | .accTransferComplete core id => Sys2Proof.Machine.execAccTransferComplete core id s
  | .remoteBarrierOp id => Sys2Proof.Machine.execRemoteBarrierOp id s
  | .barrierReply id => Sys2Proof.Machine.execBarrierReply id s
  | .childArrival id => Sys2Proof.Machine.execChildArrival id s
  | .phaseNotice id => Sys2Proof.Machine.execPhaseNotice id s
  | .errorArrival id => Sys2Proof.Machine.execErrorArrival id s
  | .absWaitPoll id => Sys2Proof.Machine.execAbsWaitPoll id s
  | .btwaitTimeout core who split => Sys2Proof.Machine.execBtwaitTimeout core who split s
  | .msgHeaderArrive id => Sys2Proof.Machine.execMsgHeaderArrive id s
  | .msgPull id => Sys2Proof.Machine.execMsgPull id s
  | .msgDataLand id => Sys2Proof.Machine.execMsgDataLand id s
  | .msgCompletion id => Sys2Proof.Machine.execMsgCompletion id s
  | .mwakeAck id => Sys2Proof.Machine.execMwakeAck id s
  | .linkEnable link => Sys2Proof.Machine.execLinkEnable link s
  | .linkQuiesce link => Sys2Proof.Machine.execLinkQuiesce link s
  | .linkDisable link => Sys2Proof.Machine.execLinkDisable link s
  | .trainingSuccess link => Sys2Proof.Machine.execTrainingSuccess link s
  | .trainingFailure link => Sys2Proof.Machine.execTrainingFailure link s
  | .linkQuiesced link => Sys2Proof.Machine.execLinkQuiesced link s
  | .replayLimit link => Sys2Proof.Machine.execReplayLimit link s
  | .crcFailure link => Sys2Proof.Machine.execCrcFailure link s
  | .timeExchange link t1 t2 t3 t4 => Sys2Proof.Machine.execTimeExchange link t1 t2 t3 t4 s
  | .dieResetStart die => Sys2Proof.Machine.execDieResetStart die s
  | .dieResetContinue => Sys2Proof.Machine.execDieResetContinue s
  | .dbgStop core => Sys2Proof.Machine.execDbgStop core s
  | .dbgRelease core => Sys2Proof.Machine.execDbgRelease core s
  | .dbgStep core sel fe => Sys2Proof.Machine.execDbgStep core sel fe s
  | .dbgDump core dest arg => Sys2Proof.Machine.execDbgDump core dest arg s
  | .dbgWrite core sel arg => Sys2Proof.Machine.execDbgWrite core sel arg s
  | .stepTimeout => Sys2Proof.Machine.execStepTimeout s
  | .stopArrive id => Sys2Proof.Machine.execStopArrive id s
  | .traceSample core => Sys2Proof.Machine.execTraceSample core s
  | .millpondUpdate measured => Sys2Proof.Machine.execMillpondUpdate measured s
  | .clockCheck => Sys2Proof.Machine.execClockCheck s
  | .currentLimit die => Sys2Proof.Machine.execCurrentLimit die s
  | .correctedError unit die idx => Sys2Proof.Machine.execCorrectedError unit die idx s
  | .selftestVerdict unit die idx lasting => Sys2Proof.Machine.execSelftestVerdict unit die idx lasting s
  | .selftestAccept => Sys2Proof.Machine.execSelftestAccept s
  | .currentLimitEnd die => Sys2Proof.Machine.execCurrentLimitEnd die s
  | .peerRequest link kind op addr data => Sys2Proof.Machine.execPeerRequest link kind op addr data s
  | .afenceDieAck id die => Sys2Proof.Machine.execAfenceDieAck id die s
  | .pgscrubScanDone id => Sys2Proof.Machine.execPgscrubScanDone id s
  | .devnumWrite v => Sys2Proof.Machine.execDevnumWrite v s

end Sys2Proof.Machine
end

