-- ==== Sys2Proof/Machine/Order.lean ====
section
/-! DEFINITION. The order of the events of one cycle (05 R140, 07 R165, R176, R184, 12 R319, 13 R323, R326, R336, R340,
14 R345, 15 R376, 16 R397, R404): an
event that the manual puts before one this cycle has already seen does not come about in it (log entry 120). -/
namespace Sys2Proof.Machine

/-- What an event of a cycle takes part in, its rank there, and whether only one of that rank may come about. -/
structure Rank where
  key : Nat
  rank : Nat
  once : Bool := false
  deriving DecidableEq, Repr

/-- The key of a resource: its kind, a core or job, a number. -/
def orderKey (kind n i : Nat) : Nat := (kind * 2 ^ 40 + n) * 2 ^ 16 + i

/-- The matrix queue, the copy queue, the claims and the transfer path of a core (13 R326, R323, R336, 12 R319). -/
def mmaQueueKey (core : Nat) : Nat := orderKey 0 core 0
def copyQueueKey (core : Nat) : Nat := orderKey 1 core 0
def claimKey (core : Nat) : Nat := orderKey 2 core 0
def pathKey (core : Nat) : Nat := orderKey 3 core 0

/-- A slot, a tile and a barrier object of a core (13 R340, 14 R345). -/
def slotKey (core n : Nat) : Nat := orderKey 4 core n
def tileOrderKey (core t : Nat) : Nat := orderKey 5 core t
def objectKey (core i : Nat) : Nat := orderKey 6 core i

/-- The program enqueues of the package, the sluice, a job's weight, a cluster's budget, and the retirements (05 R140). -/
def enqueueKey : Nat := orderKey 7 0 0
def sluiceKey : Nat := orderKey 8 0 0
def weightKey (job : Nat) : Nat := orderKey 9 job 0
def budgetKey (cl : Nat) : Nat := orderKey 10 cl 0
def retireKey : Nat := orderKey 11 0 0
def placeKey : Nat := orderKey 12 0 0

/-- The send queue and the table of receives of a core, its overflow queue, and the home of a die (16 R397, R404). -/
def sendsKey (core : Nat) : Nat := orderKey 13 core 0
def recvsKey (core : Nat) : Nat := orderKey 13 core 1
def overflowKey (core : Nat) : Nat := orderKey 13 core 2
def homeKey (d : Nat) : Nat := orderKey 14 d 0

/-- The decision queue of a block, a group's WAITJ, the active set of a partition (07 R165, R176, R184), a page under re-striping
(15 R376). -/
def queueKey (core : Nat) : Nat := orderKey 15 core 0
def joinKey (core g : Nat) : Nat := orderKey 16 core g
def activeKey (core part : Nat) : Nat := orderKey 17 core part
def pageKey (mig : Nat) : Nat := orderKey 18 mig 0

/-- The event may still come about in this cycle. -/
def mayRank (s : State) (r : Rank) : Bool :=
  let d := tgetD 0 r.key s.done
  if r.once then d < r.rank else d ≤ r.rank

/-- The event has come about in this cycle. -/
def noteRank (s : State) (r : Rank) : State := { s with done := tput r.key r.rank s.done }

/-- The barrier objects of a core that a turn has changed. -/
def touchedObjects (s t : State) : List (Nat × Nat) :=
  s.cores.flatMap fun e => match e.2.block with
    | some b => ((List.range b.hdr.barriers).filter fun i =>
        (getBar t e.1 i).isSome && getBar s e.1 i ≠ getBar t e.1 i).map fun i => (e.1, i)
    | none => []

/-- The slots of a core whose state or references a turn has changed. -/
def touchedSlots (s t : State) (core : Nat) : List Nat :=
  let mark (u : State) (n : Nat) : Option (Nat × Nat) :=
    (tfind n (getCore u core).slots).map fun x => (x.state, x.refs)
  (List.range 64).filter fun n => mark s n ≠ mark t n

/-- The place of a thread in the order of its core's enqueues: the front-end, then the groups (05 R140). -/
def enqueueRank (core : Nat) : Who → Nat
  | .fe => 1 + core * 128
  | .grp g => 2 + core * 128 + g

/-- The place of an issuing thread's partition, after what comes before all of them. -/
def partRank : Who → Nat
  | .fe => 2
  | .grp g => 2 + g % 4

/-- The place of an operation on a barrier object among those of a cycle: arrivals, BEXPECT, joins and leaves, BINIT (14
R345). -/
def objectRank : Instr → Nat
  | .barr _ _ _ | .barrw _ _ _ => 2
  | .bexpect _ _ _ => 3
  | .bjoin _ _ | .bleave _ _ | .exit | .sexit => 4
  | .binit _ _ _ _ _ => 5
  | _ => 0

/-- Entries of the decision queue that a turn has freed: they count before a push of the same cycle (07 R176). -/
def freedRanks (s t : State) (core : Nat) : List Rank :=
  let used (u : State) : Nat := ((getBlk u core).map queueUsed).getD 0
  if used t < used s then [{ key := queueKey core, rank := 1 }] else []

/-- A WAITJ of a group has ended in a turn (07 R184). -/
def joinRanks (s t : State) (core g : Nat) (rank : Nat) : List Rank :=
  let waits (u : State) : Nat := ((getGrp u core g).map fun r => (r.splits.filter fun e => isWaitj e.2.wait).length).getD 0
  if waits t < waits s then [{ key := joinKey core g, rank := rank }] else []

/-- Members that have left the active sets of a core: a refill of the cycle came before, with what the set held at its start (07
R165). -/
def leftRanks (s t : State) (core : Nat) : List Rank :=
  ((((getBlk s core).map Block.groups).getD []).filter fun e =>
    e.2.run = .active && !(getGrp t core e.1).any fun r => r.run = .active).map
      fun e => { key := activeKey core (e.1 % 4), rank := 2 }

/-- What a turn of a thread takes part in, whether or not it has issued. -/
def agentRanks (s t : State) (a : Agent) : List Rank :=
  freedRanks s t a.core ++ leftRanks s t a.core ++ (match a.who with
    | .grp g => joinRanks s t a.core g 1
    | .fe => [])

/-- What an issued instruction takes part in beside barrier objects. -/
def issueRanks (s t : State) (a : Agent) (i : Instr) : List Rank :=
  let part := partRank a.who
  let job := ((getBlk s a.core).map Block.job).getD 0
  let slots (r : Nat) : List Rank := (touchedSlots s t a.core).map fun n => { key := slotKey a.core n, rank := r }
  match i with
  | .mma _ _ _ _ _ _ _ => { key := mmaQueueKey a.core, rank := part } :: slots part
  | .mclaim _ _ _ => [{ key := claimKey a.core, rank := part }]
  | .mrel _ _ _ => slots 1
  | .dqpush _ _ => if (getBlk s a.core).map Block.dqTail = (getBlk t a.core).map Block.dqTail
      then [{ key := queueKey a.core, rank := 2 }] else []
  | .accld _ _ _ _ _ | .accst _ _ _ _ _ => [{ key := pathKey a.core, rank := part }]
  | .tcopy _ _ _ | .tcopym _ _ _ | .tfill _ _ _ | .tslot _ _ _ | .tstore _ _ _ | .tgather _ _ _ | .tscatter _ _ _
  | .tstream _ _ _ => [{ key := copyQueueKey a.core, rank := 2 }]
  | .jenq _ _ _ _ | .jspawn _ _ _ =>
    [{ key := enqueueKey, rank := enqueueRank a.core a.who }, { key := sluiceKey, rank := 1 }]
  | .jdone _ _ => [{ key := weightKey job, rank := 2 }]
  | .msend _ _ _ _ _ _ | .mwake _ _ _ _ _ _ => [{ key := sendsKey a.core, rank := 2 }]
  | .mrecv _ _ _ _ _ _ | .mcancel _ _ =>
    if (getCore t a.core).overflow.length < (getCore s a.core).overflow.length then [{ key := overflowKey a.core, rank := 1 }]
    else [{ key := recvsKey a.core, rank := 2 }]
  | .jyield _ => [{ key := budgetKey (((getBlk s a.core).map Block.cluster).getD 0), rank := 1 }]
  | _ => []

/-- The matrix command of a core. -/
def coreMma (s : State) (core id : Nat) : Option MmaCmd := (getBlk s core).bind fun b => b.mma.find? fun m => m.id = id

/-- The transfer of a core. -/
def coreXfer (s : State) (core id : Nat) : Option AccXfer := (getBlk s core).bind fun b => b.xfers.find? fun x => x.id = id

/-- The clusters whose pre-emption a turn has begun (05 R140, 16 R404). -/
def preempted (s t : State) : List Rank :=
  (s.sched.clusters.filter fun e => e.2.state = .running && (getCl t e.1).any fun c => c.state = .preempting).map
    fun e => { key := budgetKey e.1, rank := 2 }

/-- The die whose HOMEDOWN bit a turn has set (16 R404). -/
def homesDowned (s t : State) : List Rank :=
  ((List.range 4).filter fun d => !dieHomeDown s d && dieHomeDown t d).map fun d => { key := homeKey d, rank := 1 }

/-- The pages in COPYING that an access to an old home falls in, which has come before their entry into FROZEN (15 R376). -/
def copyingRanks (s : State) (ctx va : Nat) : List Rank :=
  (s.pages.queue.filter fun m => m.stage = .copying && migPage m ctx va).map fun m => { key := pageKey m.id, rank := 2 }

/-- A request has been performed at its home (15 R376, 16 R404). -/
def performedAt (s t : State) (id : Nat) : List Rank :=
  match getReq s id with
  | some r =>
    if r.stage ≠ .performed && (getReq t id).any (fun q => q.stage = .performed) then
      copyingRanks s r.ctx r.va ++ (if placeRemote (reqPlace r) then []
        else [{ key := homeKey (homeDie (reqPlace r) (reqAddr r)), rank := 2 }])
    else []
  | none => []

/-- A page enters FROZEN in a turn (15 R376). -/
def frozenRanks (s t : State) (id : Nat) : List Rank :=
  if (getMig s id).any (fun m => m.stage = .copying) && (getMig t id).any (fun m => m.stage = .frozen)
  then [{ key := pageKey id, rank := 1 }] else []

/-- A header has reached a core: it comes before what the core's receives do, and one that finds the overflow queue full
after what makes room in it (16 R397). -/
def headerRanks (s t : State) (id : Nat) : List Rank :=
  match getMsg s id with
  | some m =>
    if m.dstDev ≠ s.host.devnum || (getMsg t id).isSome then []
    else
      let k := getCore s m.dstCore
      let full : Bool := 64 ≤ k.overflow.length && !k.recvs.any fun r => !r.matched && recvMatches r m.hdr
      { key := recvsKey m.dstCore, rank := 1 } :: (if full then [{ key := overflowKey m.dstCore, rank := 2 }] else [])
  | none => []

/-- A completion has freed an entry of a core's send queue (16 R397). -/
def sendRanks (s t : State) : List Rank :=
  (s.cores.filter fun e => (getCore t e.1).sends.length < e.2.sends.length).map fun e => { key := sendsKey e.1, rank := 1 }

/-- What an event takes part in beside barrier objects, if it has come about. -/
def eventRanks (s t : State) (i : Instr) : List Rank :=
  match i with
  | .mmaComplete core id => (match coreMma s core id with
    | some m => if (coreMma t core id).isSome then []
      else [{ key := mmaQueueKey core, rank := 1 }, { key := tileOrderKey core m.tile, rank := 2 }]
    | none => [])
  | .accTransferComplete core id => (match coreXfer s core id with
    | some x => if (coreXfer t core id).isSome || x.kind ≠ 0 then [] else [{ key := tileOrderKey core x.tile, rank := 1 }]
    | none => [])
  | .copyCommandComplete core cmd =>
    if (getCmd s core cmd).isSome && (getCmd t core cmd).isNone then [{ key := copyQueueKey core, rank := 1 }] else []
  | .jspawnResolve job => (match getJob s job with
    | some j => if (getJob t job).any fun k => k.state = .spawning then [] else [{ key := weightKey j.parent, rank := 1 }]
    | none => [])
  | .acceptanceDraw => if s.sched.lastDrawn ≠ t.sched.lastDrawn || s.sched.nextJob ≠ t.sched.nextJob
      then [{ key := sluiceKey, rank := 2, once := true }] else []
  | .blockRetire core => (match getBlk s core with
    | some b => if b.retired || (getBlk t core).any fun x => !x.retired then []
      else [{ key := retireKey, rank := 1 + core }, { key := budgetKey b.cluster, rank := 1 }]
    | none => [])
  | .homeStore id | .wakeWritePerform id | .atomicAtHome id => performedAt s t id
  | .msgHeaderArrive id => headerRanks s t id
  | .msgCompletion _ | .mwakeAck _ => sendRanks s t
  | .restripePassEnd id => frozenRanks s t id
  | .waitjTimeout core g _ => joinRanks s t core g 2
  | .activeSetRefill core part => [{ key := activeKey core part.toNat, rank := 1, once := true }]
  | .activeSetLeave core _ => leftRanks s t core
  | .serviceRequestArrive id => (match getService s id with
    | some r => freedRanks s t (bitsOf r.handle.toNat 7 0)
    | none => [])
  | .dispatch | .placementMailboxGo _ => if s.sched.clusters.map (fun e => e.2.state) = t.sched.clusters.map (fun e => e.2.state)
      then [] else [{ key := placeKey, rank := 2, once := true }]
  | _ => []

/-- The place of an event among the operations that a barrier object receives in a cycle: credits and agent faults, then
arrivals, then what another core asks for (14 R345). -/
def eventObjectRank (s : State) : Instr → Nat
  | .copyDataLand _ _ _ | .copyTransferFault _ _ _ | .copyCommandComplete _ _ | .storeAck _ | .msgDataLand _
  | .msgCompletion _ | .mwakeAck _ | .restripeCheck _ | .restripeShootdownAck _ _ | .restripeAbort _ _ => 1
  | .batchArrival _ _ | .childArrival _ | .errorArrival _ => 2
  | .remoteBarrierOp id => (match (getBarReq s id).map BarReq.op with
    | some (.expect _) => 3
    | _ => 5)
  | .serviceRequestArrive _ => 4
  | _ => 0

/-- The ranks of what a turn has done: those of its own, and one for each barrier object it has changed. -/
def objectRanks (s t : State) (rank : Nat) : List Rank :=
  if rank = 0 then [] else (touchedObjects s t).map fun e => { key := objectKey e.1 e.2, rank := rank }

/-- The barrier object of its own core that an instruction names: its operation has a place in the order of the cycle even if it
leaves the object as it was, or faults there (14 R345). -/
def namedObject (a : Agent) : Instr → Option (Nat × Nat)
  | .binit _ _ _ _ n => some (a.core, n.toNat)
  | .bjoin _ n | .bleave _ n | .barr _ _ n | .barrw _ _ n => some (a.core, n.toNat)
  | _ => none

/-- The rank of an instruction's operation on the object that it names. -/
def namedRanks (a : Agent) (i : Instr) : List Rank :=
  match namedObject a i with
  | some e => [{ key := objectKey e.1 e.2, rank := objectRank i }]
  | none => []

/-- A turn comes about unless this cycle has already seen what it must come before; then it leaves the state as it was. -/
def ordered (s t : State) (rs : List Rank) : State := if rs.all (mayRank s) then rs.foldl noteRank t else s

/-- The thread has issued in a turn. -/
def hasIssued (s t : State) (a : Agent) : Bool :=
  (getBlk s a.core).map (fun b => issuedOf b a.who) ≠ (getBlk t a.core).map (fun b => issuedOf b a.who)

/-- The thread has taken a fault in a turn (04 R101). -/
def hasFaulted (s t : State) (a : Agent) : Bool :=
  (getBlk s a.core).map (fun b => threadGen b a.who) ≠ (getBlk t a.core).map (fun b => threadGen b a.who)

/-- The instruction reads SY.ENERGY: it sees the level after the most recent update, which comes first (18 R421). -/
def readsEnergy : Instr → Bool
  | .smfsy _ n => n = 0x00E
  | .vmfsy _ _ _ _ n => n = 0x00E
  | _ => false

/-- An instruction in the order of its cycle; one that has neither issued nor faulted takes no part in it. -/
def orderedIssue (s t : State) (a : Agent) (i : Instr) : State :=
  if hasIssued s t a then
    if readsEnergy i && pondDue s then s
    else ordered s t (agentRanks s t a ++ issueRanks s t a i ++ namedRanks a i ++ objectRanks s t (objectRank i))
  else if hasFaulted s t a then ordered s t (agentRanks s t a ++ namedRanks a i ++ objectRanks s t (objectRank i))
  else t

/-- A turn of a thread that issues nothing, in the order of its cycle: a wait that ends. -/
def orderedIdle (s t : State) (a : Agent) : State := ordered s t (agentRanks s t a)

/-- A credit that reaches a barrier, in the order of the operations of its cycle (14 R345). -/
def orderedCredit (s t : State) : State := ordered s t (objectRanks s t 1)

/-- What any turn that is no instruction takes part in: the pre-emptions that it begins, and a home that goes down. -/
def orderedTurn (s t : State) (rs : List Rank) : State := ordered s t (preempted s t ++ homesDowned s t ++ rs)

/-- An event in the order of its cycle. -/
def orderedEvent (s t : State) (i : Instr) : State :=
  orderedTurn s t (eventRanks s t i ++ objectRanks s t (eventObjectRank s i))

end Sys2Proof.Machine
end

