-- ==== Sys2Proof/Machine/Cycle.lean ====
section
/-! DEFINITION. The special-function unit of a core (09 R237), the stall reasons (07 R166, 17 R418), trace samples (17 R417), and the
passing of cycles (01 R29, R30, 05 R128, 17 R408 to R418). -/
namespace Sys2Proof.Machine

/-! ## What an agent would do -/

/-- The agent with no hold that an earlier turn has noted. -/
def unheld (s : State) (a : Agent) : State :=
  match a.who with
  | .fe => modFe s a.core fun e => { e with held := 0 }
  | .grp g => modSpl s a.core g a.split fun x => { x with held := 0 }

/-- The reason for which an agent is held at issue, as its last turn has noted it. -/
def notedHold (s : State) (a : Agent) : Nat :=
  match a.who with
  | .fe => ((getBlk s a.core).map fun b => b.fe.held).getD 0
  | .grp _ => ((waitingSplit s ⟨a.core, a.who, a.split⟩).map Split.held).getD 0

/-- What an agent issues: as a split, or as the front-end. -/
def issuer (s : State) : Option (Iss × Word) :=
  match groupCtx s with
  | some c => some (.grp c, c.spl.pc)
  | none => (feCtx s).map fun c => (.fe c, c.blk.fe.pc)

/-- The reason for which the next word of an agent is held at issue as things stand: none if it would issue or fault (07 R166,
17 R418, log entry 155). -/
def issueHold (s : State) (a : Agent) : Nat :=
  let t := { unheld s a with cur := a }
  match issuer t with
  | none => 0
  | some (i, pc) => match issueWord t i pc with
    | .idle u => notedHold u a
    | .run _ .instructionFetchFill => 11
    | .run u ins => match exec ins u with
      | .next v => notedHold v a
      | _ => 0

/-! ## The special-function unit (09 R237) -/

/-- The cycles for which an instruction occupies the special-function unit. -/
def sfuCycles : Instr → Nat
  | .frcp _ _ _ | .frsq _ _ _ | .fsqrt _ _ _ | .fexp2 _ _ _ | .flog2 _ _ _ | .fsinp _ _ _ | .fcosp _ _ _ => 1
  | .twid _ _ _ _ => 2
  | _ => 0

/-- A partition presents an instruction to the unit in this cycle (log entry 156). -/
def presents (s : State) (core part : Nat) : Bool :=
  (getBlk s core).any fun b => b.groups.any fun e => e.1 % 4 = part && e.2.splits.any fun x =>
    let a : Agent := ⟨core, .grp e.1, x.1⟩
    match pick s a with
    | .run t i => sfuCycles i ≠ 0 && (match exec i t with
      | .next u => hasIssued t u a
      | _ => false)
    | .idle _ => false

/-- The unit accepts an instruction of a partition: it is free, and no partition that comes first, in the round from the one
after the one accepted last, presents one. -/
def sfuAccepts (s : State) (core part : Nat) (b : Block) : Bool :=
  b.sfuFree ≤ s.clk.cycle
    && (List.range 4).all fun q => ringAfter 4 b.sfuLast part ≤ ringAfter 4 b.sfuLast q || !presents s core q

/-- A turn's issue as the unit sees it: accepted, or the group keeps its slot unused under stall reason 8. -/
def sfuTurn (s t : State) (a : Agent) (i : Instr) : State :=
  match a.who, getBlk s a.core with
  | .grp g, some b =>
    if sfuCycles i = 0 || !hasIssued s t a then t
    else if sfuAccepts s a.core (g % 4) b then
      modBlk t a.core fun b => { b with sfuFree := s.clk.cycle + sfuCycles i, sfuLast := g % 4 }
    else modSpl s a.core g a.split fun x =>
      { x with held := 8, heldAt := s.clk.cycle, since := if x.held = 8 then x.since else s.clk.cycle }
  | _, _ => t

/-! ## Stall reasons (07 R166, 17 R418) -/

/-- The reason of a wait; a remote barrier wait is one once the object has been read. -/
def waitReason (s : State) : Wait → Nat
  | .none => 9
  | .fullEmpty _ => 6
  | .poolInst _ => 16
  | .service _ => 7
  | .barrierReply i => if s.flight.bars.any fun r => r.id = i && r.read then 5 else 7
  | .barrier _ _ _ _ _ => 5
  | .dqpop _ _ _ => 4
  | .waitw _ => 5
  | .waitj _ _ => 3
  | .atg _ => 14
  | .walk _ _ _ => 7
  | .scrub _ => 14
  | .afence _ => 14

/-- The reason of a wait of a thread's split: none once it is met (07 R163). -/
def waitHolds (s : State) (w : Waiting) (x : Wait) : Nat := if x = .none || waitMet s w then 0 else waitReason s x

/-- The reason for which a split that does not wait is held in this cycle: that of a turn of the cycle, or else what would hold it
now. -/
def heldNow (s : State) (a : Agent) (held heldAt : Nat) : Nat :=
  if held ≠ 0 && heldAt = s.clk.cycle then held else issueHold s a

/-- The reasons that a split of a group contributes to a cycle: its wait, the cycles after a transfer of control or a LOOP, a hold
at issue, and the four cycles of an admission; or, when none of these holds it, the wait of the whole group, or that it was not
chosen. A group outside the active set is not held at issue (07 R166, 17 R418). -/
def splitReasons (s : State) (core g : Nat) (r : Group) (k : Nat) (x : Split) : List Nat :=
  let a : Agent := ⟨core, .grp g, k⟩
  let own := if x.wait ≠ .none then [waitHolds s ⟨core, .grp g, k⟩ x.wait]
    else [if s.clk.cycle < x.busyUntil then x.busyFor else 0, if r.run = .ready then 0 else heldNow s a x.held x.heldAt]
  let l := own.filter (· ≠ 0) ++ (if r.run = .active && s.clk.cycle < r.admitted + 4 then [10] else [])
  if l.isEmpty then [if groupHeld s core g r then 14 else 9] else l

/-- The reason that holds a group: the lowest of its splits' (07 R166). -/
def groupReason (s : State) (core g : Nat) (r : Group) : Nat :=
  if r.stopped || r.run = .faulted then 15
  else (r.splits.flatMap fun e => splitReasons s core g r e.1 e.2).foldl min 16

/-- The reason that holds a front-end. -/
def feReason (s : State) (core : Nat) (e : FrontEnd) : Nat :=
  let w := waitHolds s ⟨core, .fe, 0⟩ e.wait
  let h := if e.wait = .none then heldNow s ⟨core, .fe, 0⟩ e.held e.heldAt else 0
  if e.stopped || e.run = .faulted then 15 else if w ≠ 0 then w else if h ≠ 0 then h else 9

/-- Count a cycle for a stall reason, saturating (17 R418). -/
def countStall (t : Table Word) (n : Nat) : Table Word := tputD 0 n (sat32 (tgetD 0 n t)) t

/-- A cycle passes for a group: unless it issued in it, one counter counts (07 R166, 17 R418). -/
def stallGroup (s : State) (core g : Nat) (r : Group) : Group :=
  if r.run = .exited || r.run = .killed || r.issuedAt = some s.clk.cycle then r
  else { r with stalls := countStall r.stalls (groupReason s core g r) }

/-- A cycle passes for a front-end. -/
def stallFe (s : State) (core : Nat) (e : FrontEnd) : FrontEnd :=
  if e.run = .exited || e.run = .killed || e.issuedAt = some s.clk.cycle then e
  else { e with stalls := countStall e.stalls (feReason s core e) }

/-- A member of the active set that can issue in a cycle, and has not. -/
def passedOver (s : State) (core g : Nat) (r : Group) : Bool :=
  r.run = .active && !r.stopped && r.issuedAt ≠ some s.clk.cycle
    && r.splits.any fun e => e.2.wait = .none && splitReasons s core g r e.1 e.2 = [9]

/-- A cycle passes for a group that could issue and was not chosen (03 R81). -/
def passGroup (s : State) (core g : Nat) (r : Group) : Group :=
  { r with passed := if passedOver s core g r then min 64 (r.passed + 1) else 0 }

/-! ## The end of a cycle for the debug unit (17 R408, R410, R416, R417) -/

/-- The bytes of a sample (17 R417). Reason 0 stands for a group that issued in this cycle. -/
def sampleBytes (s : State) (core : Nat) (b : Block) (g : Nat) (r : Group) : List Byte :=
  let reason := if r.issuedAt = some s.clk.cycle || r.run = .exited || r.run = .killed then 0 else groupReason s core g r
  natBytes 4 32 ++ natBytes 4 b.job ++ natBytes 4 (((getCl s b.cluster).map Cluster.index).getD 0)
    ++ [BitVec.ofNat 8 b.member, BitVec.ofNat 8 g, BitVec.ofNat 8 reason, 0] ++ natBytes 8 s.clk.gts.toNat
    ++ natBytes 4 (threadPc b (.grp g)).toNat
    ++ natBytes 4 (tgetD {} (bitsOf b.trigNow.toNat 51 46) b.barriers).phase.toNat

/-- The sample that is due in a cycle is appended, unless both conditions of the trigger hold in it. -/
def takeSample (s : State) (core : Nat) (b : Block) : State :=
  match nextGroup b b.sampleNext with
  | some (g, r) => modBlk (profAppend s core b.ctx (sampleBytes s core b g r)) core fun b =>
      { b with sampleNext := g + 1, sampledAt := s.clk.cycle }
  | none => s

/-- A cycle ends for a core's debug unit: the due sample, the records of the watchpoints hit, then REC and the registers that a
write has changed. -/
def debugCycle (s : State) (core : Nat) : State :=
  match getBlk s core with
  | some b => modBlk (recordHits (if samples b then takeSample s core b else s) core) core (debugGoes s.clk.cycle)
  | none => s

/-! ## Cycles -/

/-- A cycle passes for a block (06 R161, 17 R418). Cycles resident count from the block's launch: whether the zeroing between
placement and launch counts is open (log entry 146). -/
def cycleBlock (s : State) (core : Nat) (b : Block) : Block :=
  if !b.launched || b.retired then b
  else { b with
    resident := b.resident + 1, fe := stallFe s core b.fe
    groups := b.groups.map fun e => (e.1, passGroup s core e.1 (stallGroup s core e.1 e.2)) }

/-- A cycle passes for a cluster's budget: it counts while a block is resident and not parked (05 R128). -/
def cycleCluster (s : State) (c : Cluster) : Cluster :=
  let runs : Bool := (c.state = .running || c.state = .preempting)
    && (clusterCores c).any fun k => (getBlk s k).any fun b => !b.retired && !blockParked s b
  if runs then { c with budget := c.budget.map (· - 1) } else c

/-- A cycle passes for the clock and the GTS (01 R29, R30): 40 / FSTEP ticks a cycle; a slew adds or withholds at most one
tick in 256 (16 R399). -/
def cycleClock (c : Clock) : Clock :=
  let f := c.frac + 40
  let n := if c.fstep = 0 then 0 else f / c.fstep
  let c := { c with cycle := c.cycle + 1, frac := if c.fstep = 0 then 0 else f % c.fstep }
  if 256 ≤ c.slewed && 0 < n && c.slew ≠ 0 then
    let n' := if 0 < c.slew then n + 1 else n - 1
    { c with gts := c.gts + BitVec.ofNat 64 n', slew := if 0 < c.slew then c.slew - 1 else c.slew + 1, slewed := 0 }
  else { c with gts := c.gts + BitVec.ofNat 64 n, slewed := c.slewed + n }

/-- A cycle passes for every core, every cluster and the clock. -/
def cycleGoes (s : State) : State :=
  { s with
    done := []
    cores := s.cores.map fun e => (e.1, { e.2 with block := e.2.block.map (cycleBlock s e.1) })
    sched := { s.sched with clusters := s.sched.clusters.map fun e => (e.1, cycleCluster s e.2) }
    clk := cycleClock s.clk }

/-- A cycle passes, once the barrier objects that received an operation in it have been evaluated (14 R345) and the debug units
have seen it. -/
def cyclePass (s : State) : State :=
  let s := runEvals s
  cycleGoes (foldSt debugCycle s (s.cores.map Prod.fst))

/-- n cycles pass. -/
def tick : Nat → State → State
  | 0, s => s
  | n + 1, s => tick n (cyclePass s)

end Sys2Proof.Machine
end

