-- ==== Sys2Proof/Machine/Step.lean ====
section
/-! DEFINITION. One step: the head of the agenda, after the cycles that pass before it; with nothing on the agenda, one
cycle passes (log entry 1). -/
namespace Sys2Proof.Machine

/-- What a meaning answers, with what follows it. -/
def andThen (o : Host.Outcome State Fault Refusal) (f : State → State) : Host.Outcome State Fault Refusal :=
  match o with
  | .next s => .next (f s)
  | .fault r => .fault r
  | .refused r => .refused r

/-- A turn to issue: the instruction the agent issues, or nothing to execute. -/
def issueTurn (s : State) (a : Agent) : Host.Outcome State Fault Refusal :=
  match pick s a with
  | .idle t => .next (settle (orderedIdle s t a))
  | .run t i => andThen (exec i t) fun u => settle (sfuTurn t (orderedIssue t (afterIssue t u a) a i) a i)

/-- A step of the device or of the outside world. -/
def eventTurn (s : State) (i : Instr) : Host.Outcome State Fault Refusal :=
  if isOccurrence i then andThen (exec i s) fun t => settle (orderedEvent s (withWalks s t) i) else .next s

/-- What a turn does. -/
def turn (s : State) : Act → Host.Outcome State Fault Refusal
  | .issue a => issueTurn s a
  | .event i => eventTurn s i
  | .evict d v k => .next (settle (evictLine s d v k))
  | .upset l => .next (settle (upsetWord s l))
  | .upsetCopy d k i => .next (settle (upsetCopy s d k i))
  | .upsetBuffer k i => .next (settle (upsetBuffer s k i))
  | .upsetMeta n => .next (settle (upsetMeta s n))
  | .credit id => andThen (landCredit id s) fun t => settle (orderedCredit s t)
  | .sideBand ras => .next (settle (sideBandReport s ras))
  | .resetStep => .next (settle (orderedTurn s (resetGoes s) []))

/-- One step of the package. -/
def step (s : State) : Host.Outcome State Fault Refusal :=
  match s.agenda with
  | [] => .next (settle (tick 1 s))
  | t :: _ => turn (tick t.dt (restOf s)) t.act

/-- The state with a word as the next instruction of a block placed on core 0 (log entry 1). -/
def State.withFetchWord (s : State) (nbits w : Nat) : State :=
  if nbits = 32 then placeWord s (BitVec.ofNat 32 w) else s

end Sys2Proof.Machine
end

