-- ==== Sys2Proof/WellFormed.lean ====
section
/-! DEFINITION. Well-formed instructions: no field value that the manual names illegal by itself (03 R75), and a word
without a meaning of its own that is one. An illegal field value has its meaning all the same: ILLEGAL (03 R73). -/
namespace Sys2Proof

/-- The word lies in the defined hint region, opcodes 0xF4 to 0xFF (03 R75). -/
def hintWord (w : BitVec 32) : Bool := 0xF4 ≤ opcodeOf w

/-- The word has an opcode that 03 R75 leaves unassigned. -/
def unassigned (w : BitVec 32) : Bool :=
  let op := opcodeOf w
  op = 0 || (0x21 ≤ op && op ≤ 0x2F) || (0x5D ≤ op && op ≤ 0x5F) || (0x87 ≤ op && op ≤ 0x8F) || (0xAA ≤ op && op ≤ 0xAF)
    || (0xBA ≤ op && op ≤ 0xBF) || (0xC9 ≤ op && op ≤ 0xCF) || op = 0xDF || (0xE5 ≤ op && op ≤ 0xE7)

/-- The instruction names a word of the kind it stands for: true of all but the two constructors that keep a word. -/
def Instr.keepsWord : Instr → Bool
  | .definedHint w => hintWord w
  | .illegalEncoding w => unassigned w
  | .sadd _ _ _ _ | .ssub _ _ _ _ | .smul _ _ _ _ | .smulh _ _ _ _ _ | .sand _ _ _ _ | .sor _ _ _ _ | .sxor _ _ _ _
  | .sshl _ _ _ _ _ | .sshr _ _ _ _ _ | .ssar _ _ _ _ _ | .smin _ _ _ _ _ | .smax _ _ _ _ _ | .scmp _ _ _ _ _
  | .ssel _ _ _ _ | .sclz _ _ _ | .spop _ _ _ | .saddi _ _ | .sli _ _ | .slih _ _ | .sldp _ _ _ _ | .sstp _ _ _
  | .sj _ | .sbz _ _ | .sbnz _ _ | .scall _ | .sret | .stime _ | .smfsy _ _ | .smtsy _ _ | .sexit | .dqpush _ _
  | .swait _ | .vadd _ _ _ _ | .vsub _ _ _ _ | .vmul _ _ _ _ | .vmulhI _ _ _ _ | .vmulhN _ _ _ _ | .vmad _ _ _ _
  | .vand _ _ _ _ | .vor _ _ _ _ | .vxor _ _ _ _ | .vandn _ _ _ _ | .vshl _ _ _ _ | .vshr _ _ _ _ | .vsar _ _ _ _
  | .vminI _ _ _ _ | .vminN _ _ _ _ | .vmaxI _ _ _ _ | .vmaxN _ _ _ _ | .vabs _ _ _ | .vclz _ _ _ | .vpop _ _ _
  | .vbrev _ _ _ | .vbfe _ _ _ _ | .vbfi _ _ _ _ | .vaddi _ _ _ _ | .vli _ _ _ | .vmov _ _ _ | .vcmp _ _ _ _ _
  | .vsel _ _ _ _ | .vlane _ _ | .vshflIdx _ _ _ _ | .vshflUp _ _ _ _ | .vshflDown _ _ _ _ | .vshflXor _ _ _ _
  | .vballot _ _ _ | .vvote _ _ _ _ | .vredadd _ _ _ | .vredmin _ _ _ _ | .vredmax _ _ _ _ | .vscan _ _ _ _ _ _
  | .pand _ _ _ _ | .por _ _ _ _ | .pxor _ _ _ _ | .pnot _ _ _ | .vmfsy _ _ _ _ _ | .vtime _ _ _ | .fadd _ _ _ _
  | .fsub _ _ _ _ | .fmul _ _ _ _ | .ffma _ _ _ _ | .ffms _ _ _ _ | .fnma _ _ _ _ | .fmin _ _ _ _ | .fmax _ _ _ _
  | .fabs _ _ _ | .fneg _ _ _ | .fcmp _ _ _ _ _ | .fclass _ _ _ | .fround _ _ _ _ | .cvt _ _ _ _ _ | .cvtx _ _ _ _
  | .hadd2F16 _ _ _ _ | .hmul2F16 _ _ _ _ | .hfma2F16 _ _ _ _ | .hadd2Bf16 _ _ _ _ | .hmul2Bf16 _ _ _ _
  | .hfma2Bf16 _ _ _ _ | .dot4E4m3 _ _ _ _ | .dot4E5m2 _ _ _ _ | .dot2Bf16 _ _ _ _ | .idp4I8 _ _ _ _ | .frcp _ _ _
  | .frsq _ _ _ | .fsqrt _ _ _ | .fexp2 _ _ _ | .flog2 _ _ _ | .fsinp _ _ _ | .fcosp _ _ _ | .twid _ _ _ _
  | .bfly2 _ _ _ _ | .cmul _ _ _ _ | .cmad _ _ _ _ | .fredadd _ _ _ | .fredmax _ _ _ | .fredmin _ _ _ | .br _ _
  | .bru _ _ | .brx _ _ | .join | .waitj _ _ | .call _ _ | .ret | .loop _ _ _ | .loops _ _ _ _ | .rot _ _ | .lbrk _
  | .lsave _ | .lrest _ | .dqpop _ _ | .exit | .yield | .ldp _ _ _ _ _ _ _ | .stp _ _ _ _ _ _ _ | .atp _ _ _ _ _ _
  | .stg _ _ _ _ _ _ | .atg _ _ _ _ _ _ | .drainst _ | .fence _ _ _ | .invr _ _ _ _ | .afence _ | .pfill _ _ _ _
  | .tcopy _ _ _ | .tcopym _ _ _ | .tfill _ _ _ | .tslot _ _ _ | .tstore _ _ _ | .tgather _ _ _ | .tscatter _ _ _
  | .tstream _ _ _ | .twait _ _ | .tquery _ _ _ | .mclaim _ _ _ | .mrel _ _ _ | .mma _ _ _ _ _ _ _ | .mfence _ _
  | .accld _ _ _ _ _ | .accst _ _ _ _ _ | .accz _ _ _ | .accwait _ _ | .mquery _ _ _ _ | .binit _ _ _ _ _
  | .bjoin _ _ | .bleave _ _ | .barr _ _ _ | .bwait _ _ _ | .barrw _ _ _ | .btwait _ _ _ _ | .bexpect _ _ _
  | .bquery _ _ _ _ _ | .jenq _ _ _ _ | .jspawn _ _ _ | .jdone _ _ | .jyield _ | .waitw _ _ _ | .jself _ _ _ _
  | .msend _ _ _ _ _ _ | .mrecv _ _ _ _ _ _ | .mprobe _ _ _ | .mcancel _ _ | .mwake _ _ _ _ _ _ | .trap _ _ _
  | .bkpt _ _ _ | .greplay _ _ _ | .gkill _ _ | .gstate _ _ _ _ _ | .pgprobe _ _ _ | .pgmig _ _ _ _ _ | .pgscrub _ _
  | .clause _ _ _ _ | .lit _ | .mod _ _ _ | .prio _ | .instructionFetchFill | .registerWrite _ _ | .coldReset
  | .recoveryImage _ | .attestationRequest _ | .ctxOpen _ _ | .ctxSuspend _ | .ctxResume _ | .ctxClose _
  | .ctxUpdate _ _ | .suspendComplete _ | .zeroingComplete _ | .faultRecordAppend _ | .faultMailboxFree
  | .queueSubmit _ _ | .queuePause _ | .queueUnpause _ | .queueFlush _ | .acceptanceDraw | .jobAccept _
  | .jspawnResolve _ | .dispatch | .placementMailboxGo _ | .coreZeroingComplete _ | .clusterLaunch _
  | .budgetExhausted _ | .clusterSave _ | .idempotentDiscard _ | .blockRetire _ | .wakeWritePerform _
  | .waitwCompare _ | .activeSetRefill _ _ | .activeSetLeave _ _ | .waitjTimeout _ _ _ | .poolPortAccess _
  | .poolLoadReply _ | .remoteStoreAck _ | .serviceRequestArrive _ | .serviceReply _ | .homeStore _ | .storeAck _
  | .recall _ | .forwardedRead _ | .visitorFill _ | .atomicAtHome _ | .globalAtomicReply _ | .drainOrder _
  | .drainAck _ | .linkBufferStore _ _ _ | .linkBufferWriteback _ | .staleGenerationReturn _ | .storeFaultReport _
  | .l2splitWrite _ _ | .l2splitDone _ | .pageWalk _ | .frameOwnerZeroing _ | .walkMailboxDone _ | .walkMailboxFault
  | .shootdown _ _ | .shootdownComplete | .restripeCheck _ | .restripePassEnd _ | .restripeFinalCopy _
  | .restripeShootdownAck _ _ | .restripeAbort _ _ | .copyDataLand _ _ _ | .copyTransferFault _ _ _
  | .copyCommandComplete _ _ | .mcidReplicaUpdate _ | .mcidRelease _ _ | .streamPrefetch _ _ | .mmaStart _
  | .mmaComplete _ _ | .batchArrival _ _ | .accTransferComplete _ _ | .remoteBarrierOp _ | .barrierReply _
  | .childArrival _ | .phaseNotice _ | .errorArrival _ | .absWaitPoll _ | .btwaitTimeout _ _ _ | .msgHeaderArrive _
  | .msgPull _ | .msgDataLand _ | .msgCompletion _ | .mwakeAck _ | .linkEnable _ | .linkQuiesce _ | .linkDisable _
  | .trainingSuccess _ | .trainingFailure _ | .linkQuiesced _ | .replayLimit _ | .crcFailure _
  | .timeExchange _ _ _ _ _ | .dieResetStart _ | .dieResetContinue | .dbgStop _ | .dbgRelease _ | .dbgStep _ _ _
  | .dbgDump _ _ _ | .dbgWrite _ _ _ | .stepTimeout | .stopArrive _ | .traceSample _ | .millpondUpdate _
  | .clockCheck | .currentLimit _ | .correctedError _ _ _ | .selftestVerdict _ _ _ _ | .selftestAccept
  | .currentLimitEnd _ | .peerRequest _ _ _ _ _ | .afenceDieAck _ _ | .pgscrubScanDone _ | .devnumWrite _ => true

/-- No field has a value that the manual names illegal whatever the operands (03 R67, R75 and the description of each
instruction: 07 R189, R192, 08 R212, R216, R218, 09 R231, 10 R253, 11 R284, R292, R293, 12 R296, R317, 13 R321, R323,
R324, 14 R359, 05 R146, 04 R106, R107). -/
def Instr.wellFormed : Instr → Bool
  | .scmp _ _ _ _ c => c.toNat ≤ 9
  | .smfsy _ n => n.toNat ≤ 0x18
  | .smtsy _ n => n.toNat ≤ 0x18
  | .vcmp _ _ c _ _ => c.toNat ≤ 9
  | .vvote _ _ f _ => f.toNat ≤ 3
  | .vscan _ _ _ _ _ o => o ≠ 3
  | .vmfsy _ _ _ c n => n.toNat ≤ 0x18 && (c = 0 || n = 8)
  | .fcmp _ _ c _ _ => c.toNat ≤ 7
  | .cvt _ _ _ o n => o.toNat ≤ 11 && n.toNat ≤ (if o.toNat ≤ 3 then 0 else if o.toNat ≤ 7 then 1 else 3)
  | .loop _ _ e => e ≠ 0
  | .loops _ _ _ e => e ≠ 0
  | .rot _ n => 1 ≤ n.toNat && n.toNat ≤ 32
  | .atp _ _ _ o _ _ => o.toNat ≤ 13
  | .stg _ _ _ w q _ => q.toNat ≤ 3 && (!q.getLsbD 1 || w = 3)
  | .atg _ _ _ o _ _ => o.toNat ≤ 13
  | .fence _ q _ => 1 ≤ q.toNat && q.toNat ≤ 3
  | .invr _ _ _ s => 2 ≤ s.toNat
  | .tcopy _ a _ => a.toNat ≤ 60
  | .tcopym _ a _ => a.toNat ≤ 60
  | .tfill _ a _ => a.toNat ≤ 60
  | .tslot _ a _ => a.toNat ≤ 60
  | .tstore _ a _ => a.toNat ≤ 60
  | .tgather _ a _ => a.toNat ≤ 60
  | .tscatter _ a _ => a.toNat ≤ 60
  | .tstream _ a _ => a.toNat ≤ 60
  | .tquery _ _ s => s.toNat ≤ 2
  | .mclaim _ _ n => 1 ≤ n.toNat && n.toNat ≤ 64
  | .mrel _ _ n => 1 ≤ n.toNat
  | .mma _ _ _ _ m _ _ => m ≠ 7
  | .accld _ _ _ m _ => m ≠ 7
  | .accst _ _ _ m _ => m ≠ 7
  | .accz _ m _ => m ≠ 7
  | .bquery _ _ _ _ s => s.toNat ≤ 5
  | .jself _ _ _ s => s.toNat ≤ 3
  | .clause _ l _ _ => l ≠ 0
  | .definedHint w => hintWord w
  | .illegalEncoding w => unassigned w
  | .sadd _ _ _ _ | .ssub _ _ _ _ | .smul _ _ _ _ | .smulh _ _ _ _ _ | .sand _ _ _ _ | .sor _ _ _ _ | .sxor _ _ _ _
  | .sshl _ _ _ _ _ | .sshr _ _ _ _ _ | .ssar _ _ _ _ _ | .smin _ _ _ _ _ | .smax _ _ _ _ _ | .ssel _ _ _ _
  | .sclz _ _ _ | .spop _ _ _ | .saddi _ _ | .sli _ _ | .slih _ _ | .sldp _ _ _ _ | .sstp _ _ _ | .sj _ | .sbz _ _
  | .sbnz _ _ | .scall _ | .sret | .stime _ | .sexit | .dqpush _ _ | .swait _ | .vadd _ _ _ _ | .vsub _ _ _ _
  | .vmul _ _ _ _ | .vmulhI _ _ _ _ | .vmulhN _ _ _ _ | .vmad _ _ _ _ | .vand _ _ _ _ | .vor _ _ _ _ | .vxor _ _ _ _
  | .vandn _ _ _ _ | .vshl _ _ _ _ | .vshr _ _ _ _ | .vsar _ _ _ _ | .vminI _ _ _ _ | .vminN _ _ _ _ | .vmaxI _ _ _ _
  | .vmaxN _ _ _ _ | .vabs _ _ _ | .vclz _ _ _ | .vpop _ _ _ | .vbrev _ _ _ | .vbfe _ _ _ _ | .vbfi _ _ _ _
  | .vaddi _ _ _ _ | .vli _ _ _ | .vmov _ _ _ | .vsel _ _ _ _ | .vlane _ _ | .vshflIdx _ _ _ _ | .vshflUp _ _ _ _
  | .vshflDown _ _ _ _ | .vshflXor _ _ _ _ | .vballot _ _ _ | .vredadd _ _ _ | .vredmin _ _ _ _ | .vredmax _ _ _ _
  | .pand _ _ _ _ | .por _ _ _ _ | .pxor _ _ _ _ | .pnot _ _ _ | .vtime _ _ _ | .fadd _ _ _ _ | .fsub _ _ _ _
  | .fmul _ _ _ _ | .ffma _ _ _ _ | .ffms _ _ _ _ | .fnma _ _ _ _ | .fmin _ _ _ _ | .fmax _ _ _ _ | .fabs _ _ _
  | .fneg _ _ _ | .fclass _ _ _ | .fround _ _ _ _ | .cvtx _ _ _ _ | .hadd2F16 _ _ _ _ | .hmul2F16 _ _ _ _
  | .hfma2F16 _ _ _ _ | .hadd2Bf16 _ _ _ _ | .hmul2Bf16 _ _ _ _ | .hfma2Bf16 _ _ _ _ | .dot4E4m3 _ _ _ _
  | .dot4E5m2 _ _ _ _ | .dot2Bf16 _ _ _ _ | .idp4I8 _ _ _ _ | .frcp _ _ _ | .frsq _ _ _ | .fsqrt _ _ _ | .fexp2 _ _ _
  | .flog2 _ _ _ | .fsinp _ _ _ | .fcosp _ _ _ | .twid _ _ _ _ | .bfly2 _ _ _ _ | .cmul _ _ _ _ | .cmad _ _ _ _
  | .fredadd _ _ _ | .fredmax _ _ _ | .fredmin _ _ _ | .br _ _ | .bru _ _ | .brx _ _ | .join | .waitj _ _ | .call _ _
  | .ret | .lbrk _ | .lsave _ | .lrest _ | .dqpop _ _ | .exit | .yield | .ldp _ _ _ _ _ _ _ | .stp _ _ _ _ _ _ _
  | .drainst _ | .afence _ | .pfill _ _ _ _ | .twait _ _ | .mfence _ _ | .accwait _ _ | .mquery _ _ _ _
  | .binit _ _ _ _ _ | .bjoin _ _ | .bleave _ _ | .barr _ _ _ | .bwait _ _ _ | .barrw _ _ _ | .btwait _ _ _ _
  | .bexpect _ _ _ | .jenq _ _ _ _ | .jspawn _ _ _ | .jdone _ _ | .jyield _ | .waitw _ _ _ | .msend _ _ _ _ _ _
  | .mrecv _ _ _ _ _ _ | .mprobe _ _ _ | .mcancel _ _ | .mwake _ _ _ _ _ _ | .trap _ _ _ | .bkpt _ _ _
  | .greplay _ _ _ | .gkill _ _ | .gstate _ _ _ _ _ | .pgprobe _ _ _ | .pgmig _ _ _ _ _ | .pgscrub _ _ | .lit _
  | .mod _ _ _ | .prio _ | .instructionFetchFill | .registerWrite _ _ | .coldReset | .recoveryImage _
  | .attestationRequest _ | .ctxOpen _ _ | .ctxSuspend _ | .ctxResume _ | .ctxClose _ | .ctxUpdate _ _
  | .suspendComplete _ | .zeroingComplete _ | .faultRecordAppend _ | .faultMailboxFree | .queueSubmit _ _
  | .queuePause _ | .queueUnpause _ | .queueFlush _ | .acceptanceDraw | .jobAccept _ | .jspawnResolve _ | .dispatch
  | .placementMailboxGo _ | .coreZeroingComplete _ | .clusterLaunch _ | .budgetExhausted _ | .clusterSave _
  | .idempotentDiscard _ | .blockRetire _ | .wakeWritePerform _ | .waitwCompare _ | .activeSetRefill _ _
  | .activeSetLeave _ _ | .waitjTimeout _ _ _ | .poolPortAccess _ | .poolLoadReply _ | .remoteStoreAck _
  | .serviceRequestArrive _ | .serviceReply _ | .homeStore _ | .storeAck _ | .recall _ | .forwardedRead _
  | .visitorFill _ | .atomicAtHome _ | .globalAtomicReply _ | .drainOrder _ | .drainAck _ | .linkBufferStore _ _ _
  | .linkBufferWriteback _ | .staleGenerationReturn _ | .storeFaultReport _ | .l2splitWrite _ _ | .l2splitDone _
  | .pageWalk _ | .frameOwnerZeroing _ | .walkMailboxDone _ | .walkMailboxFault | .shootdown _ _ | .shootdownComplete
  | .restripeCheck _ | .restripePassEnd _ | .restripeFinalCopy _ | .restripeShootdownAck _ _ | .restripeAbort _ _
  | .copyDataLand _ _ _ | .copyTransferFault _ _ _ | .copyCommandComplete _ _ | .mcidReplicaUpdate _
  | .mcidRelease _ _ | .streamPrefetch _ _ | .mmaStart _ | .mmaComplete _ _ | .batchArrival _ _
  | .accTransferComplete _ _ | .remoteBarrierOp _ | .barrierReply _ | .childArrival _ | .phaseNotice _
  | .errorArrival _ | .absWaitPoll _ | .btwaitTimeout _ _ _ | .msgHeaderArrive _ | .msgPull _ | .msgDataLand _
  | .msgCompletion _ | .mwakeAck _ | .linkEnable _ | .linkQuiesce _ | .linkDisable _ | .trainingSuccess _
  | .trainingFailure _ | .linkQuiesced _ | .replayLimit _ | .crcFailure _ | .timeExchange _ _ _ _ _
  | .dieResetStart _ | .dieResetContinue | .dbgStop _ | .dbgRelease _ | .dbgStep _ _ _ | .dbgDump _ _ _
  | .dbgWrite _ _ _ | .stepTimeout | .stopArrive _ | .traceSample _ | .millpondUpdate _ | .clockCheck
  | .currentLimit _ | .correctedError _ _ _ | .selftestVerdict _ _ _ _ | .selftestAccept | .currentLimitEnd _
  | .peerRequest _ _ _ _ _ | .afenceDieAck _ _ | .pgscrubScanDone _ | .devnumWrite _ => true

end Sys2Proof
end

