-- ==== Sys2Proof/Safety.lean ====
section
/-! DEFINITION. The terms in which claims are stated: the canonical form of memory and the invariants of a run; when an
instruction is free to execute, and what executing it leaves as it was. -/
namespace Sys2Proof.Machine

/-! ## Invariants -/

/-- The canonical form of a memory or of a pool: addresses strictly rising, no entry equal to what an unlisted address
reads as (log entry 2). -/
def Memory.wf (m : List Host.Cell) : Bool := Table.wf (0 : Byte) m

/-- The core clock lies between 0.8 GHz and 1.7 GHz, in steps of 25 MHz (01 R29, 18 R422, R425). -/
def clockLegal (s : State) : Bool := 32 ≤ s.clk.fstep && s.clk.fstep ≤ 68

/-- The reserved bits of SY.MODE read zero (04 R91). -/
def modeLegal (s : State) : Bool := s.mode &&& ~~~ 0x7F#64 = 0

/-- No more than 2^20 signing keys of the millhouse have been used: the key index never passes their number (18 R431). -/
def keysLegal (s : State) : Bool := s.mgmt.keyIndex ≤ 2 ^ 20

/-- The reserved bits of DCTL read zero (17 R405). -/
def dctlLegal (s : State) : Bool := s.dbg.dctl &&& ~~~ 3#64 = 0

/-- The control registers of the package hold values that the manual allows. -/
def controlsLegal (s : State) : Bool := clockLegal s && modeLegal s && keysLegal s && dctlLegal s

/-! ## Ready to execute -/

/-- Split c issues, and no register named has a write pending on the scoreboard (07 R173). -/
structure GroupIssues (s : State) (c : GC) (regs : List Nat) : Prop where
  issuing : groupCtx s = some c
  ready : regsPending s c regs = false

/-- The front-end of c issues, and no register named has a write pending. -/
structure FrontEndIssues (s : State) (c : FC) (regs : List Nat) : Prop where
  issuing : feCtx s = some c
  ready : sregsPending s c regs = false

/-- No check of 03 R73 on vector registers finds a fault: every register lies in the declared range, the tag of every
destination admits the result's shape, no register bank of the group is lost (01 R14). Registers are given as first and
how many. -/
structure RegsLegal (c : GC) (dests srcs : List (Nat × Nat)) (res : Shape) : Prop where
  range : ∀ r ∈ dests ++ srcs, r.1 + r.2 ≤ declared c.blk.hdr
  shape : ∀ r ∈ dests, ∀ j, j < r.2 → shapeRank res ≤ shapeRank (vtag c (r.1 + j))
  bank : c.blk.banksLost = []

/-- The registers a vector instruction of one destination names, one at a time. -/
def ones (ns : List Nat) : List (Nat × Nat) := ns.map fun n => (n, 1)

/-- The state after a vector instruction of one destination: the active lanes of the destination take the first parts,
SY.FPFLAGS takes the union of the second parts, and the unit retires. -/
def vecDone (s : State) (c : GC) (g d : Nat) (f : Nat → Word × BitVec 5) : State :=
  retireGrp (raiseFlags (writeReg s c d (activeLanes c g) fun i => (f i).1) c.core c.g
    ((activeLanes c g).foldl (fun x i => x ||| (f i).2) 0)) c

/-- The state after an instruction that writes a predicate in its active lanes; with none, nothing is written (03 R73). -/
def predDone (s : State) (c : GC) (g p : Nat) (uni : Bool) (vals : Word) (fl : BitVec 5) : State :=
  let t := writePred (raiseFlags s c.core c.g fl) c.core c.g p (guarded c g) vals
  retireGrp (if guarded c g = 0 then t else setUniform t c p uni) c

/-- An exact integer result in w bits: wrapped, or clamped to the signed range, or the unsigned one when the MOD's RMODE is
01b; the exact value is given for operands read as signed and as unsigned (08 R197). -/
def intResult (w : Nat) (m : BitVec 24) (sgn uns : Int) : BitVec w :=
  if m.getLsbD 2 = false then BitVec.ofInt w sgn
  else if m.extractLsb' 0 2 = 1#2 then BitVec.ofInt w (max 0 (min uns (2 ^ w - 1)))
  else BitVec.ofInt w (max (-(2 ^ (w - 1))) (min sgn (2 ^ (w - 1) - 1)))

/-- The leading zeros of a word (08 R200, R208). -/
def leadingZeros {w : Nat} (x : BitVec w) : Nat := if x = 0 then w else w - 1 - Nat.log2 x.toNat

/-- The set bits of a word. -/
def setCount {w : Nat} (x : BitVec w) : Nat := ((List.range w).filter fun i => x.getLsbD i).length

/-- Every pool address of a list is aligned, legal for the block (01 R24) and reachable: no check of 11 R274 finds a
fault. -/
structure PoolReach (s : State) (core align n : Nat) (ls : List (Nat × Word)) : Prop where
  aligned : ∀ e ∈ ls, e.2.toNat % align = 0
  legal : ∀ e ∈ ls, (poolTarget s core e.2 n).isSome
  route : ∀ e ∈ ls, poolCut s core e.2 n = false

/-- The guard of a whole-split instruction is true in every lane of the split (03 R72). -/
def WholeSplit (c : GC) (g : Nat) : Prop := guarded c g = c.spl.lanes ∧ c.spl.lanes ≠ 0

/-- An instruction of a shared class may execute on the thread that issues: no write of a register it names is pending,
and no check of 03 R73 finds a fault; a guard is true, in every lane. Registers of a group are given as first and how
many. -/
def SharedIssues (s : State) (i : Iss) (lit : Bool) (regs : List (Nat × Nat)) (sregs : List Nat) : Field23 → Prop := fun fld =>
  match i with
  | .grp c => groupCtx s = some c ∧ (lit = true ∨ c.spl.pre.lit = none) ∧ regsPending s c (regNames regs) = false
      ∧ (∀ r ∈ regs, r.1 + r.2 ≤ declared c.blk.hdr) ∧ (∀ n ∈ regNames regs, vtag c n = .uniform) ∧ c.blk.banksLost = []
      ∧ (match fld with
          | .dest p => predStaged c p.toNat = false
          | .guard g => WholeSplit c g.toNat)
  | .fe c => feCtx s = some c ∧ (lit = true ∨ c.blk.fe.pre.lit = none) ∧ sregsPending s c sregs = false
      ∧ (match fld with
          | .dest _ => True
          | .guard g => fpred c g.toNat = true)

/-- The unit of the issuing thread retires (03 R77, 07 R190). -/
def issRetire (s : State) : Iss → State
  | .grp c => retireGrp s c
  | .fe c => retireFe s c

/-- The issuing thread waits at its unit (07 R164). -/
def issWait (s : State) : Iss → State
  | .grp c => waitGrp s c
  | .fe c => waitFe s c

/-- The issuing thread takes a precise fault (03 R73). -/
def issFault (s : State) (f : Flt) : Iss → State
  | .grp c => faultGrp s c f
  | .fe c => feFault s c.core f

/-- A row of a table of scalar instructions: whether a LIT extends it, the registers it reads, what it writes to s[d]. -/
structure ScalarRow where
  instr : Instr
  lit : Bool
  reads : List Nat
  value : DWord

/-- A row of a table of vector instructions of one destination: whether a LIT extends it, the registers it reads, the
shape of its result, what each lane receives and the exception flags it raises. -/
structure VecRow where
  instr : Instr
  lit : Bool
  reads : List Nat
  shape : Shape
  value : Nat → Word × BitVec 5

/-- A row of a table of instructions that write a predicate: the vector registers read, whether the destination then
carries the uniform property (07 R182), the values by lane, the exception flags. -/
structure PredRow where
  instr : Instr
  reads : List Nat
  uni : Bool
  value : Word
  flags : BitVec 5

/-- The mask of the lanes of a list in which a condition holds. -/
def lanesWhere (ls : List Nat) (f : Nat → Bool) : Word := ls.foldl (fun m i => if f i then m ||| BitVec.ofNat 32 (2 ^ i) else m) 0

/-! ## What stays as it was -/

/-- Memory reads as before: the memory behind the L2, every home and visitor line and the registry, and every pool with
its full-empty bits. -/
structure SameMemory (s t : State) : Prop where
  behind : t.mem = s.mem
  dies : t.dies = s.dies
  pools : ∀ k, (getCore t k).pool = (getCore s k).pool
  full : ∀ k, (getCore t k).full = (getCore s k).full

/-- Every block but that of one core is as before, and on that core every group but one, the front-end and the barriers. -/
structure SameOthers (s t : State) (core g : Nat) : Prop where
  blocks : ∀ k, k ≠ core → getBlk t k = getBlk s k
  groups : ∀ j, j ≠ g → getGrp t core j = getGrp s core j
  fe : (getBlk t core).map Block.fe = (getBlk s core).map Block.fe
  barriers : (getBlk t core).map Block.barriers = (getBlk s core).map Block.barriers

/-- Only one group of one core has changed, and the state's other parts are as before. -/
structure OnlyGroup (s t : State) (core g : Nat) : Prop where
  rest : t = { s with cores := t.cores }
  cores : ∀ k, k ≠ core → tfind k t.cores = tfind k s.cores
  own : getCore t core = { getCore s core with block := (getCore t core).block }
  block : ∀ b b', getBlk s core = some b → getBlk t core = some b' → b' = { b with groups := b'.groups }
  groups : ∀ j, j ≠ g → getGrp t core j = getGrp s core j

/-- Only the front-end of one core has changed, and the state's other parts are as before. -/
structure OnlyFrontEnd (s t : State) (core : Nat) : Prop where
  rest : t = { s with cores := t.cores }
  cores : ∀ k, k ≠ core → tfind k t.cores = tfind k s.cores
  own : getCore t core = { getCore s core with block := (getCore t core).block }
  block : ∀ b b', getBlk s core = some b → getBlk t core = some b' → b' = { b with fe := b'.fe }

/-- What a front-end instruction that only works on registers writes (08 R198 to R204): its scalar destination, and its
predicate destination. -/
def feTarget : Instr → Option (Option Nat × Option Nat)
  | .sadd d _ _ _ => some (some d.toNat, none)
  | .ssub d _ _ _ => some (some d.toNat, none)
  | .smul d _ _ _ => some (some d.toNat, none)
  | .smulh d _ _ _ _ => some (some d.toNat, none)
  | .sand d _ _ _ => some (some d.toNat, none)
  | .sor d _ _ _ => some (some d.toNat, none)
  | .sxor d _ _ _ => some (some d.toNat, none)
  | .sshl d _ _ _ _ => some (some d.toNat, none)
  | .sshr d _ _ _ _ => some (some d.toNat, none)
  | .ssar d _ _ _ _ => some (some d.toNat, none)
  | .smin d _ _ _ _ => some (some d.toNat, none)
  | .smax d _ _ _ _ => some (some d.toNat, none)
  | .ssel d _ _ _ => some (some d.toNat, none)
  | .sclz d _ _ => some (some d.toNat, none)
  | .spop d _ _ => some (some d.toNat, none)
  | .saddi d _ => some (some d.toNat, none)
  | .sli d _ => some (some d.toNat, none)
  | .slih d _ => some (some d.toNat, none)
  | .stime d => some (some d.toNat, none)
  | .smfsy d _ => some (some d.toNat, none)
  | .scmp p _ _ _ _ => some (none, some p.toNat)
  | .sj _ => some (none, none)
  | .sbz _ _ => some (none, none)
  | .sbnz _ _ => some (none, none)
  | _ => none

/-- What a group instruction that only works on registers writes (08, 09): its vector destinations, its predicate
destination, and whether it may raise floating-point flags. -/
def grpTarget : Instr → Option (List Nat × Option Nat × Bool)
  | .vadd _ d _ _ => some ([d.toNat], none, false)
  | .vsub _ d _ _ => some ([d.toNat], none, false)
  | .vmul _ d _ _ => some ([d.toNat], none, false)
  | .vmulhI _ d _ _ => some ([d.toNat], none, false)
  | .vmulhN _ d _ _ => some ([d.toNat], none, false)
  | .vmad _ d _ _ => some ([d.toNat], none, false)
  | .vand _ d _ _ => some ([d.toNat], none, false)
  | .vor _ d _ _ => some ([d.toNat], none, false)
  | .vxor _ d _ _ => some ([d.toNat], none, false)
  | .vandn _ d _ _ => some ([d.toNat], none, false)
  | .vshl _ d _ _ => some ([d.toNat], none, false)
  | .vshr _ d _ _ => some ([d.toNat], none, false)
  | .vsar _ d _ _ => some ([d.toNat], none, false)
  | .vminI _ d _ _ => some ([d.toNat], none, false)
  | .vminN _ d _ _ => some ([d.toNat], none, false)
  | .vmaxI _ d _ _ => some ([d.toNat], none, false)
  | .vmaxN _ d _ _ => some ([d.toNat], none, false)
  | .vbfe _ d _ _ => some ([d.toNat], none, false)
  | .vbfi _ d _ _ => some ([d.toNat], none, false)
  | .vaddi _ d _ _ => some ([d.toNat], none, false)
  | .vshflIdx _ d _ _ => some ([d.toNat], none, false)
  | .vshflUp _ d _ _ => some ([d.toNat], none, false)
  | .vshflDown _ d _ _ => some ([d.toNat], none, false)
  | .vshflXor _ d _ _ => some ([d.toNat], none, false)
  | .vabs _ d _ => some ([d.toNat], none, false)
  | .vclz _ d _ => some ([d.toNat], none, false)
  | .vpop _ d _ => some ([d.toNat], none, false)
  | .vbrev _ d _ => some ([d.toNat], none, false)
  | .vli _ d _ => some ([d.toNat], none, false)
  | .vmov _ d _ => some ([d.toNat], none, false)
  | .vtime _ d _ => some ([d.toNat], none, false)
  | .vballot _ d _ => some ([d.toNat], none, false)
  | .vlane _ d => some ([d.toNat], none, false)
  | .vredmin _ d _ _ => some ([d.toNat], none, false)
  | .vredmax _ d _ _ => some ([d.toNat], none, false)
  | .vredadd _ d _ => some ([d.toNat], none, false)
  | .vsel _ d _ _ => some ([d.toNat], none, false)
  | .vscan _ d _ _ _ _ => some ([d.toNat], none, false)
  | .fadd _ d _ _ => some ([d.toNat], none, true)
  | .fsub _ d _ _ => some ([d.toNat], none, true)
  | .fmul _ d _ _ => some ([d.toNat], none, true)
  | .ffma _ d _ _ => some ([d.toNat], none, true)
  | .ffms _ d _ _ => some ([d.toNat], none, true)
  | .fnma _ d _ _ => some ([d.toNat], none, true)
  | .fmin _ d _ _ => some ([d.toNat], none, true)
  | .fmax _ d _ _ => some ([d.toNat], none, true)
  | .hadd2F16 _ d _ _ => some ([d.toNat], none, true)
  | .hmul2F16 _ d _ _ => some ([d.toNat], none, true)
  | .hfma2F16 _ d _ _ => some ([d.toNat], none, true)
  | .hadd2Bf16 _ d _ _ => some ([d.toNat], none, true)
  | .hmul2Bf16 _ d _ _ => some ([d.toNat], none, true)
  | .hfma2Bf16 _ d _ _ => some ([d.toNat], none, true)
  | .dot4E4m3 _ d _ _ => some ([d.toNat], none, true)
  | .dot4E5m2 _ d _ _ => some ([d.toNat], none, true)
  | .dot2Bf16 _ d _ _ => some ([d.toNat], none, true)
  | .idp4I8 _ d _ _ => some ([d.toNat], none, false)
  | .cvtx _ d _ _ => some ([d.toNat], none, true)
  | .fabs _ d _ => some ([d.toNat], none, false)
  | .fneg _ d _ => some ([d.toNat], none, false)
  | .fclass _ d _ => some ([d.toNat], none, false)
  | .fround _ d _ _ => some ([d.toNat], none, true)
  | .cvt _ d _ _ _ => some ([d.toNat], none, true)
  | .fredadd _ d _ => some ([d.toNat], none, true)
  | .fredmax _ d _ => some ([d.toNat], none, true)
  | .fredmin _ d _ => some ([d.toNat], none, true)
  | .frcp _ d _ => some ([d.toNat], none, true)
  | .frsq _ d _ => some ([d.toNat], none, true)
  | .fsqrt _ d _ => some ([d.toNat], none, true)
  | .fexp2 _ d _ => some ([d.toNat], none, true)
  | .flog2 _ d _ => some ([d.toNat], none, true)
  | .fsinp _ d _ => some ([d.toNat], none, true)
  | .fcosp _ d _ => some ([d.toNat], none, true)
  | .twid _ d _ _ => some ([d.toNat, d.toNat + 1], none, true)
  | .bfly2 _ d _ _ => some ([d.toNat, d.toNat + 1, d.toNat + 2, d.toNat + 3], none, true)
  | .cmul _ d _ _ => some ([d.toNat, d.toNat + 1], none, true)
  | .cmad _ d _ _ => some ([d.toNat, d.toNat + 1], none, true)
  | .vcmp _ p _ _ _ => some ([], some p.toNat, false)
  | .vvote _ p _ _ => some ([], some p.toNat, false)
  | .pand _ p _ _ => some ([], some p.toNat, false)
  | .por _ p _ _ => some ([], some p.toNat, false)
  | .pxor _ p _ _ => some ([], some p.toNat, false)
  | .pnot _ p _ => some ([], some p.toNat, false)
  | .fcmp _ p _ _ _ => some ([], some p.toNat, true)
  | _ => none

end Sys2Proof.Machine
end

