-- ==== Sys2Proof/Certificates/Slice0/Obligations.lean ====
section
/-! DEFINITION. The statements for the provers, from the numbered rules of spec/. -/
open Sys2Proof Sys2Proof.Machine

/-! ## Encoding and steps (03) -/

/-- 03 R64 to R67, R75: words written out from the encoding tables decode to the instructions they stand for; the opcodes
that are not assigned decode to what raises ILLEGAL, and 0xF4 to 0xFF to a no-op. -/
def Obligations.WordsDecode : Prop :=
  ([
    (0x01083180, .sadd 2 3 6 0),
    (0x121EABCD, .sli 7 0x2ABCD),
    (0x30214307, .vadd 1 5 6 7),
    (0x6142450B, .fsub 2 9 10 11),
    (0x907FFFFF, .br 3 0x1FFFFF),
    (0xA3250ACE, .stg 1 20 21 2 3 2),
    (0xB0841800, .tcopy 4 8 12),
    (0xC2210696, .mma 1 2 3 4 5 1 0),
    (0xD3468011, .barr 2 13 17),
    (0xE0210800, .msend 1 2 4 0 0 0),
    (0xF1123456, .lit 0x123456)
    ] : List (BitVec 32 × Instr)).all (fun e => decodeWord e.1 = e.2) = true ∧
  (∀ w : BitVec 32, (let op := opcodeOf w
      op = 0 ∨ (0x21 ≤ op ∧ op ≤ 0x2F) ∨ (0x5D ≤ op ∧ op ≤ 0x5F) ∨ (0x87 ≤ op ∧ op ≤ 0x8F) ∨ (0xAA ≤ op ∧ op ≤ 0xAF) ∨
      (0xBA ≤ op ∧ op ≤ 0xBF) ∨ (0xC9 ≤ op ∧ op ≤ 0xCF) ∨ op = 0xDF ∨ (0xE5 ≤ op ∧ op ≤ 0xE7)) → decodeWord w = .illegalEncoding w) ∧
  (∀ w : BitVec 32, 0xF4 ≤ opcodeOf w → decodeWord w = .definedHint w)

/-- 03 R64 to R67: the word of an instruction decodes to it, with every operand at every value that its fields hold. An
instruction keeps its word when no other name has the same one. -/
def Obligations.DecodeEncodeRoundTrip : Prop :=
  ∀ (i : Instr) (w : BitVec 32), i.keepsWord = true → encode i = [w] → decodeWord w = i

/-- 03 R77, 06 R157, 07 R164, R173: a turn of an agent fetches the word at its PC from the instruction cache, decodes it and
executes it; the state is the one that the passing cycles leave, with the agent as the issuing one, and no other thread of its
partition and no other split of its group that can issue comes first (07 R164, 03 R81); then the package settles. What the other
turns of the agenda do (the agenda is the model's own order of events, log entry 1): an event runs the table row of it, an
empty agenda lets one cycle pass, a row with an encoding does not come about as an event, and the other turns take the next
step of a die's reset sequence (16 R400, R401), evict a line, upset a stored word, bring a credit to a barrier and send a report
over the side-band (log entry 1). What a turn does comes about whole where its cycle has seen nothing that it must come before
and where it reads no level of the millpond that is out of date (log entry 120); an instruction that is none of the
special-function unit's does not meet that unit (09 R237), which accepts one that it is free for, and holds one while it is
busy. -/
def Obligations.StepRunsDecodedInstruction : Prop :=
  (∀ (s : State) (t : Turn) (a : Agent), s.agenda.head? = some t → t.act = .issue a →
    let u : State := { tick t.dt (restOf s) with cur := a }
    let runs (v : State) (k : Iss) (pc : Word) (w : Word) : Prop :=
      let x := noteStep v a.core a.who pc k (decodeWord w)
      (∀ y, exec (decodeWord w) x = .next y →
        step s = .next (settle (sfuTurn x (orderedIssue x (afterIssue x y a) a (decodeWord w)) a (decodeWord w)))) ∧
      (∀ e, exec (decodeWord w) x = .fault e → step s = .fault e)
    (∀ b c w, a.who = .fe → getBlk u a.core = some b → b.launched = true →
      (b.fe.run = .ready ∨ b.fe.run = .active ∨ b.fe.run = .waiting) → b.fe.issuedAt ≠ some u.clk.cycle →
      stopAllows b .fe b.fe.stopped (atBoundary b.fe.pre) true = true → b.fe.wait = .none →
      feCtx u = some c → inCode c.blk c.blk.fe.pc = true → fetchWord u a.core c.blk c.blk.fe.pc = some w →
      spawnHolds u ⟨a.core, .fe⟩ (decodeWord w) = false → runs u (.fe c) c.blk.fe.pc w) ∧
    (∀ g b r c w, a.who = .grp g → getBlk u a.core = some b → tfind g b.groups = some r → b.launched = true → r.run = .active →
      stopAllows b (.grp g) r.stopped (match tfind a.split r.splits with
        | some x => atBoundary x.pre
        | none => true) (grpAtBoundary r) = true →
      r.admitted + 4 ≤ u.clk.cycle → throttled u a.core = false →
      let v := modGrp u a.core g mergeSplits
      groupCtx v = some c → c.spl.wait = .none → c.spl.busyUntil ≤ v.clk.cycle → groupHeld v a.core g c.grp = false →
      (stepped b (.grp g) = true ∨ (groupLoses v a.core g b c.grp = false ∧ splitLoses v a.split c.grp = false)) →
      inCode c.blk c.spl.pc = true → fetchWord v a.core c.blk c.spl.pc = some w →
      spawnHolds v ⟨a.core, .grp g⟩ (decodeWord w) = false → runs v (.grp c) c.spl.pc w)) ∧
  ((∀ s : State, s.agenda = [] → step s = .next (settle (tick 1 s))) ∧
  (∀ (s : State) (t : Turn) (i : Instr) (u : State), s.agenda.head? = some t → t.act = .event i → encode i = [] →
    let v := tick t.dt (restOf s)
    exec i v = .next u → step s = .next (settle (orderedEvent v (withWalks v u) i))) ∧
  (∀ (s : State) (t : Turn) (i : Instr), s.agenda.head? = some t → t.act = .event i → encode i ≠ [] →
    step s = .next (tick t.dt (restOf s))) ∧
  (∀ (s : State) (t : Turn), s.agenda.head? = some t → t.act = .resetStep →
    let v := tick t.dt (restOf s)
    step s = .next (settle (orderedTurn v (resetGoes v) []))) ∧
  (∀ (s : State) (t : Turn) (d : Nat) (v : Bool) (k : Nat), s.agenda.head? = some t → t.act = .evict d v k →
    step s = .next (settle (evictLine (tick t.dt (restOf s)) d v k))) ∧
  (∀ (s : State) (t : Turn) (l : Nat), s.agenda.head? = some t → t.act = .upset l →
    step s = .next (settle (upsetWord (tick t.dt (restOf s)) l))) ∧
  (∀ (s : State) (t : Turn) (d k i : Nat), s.agenda.head? = some t → t.act = .upsetCopy d k i →
    step s = .next (settle (upsetCopy (tick t.dt (restOf s)) d k i))) ∧
  (∀ (s : State) (t : Turn) (k i : Nat), s.agenda.head? = some t → t.act = .upsetBuffer k i →
    step s = .next (settle (upsetBuffer (tick t.dt (restOf s)) k i))) ∧
  (∀ (s : State) (t : Turn) (n : Nat), s.agenda.head? = some t → t.act = .upsetMeta n →
    step s = .next (settle (upsetMeta (tick t.dt (restOf s)) n))) ∧
  (∀ (s : State) (t : Turn) (id : Nat) (u : State), s.agenda.head? = some t → t.act = .credit id →
    let v := tick t.dt (restOf s)
    landCredit id v = .next u → step s = .next (settle (orderedCredit v u))) ∧
  (∀ (s : State) (t : Turn) (ras : Bool), s.agenda.head? = some t → t.act = .sideBand ras →
    step s = .next (settle (sideBandReport (tick t.dt (restOf s)) ras)))) ∧
  (∀ (s t : State) (a : Agent) (i : Instr), s.done = [] → (readsEnergy i = false ∨ pondDue s = false) →
    ∃ d, orderedIssue s t a i = { t with done := d }) ∧
  (∀ (s t : State) (a : Agent) (i : Instr), sfuCycles i = 0 → sfuTurn s t a i = t) ∧
  (∀ (s t : State) (core g k : Nat) (i : Instr) (b : Block), getBlk s core = some b → sfuCycles i ≠ 0 →
    hasIssued s t ⟨core, .grp g, k⟩ = true →
    (b.sfuFree ≤ s.clk.cycle → (∀ q, q < 4 → presents s core q = false) → sfuTurn s t ⟨core, .grp g, k⟩ i =
      modBlk t core fun b => { b with sfuFree := s.clk.cycle + sfuCycles i, sfuLast := g % 4 }) ∧
    (s.clk.cycle < b.sfuFree → sfuTurn s t ⟨core, .grp g, k⟩ i = modSpl s core g k fun x =>
      { x with held := 8, heldAt := s.clk.cycle, since := if x.held = 8 then x.since else s.clk.cycle })) ∧
  (∀ (s : State) (n : Nat), (tick (n + 1) s).done = [])

/-! ## Invariants and reset -/

/-- Memory (10 R246, R247) keeps its canonical form, which is the model's (log entry 2): addresses strictly rising, and no entry equal to what an unlisted address reads as. -/
def Obligations.StepKeepsCanonicalMemory : Prop :=
  ∀ s t : State, Memory.wf s.mem = true → step s = .next t → Memory.wf t.mem = true

/-- 01 R29, 04 R91, 17 R405, 18 R422, R425, R431: the core clock stays between 0.8 GHz and 1.7 GHz, the reserved bits of SY.MODE
and DCTL stay zero, and no more than 2^20 signing keys have been used. -/
def Obligations.StepKeepsControlsLegal : Prop :=
  ∀ s t : State, controlsLegal s = true → step s = .next t → controlsLegal t = true

/-- The machine after reset satisfies the invariants, and holds what the manual says: 01 R17, R19 (four visitor ways), R30 (GTS
zero), 04 R91 (SY.MODE), 05 R115 (job numbers from 1), 15 R364 (no frame is owned), 16 R383, R386 (seams in TRAINING, BAR0 zero),
17 R405 (the debug block), 18 R421, R425 (the level reads CAP, PWRCFG). No context is open, no queue, no block on a core.
Memory at zero is the model's choice (log entry 2). -/
def Obligations.ResetState : Prop :=
  let s := State.reset
  Memory.wf s.mem = true ∧ controlsLegal s = true ∧
  (∀ d, d < 4 → (getDie s d).vways = 4 ∧ (getDie s d).active = 4 ∧ (getDie s d).busy = false ∧ dieAdmitted s d = true) ∧
  s.clk.gts = 0 ∧ s.mode = 0x7F ∧ s.sched.nextJob = 1 ∧
  (∀ t a, frameOwner s t a = 0xFFFF) ∧
  (∀ l, (getLink s l).state = if l < 4 then .training else .down) ∧ s.host = {} ∧ s.dbg = {} ∧
  s.mgmt.level = pondCap s ∧ pondLimit s = 1800 ∧ bitsOf s.mgmt.pwrcfg.toNat 47 16 = 50 ∧ pondFmin s = 32 ∧ s.clk.fstep = 68 ∧
  (∀ n, (getCtx s n).state = .free) ∧ (∀ q, (getQueue s q).state = .free) ∧ (∀ k, getBlk s k = none)

/-! ## Faults and frames (03, 04) -/

/-- 03 R73, 04 R96, R97, R101, R108: taking a precise fault makes the thread FAULTED, adds one to its generation, writes SY.FAULT (PC, GEN, split and code), leaves the
split at the restart PC and its registers and predicates as they were, and queues one record of kind P at the context. -/
def Obligations.PreciseFaultIsTaken : Prop :=
  (∀ (s : State) (c : GC) (f : Flt), groupCtx s = some c →
    let t := faultGrp s c f
    let restart := if f.next then c.spl.pc + 4 else unitStart c.spl.pre c.spl.pc
    (∃ x y, getGrp t c.core c.g = some x ∧ x.run = .faulted ∧ x.gen = c.grp.gen + 1 ∧
      x.fault = c.spl.pc ++ (0 : BitVec 11) ++ (c.grp.gen + 1) ++ (0 : BitVec 6) ++ BitVec.ofNat 2 c.k ++ f.code ∧
      x.regs = c.grp.regs ∧ x.preds = c.grp.preds ∧ x.fpflags = c.grp.fpflags ∧ x.flags = c.grp.flags ∧
      tfind c.k x.splits = some y ∧ y.pc = restart ∧ y.lanes = c.spl.lanes) ∧
    ∃ r, (getCtx t c.blk.ctx).pending = (getCtx s c.blk.ctx).pending ++ [r] ∧ r.code = f.code ∧ r.kind = 0 ∧ r.pc = c.spl.pc ∧
      r.restart = restart ∧ r.addr = f.addr ∧ r.lanes = c.spl.lanes ∧ r.gts = s.clk.gts ∧ r.skid = 0 ∧
      r.handle.extractLsb' 27 5 = c.grp.gen + 1 ∧ r.handle.getLsbD 26 = false) ∧
  (∀ (s : State) (c : FC) (f : Flt), feCtx s = some c →
    let t := feFault s c.core f
    let restart := if f.next then c.blk.fe.pc + 4 else unitStart c.blk.fe.pre c.blk.fe.pc
    (∃ b, getBlk t c.core = some b ∧ b.fe.run = .faulted ∧ b.fe.gen = c.blk.fe.gen + 1 ∧ b.fe.pc = restart ∧
      b.fe.fault = c.blk.fe.pc ++ (0 : BitVec 11) ++ (c.blk.fe.gen + 1) ++ (0 : BitVec 6) ++ (0 : BitVec 2) ++ f.code ∧
      b.fe.regs = c.blk.fe.regs ∧ b.fe.preds = c.blk.fe.preds ∧ b.groups = c.blk.groups) ∧
    ∃ r, (getCtx t c.blk.ctx).pending = (getCtx s c.blk.ctx).pending ++ [r] ∧ r.code = f.code ∧ r.kind = 0 ∧
      r.pc = c.blk.fe.pc ∧ r.restart = restart ∧ r.addr = f.addr ∧ r.handle.getLsbD 26 = true)

/-- 03 R71: front-end scalar and copy-engine instructions are the front-end's; vector, floating-point, control-flow, memory
(but for FENCE) and matrix instructions are the groups'. A thread of the other kind that executes one raises ILLEGAL. -/
def Obligations.ThreadClassIsEnforced : Prop :=
  ∀ (s : State) (i : Instr) (w : BitVec 32), encode i = [w] → i.keepsWord = true →
    let op := opcodeOf w
    (∀ c, groupCtx s = some c → ((0x01 ≤ op ∧ op ≤ 0x20) ∨ (0xB0 ≤ op ∧ op ≤ 0xB9)) →
      exec i s = .next (faultGrp s c { code := 0x01 })) ∧
    (∀ c, feCtx s = some c → ((0x30 ≤ op ∧ op ≤ 0x5C) ∨ (0x60 ≤ op ∧ op ≤ 0x86) ∨ (0x90 ≤ op ∧ op ≤ 0x9F) ∨
        (0xA0 ≤ op ∧ op ≤ 0xA9 ∧ op ≠ 0xA6) ∨ (0xC0 ≤ op ∧ op ≤ 0xC8)) →
      exec i s = .next (feFault s c.core { code := 0x01 }))

/-- The frame of the front-end's register instructions (08 R196, R198 to R204): nothing but the front-end changes, and in it every scalar
register but the destination, every predicate but the destination, the flags, the return stack and the fault registers stay;
every byte of memory reads as before. -/
def Obligations.ScalarFrames : Prop :=
  ∀ (i : Instr) (d p : Option Nat) (s t : State) (c : FC), feTarget i = some (d, p) → feCtx s = some c → exec i s = .next t →
    (∀ f, t ≠ feFault s c.core f) →
    OnlyFrontEnd s t c.core ∧ SameMemory s t ∧ (∀ w a, currentByte t w a = currentByte s w a) ∧
    ∃ b, getBlk t c.core = some b ∧ (∀ n, d ≠ some n → sregOf b.fe n = sregOf c.blk.fe n) ∧
      (∀ n, n < 8 → p ≠ some n → b.fe.preds.getLsbD n = c.blk.fe.preds.getLsbD n) ∧ b.fe.flags = c.blk.fe.flags ∧
      b.fe.rstack = c.blk.fe.rstack ∧ b.fe.run = c.blk.fe.run ∧ b.fe.gen = c.blk.fe.gen ∧ b.fe.fault = c.blk.fe.fault ∧
      b.fe.lastRec = c.blk.fe.lastRec

/-- The frame of the register instructions of a group (07 R169, R170, 08 R196, R207, 09 R220): nothing but the group changes, and in it every register but the
destinations, every lane but the split's, every predicate but the destination, the flags that no floating-point operation
raises and the fault registers stay; every byte of memory reads as before. -/
def Obligations.VectorFrames : Prop :=
  ∀ (i : Instr) (ds : List Nat) (p : Option Nat) (fl : Bool) (s t : State) (c : GC), grpTarget i = some (ds, p, fl) →
    groupCtx s = some c → exec i s = .next t → (∀ f, t ≠ faultGrp s c f) →
    OnlyGroup s t c.core c.g ∧ SameMemory s t ∧ (∀ w a, currentByte t w a = currentByte s w a) ∧
    ∃ r, getGrp t c.core c.g = some r ∧
      (∀ m j, j < 32 → (∀ d ∈ ds, m ≠ physReg c.spl d) → regLane c.blk.hdr r.regs m j = regLane c.blk.hdr c.grp.regs m j) ∧
      (∀ m j, j < 32 → c.blk.hdr.nu + c.blk.hdr.na ≤ m → c.spl.lanes.getLsbD j = false →
        regLane c.blk.hdr r.regs m j = regLane c.blk.hdr c.grp.regs m j) ∧
      (∀ n, p ≠ some n → tgetD 0 n r.preds = tgetD 0 n c.grp.preds) ∧ (fl = false → r.fpflags = c.grp.fpflags) ∧
      r.flags = c.grp.flags ∧ r.gen = c.grp.gen ∧ r.fault = c.grp.fault ∧ r.lastRec = c.grp.lastRec ∧ r.run = c.grp.run

/-! ## Front-end scalar instructions (08) -/

/-- 08 R196, R200, R201, R204: what the register operations write to s[sd]; a write to s0 is discarded (writeS, see
ScalarZeroIsHardwired). For every register, with or without saturation. -/
def Obligations.ScalarRegisterResults : Prop :=
  ∀ (s : State) (c : FC) (d a b : BitVec 6) (w u : BitVec 1) (n : BitVec 5) (p : BitVec 3) (imm : BitVec 18),
    let A := sreg c a.toNat
    let B := sreg c b.toNat
    let A32 : Word := A.truncate 32
    let B32 : Word := B.truncate 32
    let D := sreg c d.toNat
    let I := imm18 (feLit c) imm
    let m := feMod c
    let amt := (B + n.zeroExtend 64).toNat
    ∀ r ∈ ([
      ⟨.sadd d a b w, false, [a.toNat, b.toNat], if w = 1 then sext32 (intResult 32 m (A32.toInt + B32.toInt) (A32.toNat + B32.toNat))
        else intResult 64 m (A.toInt + B.toInt) (A.toNat + B.toNat)⟩,
      ⟨.ssub d a b w, false, [a.toNat, b.toNat], if w = 1 then sext32 (intResult 32 m (A32.toInt - B32.toInt) ((A32.toNat : Int) - B32.toNat))
        else intResult 64 m (A.toInt - B.toInt) ((A.toNat : Int) - B.toNat)⟩,
      ⟨.smul d a b w, false, [a.toNat, b.toNat], if w = 1 then sext32 (intResult 32 m (A32.toInt * B32.toInt) (A32.toNat * B32.toNat))
        else intResult 64 m (A.toInt * B.toInt) (A.toNat * B.toNat)⟩,
      ⟨.smulh d a b w u, false, [a.toNat, b.toNat],
        if w = 1 then sext32 (if u = 1 then BitVec.ofNat 32 (A32.toNat * B32.toNat / 2 ^ 32)
          else BitVec.ofInt 32 (A32.toInt * B32.toInt / 2 ^ 32))
        else if u = 1 then BitVec.ofNat 64 (A.toNat * B.toNat / 2 ^ 64) else BitVec.ofInt 64 (A.toInt * B.toInt / 2 ^ 64)⟩,
      ⟨.sand d a b w, false, [a.toNat, b.toNat], if w = 1 then sext32 (A32 &&& B32) else A &&& B⟩,
      ⟨.sor d a b w, false, [a.toNat, b.toNat], if w = 1 then sext32 (A32 ||| B32) else A ||| B⟩,
      ⟨.sxor d a b w, false, [a.toNat, b.toNat], if w = 1 then sext32 (A32 ^^^ B32) else A ^^^ B⟩,
      ⟨.sshl d a b w n, false, [a.toNat, b.toNat], if w = 1 then sext32 (A32 <<< amt) else A <<< amt⟩,
      ⟨.sshr d a b w n, false, [a.toNat, b.toNat], if w = 1 then sext32 (A32 >>> amt) else A >>> amt⟩,
      ⟨.ssar d a b w n, false, [a.toNat, b.toNat], if w = 1 then sext32 (A32.sshiftRight amt) else A.sshiftRight amt⟩,
      ⟨.smin d a b w u, false, [a.toNat, b.toNat],
        if w = 1 then sext32 (if u = 1 then (if A32.toNat ≤ B32.toNat then A32 else B32) else (if A32.toInt ≤ B32.toInt then A32 else B32))
        else if u = 1 then (if A.toNat ≤ B.toNat then A else B) else (if A.toInt ≤ B.toInt then A else B)⟩,
      ⟨.smax d a b w u, false, [a.toNat, b.toNat],
        if w = 1 then sext32 (if u = 1 then (if A32.toNat ≤ B32.toNat then B32 else A32) else (if A32.toInt ≤ B32.toInt then B32 else A32))
        else if u = 1 then (if A.toNat ≤ B.toNat then B else A) else (if A.toInt ≤ B.toInt then B else A)⟩,
      ⟨.ssel d a b p, false, [a.toNat, b.toNat], if fpred c p.toNat then A else B⟩,
      ⟨.sclz d a w, false, [a.toNat], if w = 1 then BitVec.ofNat 64 (leadingZeros A32) else BitVec.ofNat 64 (leadingZeros A)⟩,
      ⟨.spop d a w, false, [a.toNat], if w = 1 then BitVec.ofNat 64 (setCount A32) else BitVec.ofNat 64 (setCount A)⟩,
      ⟨.saddi d imm, true, [], intResult 64 m (D.toInt + I.toInt) (D.toNat + I.toNat)⟩,
      ⟨.sli d imm, true, [], I⟩,
      ⟨.slih d imm, true, [], (I.truncate 32 : Word) ++ (D.truncate 32 : Word)⟩,
      ⟨.stime d, false, [], s.clk.gts⟩] : List ScalarRow),
      FrontEndIssues s c (d.toNat :: r.reads) → (r.lit = true ∨ c.blk.fe.pre.lit = none) →
        exec r.instr s = .next (retireFe (writeS s c.core d.toNat r.value) c)

/-- 08 R199, R200: SCMP writes the condition of 03 R67 to its predicate; a write to p0 is discarded. -/
def Obligations.ScalarCompareWritesPredicate : Prop :=
  ∀ (s : State) (c : FC) (p : BitVec 3) (a b : BitVec 6) (w : BitVec 1) (k : BitVec 4),
    FrontEndIssues s c [a.toNat, b.toNat] → c.blk.fe.pre.lit = none →
    let A := sreg c a.toNat
    let B := sreg c b.toNat
    let x : Int := if w = 1 then (A.truncate 32 : Word).toInt else A.toInt
    let y : Int := if w = 1 then (B.truncate 32 : Word).toInt else B.toInt
    let ux : Nat := if w = 1 then (A.truncate 32 : Word).toNat else A.toNat
    let uy : Nat := if w = 1 then (B.truncate 32 : Word).toNat else B.toNat
    let holds : Bool := match k.toNat with
      | 0 => x = y
      | 1 => x ≠ y
      | 2 => x < y
      | 3 => x ≤ y
      | 4 => x > y
      | 5 => x ≥ y
      | 6 => ux < uy
      | 7 => ux ≤ uy
      | 8 => ux > uy
      | _ => ux ≥ uy
    (k.toNat ≤ 9 → exec (.scmp p a b w k) s = .next (retireFe (writeFpred s c.core p.toNat holds) c)) ∧
    (9 < k.toNat → exec (.scmp p a b w k) s = .next (feFault s c.core { code := 0x01 }))

/-- 03 R68, R69, 08 R196: s0 reads zero and a write to it is discarded; a write to p0 is discarded, and p0 is true. Of any
other register the value written is read back and every other register stays. -/
def Obligations.ScalarZeroIsHardwired : Prop :=
  (∀ c : FC, sreg c 0 = 0) ∧ (∀ c : FC, fpred c 0 = true) ∧
  (∀ (s : State) (core : Nat) (v : DWord), writeS s core 0 v = s) ∧
  (∀ (s : State) (core : Nat) (v : Bool), writeFpred s core 0 v = s) ∧
  (∀ (s : State) (core n m : Nat) (v : DWord) (b : Block), n ≠ 0 → getBlk s core = some b → Table.wf 0 b.fe.regs = true →
    ∃ b', getBlk (writeS s core n v) core = some b' ∧ sregOf b'.fe n = v ∧ (m ≠ n → sregOf b'.fe m = sregOf b.fe m))

/-- 08 R203, R206, 07 R176, R205: the front-end's jumps, calls and returns, its exit, DQPUSH and SWAIT. -/
def Obligations.ScalarControlCompletes : Prop :=
  ∀ (s : State) (c : FC) (a : BitVec 6) (o m : BitVec 18) (p : BitVec 3),
    let target := c.blk.fe.pc + 4 * o.signExtend 32
    (FrontEndIssues s c [a.toNat] → c.blk.fe.pre.lit = none →
      exec (.sj o) s = .next (jumpFe (modFe s c.core fun e => { e with pc := target }) c) ∧
      exec (.sbz a o) s = .next (if sreg c a.toNat = 0 then jumpFe (modFe s c.core fun e => { e with pc := target }) c
        else retireFe s c) ∧
      exec (.sbnz a o) s = .next (if sreg c a.toNat ≠ 0 then jumpFe (modFe s c.core fun e => { e with pc := target }) c
        else retireFe s c) ∧
      (c.blk.fe.rstack.length < 8 → exec (.scall o) s = .next (jumpFe (modFe s c.core fun e =>
        { e with rstack := c.blk.fe.rstack ++ [c.blk.fe.pc + 4], pc := target }) c)) ∧
      (8 ≤ c.blk.fe.rstack.length → exec (.scall o) s = .next (feFault s c.core { code := 0x18 })) ∧
      (∀ st t, c.blk.fe.rstack = st ++ [t] → t.toNat % 4 = 0 → exec .sret s = .next (jumpFe (modFe s c.core fun e =>
        { e with rstack := st, pc := t }) c)) ∧
      (c.blk.fe.rstack = [] → exec .sret s = .next (feFault s c.core { code := 0x18 })) ∧
      (spawnOf s ⟨c.core, .fe⟩ = none → exec .sexit s =
        .next (jumpFe (leaveAll (modFe s c.core fun e => { e with run := .exited }) c.core .fe) c)) ∧
      (queueUsed c.blk ≠ 128 → exec (.dqpush p a) s = .next (retireFe (writeFpred (modBlk s c.core fun b =>
        { b with dq := tputD 0 (b.dqTail.toNat % 128) (sreg c a.toNat) b.dq, dqTail := b.dqTail + 1
                 dqPushed := some s.clk.cycle }) c.core p.toNat true) c)) ∧
      (queueUsed c.blk = 128 → exec (.dqpush p a) s = .next (retireFe (writeFpred s c.core p.toNat false) c))) ∧
    (feCtx s = some c →
      let v := imm18 (feLit c) m
      (∀ n, n < 12 → v.getLsbD n = true → tgetD 0 n c.blk.fe.flags = 0) → (v.getLsbD 17 = true → fePoolIdle s c.core = true) →
      exec (.swait m) s = .next (retireFe s c))

/-! ## Vector integer, lane and predicate instructions (08) -/

/-- 08 R197, R207 to R211, R213 to R215, R217, 07 R168: the value and the result shape of every vector integer
instruction of one destination, saturating or not, for every tag that the shape rule admits. -/
def Obligations.VectorIntegerResults : Prop :=
  ∀ (s : State) (c : GC) (g p : BitVec 3) (d a b i7 : BitVec 7) (i14 : BitVec 14) (u h : BitVec 1),
    let A := fun i => vreg c a.toNat i
    let B := fun i => vreg c b.toNat i
    let D := fun i => vreg c d.toNat i
    let m := grpMod c
    let sat := m.getLsbD 2
    let act := activeLanes c g.toNat
    let sab := [vtag c a.toNat, vtag c b.toNat]
    let ug := fun (l : List Shape) => if l.all (· = .uniform) then Shape.uniform else .general
    let int := fun (f : Nat → Word) (i : Nat) => (f i, (0 : BitVec 5))
    let ab := [a.toNat, b.toNat]
    let len := fun i => min 32 ((B i).toNat / 256 % 64)
    let pos := fun i => (B i).toNat % 32
    ∀ r ∈ ([
      ⟨.vadd g d a b, false, ab, if sat then ug sab else shapeTop sab,
        int fun i => intResult 32 m ((A i).toInt + (B i).toInt) ((A i).toNat + (B i).toNat)⟩,
      ⟨.vsub g d a b, false, ab, if sat then ug sab else shapeTop sab,
        int fun i => intResult 32 m ((A i).toInt - (B i).toInt) (((A i).toNat : Int) - (B i).toNat)⟩,
      ⟨.vmul g d a b, false, ab, if sat then ug sab else shapeMul sab,
        int fun i => intResult 32 m ((A i).toInt * (B i).toInt) ((A i).toNat * (B i).toNat)⟩,
      ⟨.vmulhI g d a b, false, ab, ug sab, int fun i => BitVec.ofInt 32 ((A i).toInt * (B i).toInt / 2 ^ 32)⟩,
      ⟨.vmulhN g d a b, false, ab, ug sab, int fun i => BitVec.ofNat 32 ((A i).toNat * (B i).toNat / 2 ^ 32)⟩,
      ⟨.vmad g d a b, false, [a.toNat, b.toNat, d.toNat], ug (sab ++ [vtag c d.toNat]),
        int fun i => intResult 32 m ((A i).toInt * (B i).toInt + (D i).toInt) ((A i).toNat * (B i).toNat + (D i).toNat)⟩,
      ⟨.vand g d a b, false, ab, ug sab, int fun i => A i &&& B i⟩,
      ⟨.vor g d a b, false, ab, ug sab, int fun i => A i ||| B i⟩,
      ⟨.vxor g d a b, false, ab, ug sab, int fun i => A i ^^^ B i⟩,
      ⟨.vandn g d a b, false, ab, ug sab, int fun i => A i &&& ~~~ B i⟩,
      ⟨.vshl g d a b, false, ab, shapeShl sab, int fun i => A i <<< (B i).toNat⟩,
      ⟨.vshr g d a b, false, ab, ug sab, int fun i => A i >>> (B i).toNat⟩,
      ⟨.vsar g d a b, false, ab, ug sab, int fun i => (A i).sshiftRight (B i).toNat⟩,
      ⟨.vminI g d a b, false, ab, ug sab, int fun i => if (A i).toInt ≤ (B i).toInt then A i else B i⟩,
      ⟨.vminN g d a b, false, ab, ug sab, int fun i => if (A i).toNat ≤ (B i).toNat then A i else B i⟩,
      ⟨.vmaxI g d a b, false, ab, ug sab, int fun i => if (A i).toInt ≤ (B i).toInt then B i else A i⟩,
      ⟨.vmaxN g d a b, false, ab, ug sab, int fun i => if (A i).toNat ≤ (B i).toNat then B i else A i⟩,
      ⟨.vabs g d a, false, [a.toNat], ug [vtag c a.toNat],
        int fun i => if A i = 0x80000000 then (if sat then 0x7FFFFFFF else 0x80000000) else if (A i).toInt < 0 then - A i else A i⟩,
      ⟨.vclz g d a, false, [a.toNat], ug [vtag c a.toNat], int fun i => BitVec.ofNat 32 (leadingZeros (A i))⟩,
      ⟨.vpop g d a, false, [a.toNat], ug [vtag c a.toNat], int fun i => BitVec.ofNat 32 (setCount (A i))⟩,
      ⟨.vbrev g d a, false, [a.toNat], ug [vtag c a.toNat], int fun i => (A i).reverse⟩,
      ⟨.vbfe g d a b, false, ab, ug sab, int fun i =>
        let f := (A i).toNat / 2 ^ pos i % 2 ^ len i
        if (B i).getLsbD 15 && decide (0 < len i) && f.testBit (len i - 1) then BitVec.ofInt 32 ((f : Int) - 2 ^ len i) else BitVec.ofNat 32 f⟩,
      ⟨.vbfi g d a b, false, [a.toNat, b.toNat, d.toNat], ug (sab ++ [vtag c d.toNat]), int fun i =>
        let k : Word := BitVec.ofNat 32 (2 ^ len i - 1)
        (D i &&& ~~~ (k <<< pos i)) ||| ((A i &&& k) <<< pos i)⟩,
      ⟨.vaddi g d a i7, true, [a.toNat], if sat then ug [vtag c a.toNat] else vtag c a.toNat,
        int fun i => intResult 32 m ((A i).toInt + (imm7 (grpLit c) i7).toInt) ((A i).toNat + (imm7 (grpLit c) i7).toNat)⟩,
      ⟨.vli g d i14, true, [], .uniform, int fun _ => imm14 (grpLit c) i14⟩,
      ⟨.vmov g d a, false, [a.toNat], vtag c a.toNat, int A⟩,
      ⟨.vlane g d, false, [], .affine, int fun i => BitVec.ofNat 32 i⟩,
      ⟨.vtime g d h, false, [], .uniform, int fun _ => if h = 1 then s.clk.gts.extractLsb' 32 32 else s.clk.gts.extractLsb' 0 32⟩,
      ⟨.vshflIdx g d a b, false, ab, ug sab, int fun i => let j := (B i).toNat % 32; if j ∈ act then A j else A i⟩,
      ⟨.vshflUp g d a b, false, ab, ug sab, int fun i =>
        if (B i).toNat ≤ i ∧ i - (B i).toNat ∈ act then A (i - (B i).toNat) else A i⟩,
      ⟨.vshflDown g d a b, false, ab, ug sab, int fun i =>
        if i + (B i).toNat ≤ 31 ∧ i + (B i).toNat ∈ act then A (i + (B i).toNat) else A i⟩,
      ⟨.vshflXor g d a b, false, ab, ug sab, int fun i => let j := i ^^^ ((B i).toNat % 32); if j ∈ act then A j else A i⟩,
      ⟨.vballot g d p, false, [], .uniform, int fun _ => lanesWhere act fun i => (pmask c p.toNat).getLsbD i⟩,
      ⟨.vredadd g d a, false, [a.toNat], .uniform,
        int fun _ => intResult 32 m (act.map fun j => (A j).toInt).sum (act.map fun j => ((A j).toNat : Int)).sum⟩,
      ⟨.vredmin g d a u, false, [a.toNat], .uniform, int fun _ => foldPick false (u == 1) (act.map A)⟩,
      ⟨.vredmax g d a u, false, [a.toNat], .uniform, int fun _ => foldPick true (u == 1) (act.map A)⟩] : List VecRow),
      GroupIssues s c (d.toNat :: r.reads) → (r.lit = true ∨ c.spl.pre.lit = none) →
      RegsLegal c (ones [d.toNat]) (ones r.reads) r.shape →
        exec r.instr s = .next (vecDone s c g.toNat d.toNat r.value)

/-- 08 R213: VSEL is unguarded; every lane of the split takes a where the predicate is true, else b. A uniform or affine
destination is admitted only by a predicate that is alike in the split's lanes; the split's first lane shows it.
08 R218: VSCAN combines the active lanes up to each lane, its own included unless X is set; the first active lane of
an exclusive scan receives the identity; only a general destination takes the result; OP 11b raises ILLEGAL. -/
def Obligations.VectorSelectAndScanResults : Prop :=
  (∀ (s : State) (c : GC) (p : BitVec 3) (d a b : BitVec 7),
    GroupIssues s c [d.toNat, a.toNat, b.toNat] → c.spl.pre.lit = none →
    RegsLegal c (ones [d.toNat]) (ones [a.toNat, b.toNat])
      (if isUniformPred c p.toNat then shapeTop [vtag c a.toNat, vtag c b.toNat] else .general) →
    ∃ f : Nat → Word × BitVec 5,
      exec (.vsel p d a b) s = .next (vecDone s c 0 d.toNat f) ∧
      (vtag c d.toNat = .general → ∀ i, f i = (if (pmask c p.toNat).getLsbD i then vreg c a.toNat i else vreg c b.toNat i, 0)) ∧
      (vtag c d.toNat ≠ .general → ∀ first rest, lanesOf c.spl.lanes = first :: rest →
        ∀ i, f i = (if (pmask c p.toNat).getLsbD first then vreg c a.toNat i else vreg c b.toNat i, 0))) ∧
  (∀ (s : State) (c : GC) (g : BitVec 3) (d a : BitVec 7) (u x : BitVec 1) (o : BitVec 2),
    GroupIssues s c [d.toNat, a.toNat] → c.spl.pre.lit = none →
    (o = 3 → exec (.vscan g d a u x o) s = .next (faultGrp s c { code := 0x01 })) ∧
    (o ≠ 3 → RegsLegal c (ones [d.toNat]) (ones [a.toNat]) .general →
      exec (.vscan g d a u x o) s = .next (retireGrp (writeReg s c d.toNat (activeLanes c g.toNat) fun i =>
        let before := ((activeLanes c g.toNat).filter fun j => j < i ∨ (x = 0 ∧ j = i)).map (vreg c a.toNat)
        if before = [] then
          (if o = 0 then 0 else if o = 1 then (if u = 1 then 0xFFFFFFFF else 0x7FFFFFFF) else (if u = 1 then 0 else 0x80000000))
        else if o = 0 then intResult 32 (grpMod c) (before.map BitVec.toInt).sum (before.map fun w => (w.toNat : Int)).sum
        else foldPick (o = 2) (u == 1) before) c)))

/-- 08 R212, R216, R219, 09 R228, 07 R182: what the instructions that write a predicate write in their active lanes, and
whether it then carries the uniform property; a stage predicate of an active pipelined level raises SHAPE. -/
def Obligations.PredicateResults : Prop :=
  ∀ (s : State) (c : GC) (g p x y : BitVec 3) (a b : BitVec 7) (k f : BitVec 4),
    let A := fun i => vreg c a.toNat i
    let B := fun i => vreg c b.toNat i
    let act := activeLanes c g.toNat
    let X := fun i => (pmask c x.toNat).getLsbD i
    let cmpUni := decide (g = 0 ∧ vtag c a.toNat = .uniform ∧ vtag c b.toNat = .uniform)
    let logUni := decide (g = 0) && isUniformPred c x.toNat && isUniformPred c y.toNat
    let int : Nat → Bool := fun i => match k.toNat with
      | 0 => A i = B i
      | 1 => A i ≠ B i
      | 2 => (A i).toInt < (B i).toInt
      | 3 => (A i).toInt ≤ (B i).toInt
      | 4 => (A i).toInt > (B i).toInt
      | 5 => (A i).toInt ≥ (B i).toInt
      | 6 => (A i).toNat < (B i).toNat
      | 7 => (A i).toNat ≤ (B i).toNat
      | 8 => (A i).toNat > (B i).toNat
      | _ => (A i).toNat ≥ (B i).toNat
    let vote : Bool := match f.toNat with
      | 0 => act.all X
      | 1 => act.any X
      | 2 => act.all X || !act.any X
      | _ => !act.any X
    ∀ r ∈ ([
      ⟨.vcmp g p k a b, [a.toNat, b.toNat], cmpUni, lanesWhere act int, 0⟩,
      ⟨.fcmp g p k a b, [a.toNat, b.toNat], cmpUni, lanesWhere act fun i => (fcond k.toNat (A i) (B i)).1,
        act.foldl (fun e i => e ||| (fcond k.toNat (A i) (B i)).2) 0⟩,
      ⟨.vvote g p f x, [], true, if vote then 0xFFFFFFFF else 0, 0⟩,
      ⟨.pand g p x y, [], logUni, pmask c x.toNat &&& pmask c y.toNat, 0⟩,
      ⟨.por g p x y, [], logUni, pmask c x.toNat ||| pmask c y.toNat, 0⟩,
      ⟨.pxor g p x y, [], logUni, pmask c x.toNat ^^^ pmask c y.toNat, 0⟩,
      ⟨.pnot g p x, [], decide (g = 0) && isUniformPred c x.toNat, ~~~ pmask c x.toNat, 0⟩] : List PredRow),
      GroupIssues s c r.reads → c.spl.pre.lit = none → r.instr.wellFormed = true → RegsLegal c [] (ones r.reads) .uniform →
        (predStaged c p.toNat = false →
          exec r.instr s = .next (predDone s c g.toNat p.toNat r.uni r.value r.flags)) ∧
        (predStaged c p.toNat = true → exec r.instr s = .next (faultGrp s c { code := 0x02 }))

/-- 04 R105 to R107, 01 R15, R19, R30, 17 R408, 08 R196: reading and writing system registers. What each number reads is sysCommon and
sysGroup. A number not listed raises ILLEGAL, and so does a CLR of VMFSY on another register than SY.FPFLAGS; a write of SY.MODE or
SY.L2SPLIT without privilege PRIVILEGE. A write of SY.L2SPLIT takes its four bits while no change is under way (01 R20); one of a
watchpoint or of the trigger keeps the fields of 17 R408 and R416, and REC only with EN. -/
def Obligations.SystemRegisterAccess : Prop :=
  (∀ (s : State) (c : FC) (a d : BitVec 6) (n : BitVec 18),
    let num := (imm18 (feLit c) n).toNat
    (FrontEndIssues s c [d.toNat] →
      (num ≤ 0x018 → exec (.smfsy d n) s =
        .next (retireFe (writeS s c.core d.toNat (sysCommon s c.core c.blk c.blk.fe.fault num)) c)) ∧
      (0x018 < num → exec (.smfsy d n) s = .next (feFault s c.core { code := 0x01 }))) ∧
    (FrontEndIssues s c [a.toNat] →
      (0x018 < num → exec (.smtsy a n) s = .next (feFault s c.core { code := 0x01 })) ∧
      (num = 0x009 ∨ num = 0x00D → privileged s c.core = false →
        exec (.smtsy a n) s = .next (feFault s c.core { code := 0x12 })) ∧
      (num = 0x009 → privileged s c.core = true →
        exec (.smtsy a n) s = .next (retireFe { s with mode := sreg c a.toNat &&& 0x7F } c)) ∧
      (num ≤ 0x018 → num ≠ 0x009 → num ≠ 0x00D → num < 0x010 →
        exec (.smtsy a n) s = .next (retireFe s c)) ∧
      (let v := sreg c a.toNat
       (num = 0x00D → privileged s c.core = true → exec (.smtsy a n) s = .next (retireFe (modDie s (coreDie c.core) fun x =>
          if x.busy then x else { x with vways := v.truncate 4, busy := waysOf (v.truncate 4) ≠ x.active }) c)) ∧
       (0x010 ≤ num → num ≤ 0x017 → exec (.smtsy a n) s = .next (retireFe (modBlk s c.core fun b =>
          { b with watch := tputD 0 (num - 0x010) (v &&& 0xFBFFFFFFFFFFFFF8) b.watch }) c)) ∧
       (num = 0x018 → exec (.smtsy a n) s = .next (retireFe (modBlk s c.core fun b =>
          { b with trig := (v &&& 0x80FFCFE0FE000000) ||| (if v.getLsbD 63 then b.trig &&& 1 else 0) }) c))))) ∧
  (∀ (s : State) (c : GC) (g : BitVec 3) (d : BitVec 7) (h clr : BitVec 1) (n : BitVec 12),
    GroupIssues s c [d.toNat] → c.spl.pre.lit = none → (0x018 < n.toNat ∨ (clr = 1 ∧ n ≠ 0x008)) →
    exec (.vmfsy g d h clr n) s = .next (faultGrp s c { code := 0x01 })) ∧
  (∀ (s : State) (c : GC) (g : BitVec 3) (d : BitVec 7) (h clr : BitVec 1) (n : BitVec 12),
    GroupIssues s c [d.toNat] → c.spl.pre.lit = none → RegsLegal c (ones [d.toNat]) [] .uniform →
    n.toNat ≤ 0x018 → (clr = 1 → n = 0x008) →
    exec (.vmfsy g d h clr n) s = .next (retireGrp (if activeLanes c g.toNat = [] then s
      else
        let v := sysGroup s c n.toNat
        let t := writeReg s c d.toNat (activeLanes c g.toNat) fun _ => if h = 1 then v.extractLsb' 32 32 else v.extractLsb' 0 32
        if clr = 1 then modGrp t c.core c.g fun r => { r with fpflags := 0 } else t) c))

/-! ## Floating point, special functions, signal (09) -/

/-- 09 R220 to R236, 02 R41 to R51: the value and the flags of every floating-point instruction of one destination in
each lane, as exact sums and products rounded once (sumRound), conversions and the minimum-number rules. The result is
uniform when every source is. -/
def Obligations.FloatResults : Prop :=
  ∀ (s : State) (c : GC) (g : BitVec 3) (d a b : BitVec 7) (x : BitVec 1) (o : BitVec 4) (n : BitVec 3),
    let A := fun i => vreg c a.toNat i
    let B := fun i => vreg c b.toNat i
    let D := fun i => vreg c d.toNat i
    let R := modRnd c
    let word := fun (r : Nat × BitVec 5) => ((BitVec.ofNat 32 r.1 : Word), r.2)
    let v := fun (w : Word) => termOf (valOf f32 w.toNat)
    let prod := fun (p q : Word) => termMul (valOf f32 p.toNat) (valOf f32 q.toNat)
    let halves := fun (f : Nat → Nat × BitVec 5) => ((BitVec.ofNat 32 ((f 0).1 + (f 1).1 * 2 ^ 16) : Word), (f 0).2 ||| (f 1).2)
    let half := fun (f : Fmt) (w : Word) (j : Nat) => valOf f (w.toNat / 2 ^ (16 * j) % 2 ^ 16)
    let elem := fun (f : Fmt) (w : Word) (k j : Nat) => valOf f (w.toNat / 2 ^ (k * j) % 2 ^ k)
    let i8 := fun (w : Word) (j : Nat) => (w.extractLsb' (8 * j) 8).toInt
    let ug := fun (l : List Nat) => if l.all (fun r => vtag c r = .uniform) then Shape.uniform else .general
    let ab := [a.toNat, b.toNat]
    let abd := [a.toNat, b.toNat, d.toNat]
    let cvtReads := if o = 4 ∨ o = 5 ∨ o = 8 ∨ o = 9 then [a.toNat, d.toNat] else [a.toNat]
    ∀ r ∈ ([
      ⟨.fadd g d a b, false, ab, ug ab, fun i => word (sumRound f32 R [v (A i), v (B i)])⟩,
      ⟨.fsub g d a b, false, ab, ug ab, fun i => word (sumRound f32 R [v (A i), termNeg (v (B i))])⟩,
      ⟨.fmul g d a b, false, ab, ug ab, fun i => word (sumRound f32 R [prod (A i) (B i)])⟩,
      ⟨.ffma g d a b, false, abd, ug abd, fun i => word (sumRound f32 R [prod (A i) (B i), v (D i)])⟩,
      ⟨.ffms g d a b, false, abd, ug abd, fun i => word (sumRound f32 R [prod (A i) (B i), termNeg (v (D i))])⟩,
      ⟨.fnma g d a b, false, abd, ug abd, fun i => word (sumRound f32 R [termNeg (prod (A i) (B i)), v (D i)])⟩,
      ⟨.fmin g d a b, false, ab, ug ab, fun i => fpick false (A i) (B i)⟩,
      ⟨.fmax g d a b, false, ab, ug ab, fun i => fpick true (A i) (B i)⟩,
      ⟨.fabs g d a, false, [a.toNat], ug [a.toNat], fun i => (A i &&& 0x7FFFFFFF, 0)⟩,
      ⟨.fneg g d a, false, [a.toNat], ug [a.toNat], fun i => (A i ^^^ 0x80000000, 0)⟩,
      ⟨.fclass g d a, false, [a.toNat], ug [a.toNat], fun i => (BitVec.ofNat 32 (2 ^ fclass (A i)), 0)⟩,
      ⟨.fround g d a x, false, [a.toNat], ug [a.toNat], fun i => froundWord R.mode (x == 1) (A i)⟩,
      ⟨.hadd2F16 g d a b, false, ab, ug ab,
        fun i => halves fun j => sumRound f16 R [termOf (half f16 (A i) j), termOf (half f16 (B i) j)]⟩,
      ⟨.hmul2F16 g d a b, false, ab, ug ab, fun i => halves fun j => sumRound f16 R [termMul (half f16 (A i) j) (half f16 (B i) j)]⟩,
      ⟨.hfma2F16 g d a b, false, abd, ug abd, fun i => halves fun j =>
        sumRound f16 R [termMul (half f16 (A i) j) (half f16 (B i) j), termOf (half f16 (D i) j)]⟩,
      ⟨.hadd2Bf16 g d a b, false, ab, ug ab,
        fun i => halves fun j => sumRound bf16 R [termOf (half bf16 (A i) j), termOf (half bf16 (B i) j)]⟩,
      ⟨.hmul2Bf16 g d a b, false, ab, ug ab, fun i => halves fun j => sumRound bf16 R [termMul (half bf16 (A i) j) (half bf16 (B i) j)]⟩,
      ⟨.hfma2Bf16 g d a b, false, abd, ug abd, fun i => halves fun j =>
        sumRound bf16 R [termMul (half bf16 (A i) j) (half bf16 (B i) j), termOf (half bf16 (D i) j)]⟩,
      ⟨.dot4E4m3 g d a b, false, abd, ug abd, fun i => word (sumRound f32 rne
        [termMul (elem e4m3 (A i) 8 0) (elem e4m3 (B i) 8 0), termMul (elem e4m3 (A i) 8 1) (elem e4m3 (B i) 8 1),
         termMul (elem e4m3 (A i) 8 2) (elem e4m3 (B i) 8 2), termMul (elem e4m3 (A i) 8 3) (elem e4m3 (B i) 8 3), v (D i)])⟩,
      ⟨.dot4E5m2 g d a b, false, abd, ug abd, fun i => word (sumRound f32 rne
        [termMul (elem e5m2 (A i) 8 0) (elem e5m2 (B i) 8 0), termMul (elem e5m2 (A i) 8 1) (elem e5m2 (B i) 8 1),
         termMul (elem e5m2 (A i) 8 2) (elem e5m2 (B i) 8 2), termMul (elem e5m2 (A i) 8 3) (elem e5m2 (B i) 8 3), v (D i)])⟩,
      ⟨.dot2Bf16 g d a b, false, abd, ug abd, fun i => word (sumRound f32 rne
        [termMul (half bf16 (A i) 0) (half bf16 (B i) 0), termMul (half bf16 (A i) 1) (half bf16 (B i) 1), v (D i)])⟩,
      ⟨.idp4I8 g d a b, false, abd, ug abd, fun i => (BitVec.ofInt 32
        ((D i).toInt + i8 (A i) 0 * i8 (B i) 0 + i8 (A i) 1 * i8 (B i) 1 + i8 (A i) 2 * i8 (B i) 2 + i8 (A i) 3 * i8 (B i) 3), 0)⟩,
      ⟨.cvt g d a o n, true, cvtReads, ug cvtReads, fun i => cvtWord R o.toNat n.toNat (A i) (D i)⟩,
      ⟨.fredadd g d a, false, [a.toNat], .uniform, fun _ =>
        let r := treeFold (fun p q => word (sumRound f32 rne [v p, v q])) 5
          ((List.range 32).map fun j => if j ∈ activeLanes c g.toNat then some (A j) else none)
        ((r.1.getD 0 none).getD 0, r.2)⟩,
      ⟨.fredmax g d a, false, [a.toNat], .uniform, fun _ =>
        let r := treeFold (fpick true) 5 ((List.range 32).map fun j => if j ∈ activeLanes c g.toNat then some (A j) else none)
        ((r.1.getD 0 none).getD 0, r.2)⟩,
      ⟨.fredmin g d a, false, [a.toNat], .uniform, fun _ =>
        let r := treeFold (fpick false) 5 ((List.range 32).map fun j => if j ∈ activeLanes c g.toNat then some (A j) else none)
        ((r.1.getD 0 none).getD 0, r.2)⟩] : List VecRow),
      GroupIssues s c (d.toNat :: r.reads) → (c.spl.pre.lit = none ∨ (r.lit = true ∧ c.spl.pre.lit = some 0)) →
      r.instr.wellFormed = true → RegsLegal c (ones [d.toNat]) (ones r.reads) r.shape →
        exec r.instr s = .next (vecDone s c g.toNat d.toNat r.value)

/-- 09 R233, R234: CVTX expands or compresses each lane under its own control word; where a lane of the split compresses, vd is read, whose
shape then counts (the model's reading: log entry 34). -/
def Obligations.ScaledConversionResults : Prop :=
  ∀ (s : State) (c : GC) (g : BitVec 3) (d a b : BitVec 7),
    let packs := ∃ i ∈ lanesOf c.spl.lanes, (vreg c b.toNat i).getLsbD 7 = true
    GroupIssues s c [d.toNat, a.toNat, b.toNat] → c.spl.pre.lit = none →
    RegsLegal c (ones [d.toNat]) (ones [a.toNat, b.toNat]) .uniform →
    (vtag c d.toNat = .general ∨ (vtag c a.toNat = .uniform ∧ vtag c b.toNat = .uniform ∧ (packs → vtag c d.toNat = .uniform))) →
      exec (.cvtx g d a b) s = .next (vecDone s c g.toNat d.toNat fun i =>
        cvtxWord (modRnd c) (vreg c b.toNat i) (vreg c a.toNat i) (vreg c d.toNat i))

/-- 09 R237, R238 to R240, 02 R60 to R62: the special functions write the rounded function of each lane and raise its
flags, the transcendental ones as log entry 6 computes them; the signal instructions write their pairs and quads, every source read
before. A clause that the word belongs to has used its first long-latency operation, and no flag of it is raised (log entry 53). -/
def Obligations.SpecialAndSignalResults : Prop :=
  ∀ (s : State) (c : GC) (g : BitVec 3) (d a b : BitVec 7),
    let act := activeLanes c g.toNat
    let A := fun n i => vreg c (a.toNat + n) i
    let B := fun n i => vreg c (b.toNat + n) i
    let D := fun n i => vreg c (d.toNat + n) i
    let word := fun (r : Nat × BitVec 5) => ((BitVec.ofNat 32 r.1 : Word), r.2)
    let v := fun (w : Word) => termOf (valOf f32 w.toNat)
    let prod := fun (p q : Word) => termMul (valOf f32 p.toNat) (valOf f32 q.toNat)
    let ug := fun (l : List Nat) => if l.all (fun r => vtag c r = .uniform) then Shape.uniform else .general
    let write := fun (n : Nat) (f : Nat → Nat → Word × BitVec 5) =>
      raiseFlags (writeRegs s c d.toNat n act fun j i => (f j i).1) c.core c.g
        (act.foldl (fun x i => (List.range n).foldl (fun x j => x ||| (f j i).2) x) 0)
    let used := fun (t : State) => onSplit t c fun x => { x with clause := clauseUsed x.clause }
    let product := fun (j i : Nat) => if j = 1 then [prod (A 0 i) (B 1 i), prod (A 1 i) (B 0 i)]
      else [prod (A 0 i) (B 0 i), termNeg (prod (A 1 i) (B 1 i))]
    let twiddled := fun (j i : Nat) => if j % 2 = 1 then [prod (B 2 i) (B 1 i), prod (B 3 i) (B 0 i)]
      else [prod (B 2 i) (B 0 i), termNeg (prod (B 3 i) (B 1 i))]
    c.spl.pre.lit = none →
    (∀ e ∈ [(Instr.frcp g d a, rcpWord), (.frsq g d a, rsqWord), (.fsqrt g d a, sqrtWord), (.fexp2 g d a, exp2Word),
        (.flog2 g d a, log2Word), (.fsinp g d a, sinpWord 0), (.fcosp g d a, sinpWord 1)],
      GroupIssues s c [d.toNat, a.toNat] → flagFull c.grp.flags c.spl.clause = false →
      RegsLegal c (ones [d.toNat]) (ones [a.toNat]) (ug [a.toNat]) →
        exec e.1 s = .next (retireGrp (used (raiseFlags (writeReg s c d.toNat act fun i => (e.2 (A 0 i)).1) c.core c.g
          (act.foldl (fun x i => x ||| (e.2 (A 0 i)).2) 0))) c)) ∧
    (GroupIssues s c [d.toNat, d.toNat + 1, a.toNat, b.toNat] → flagFull c.grp.flags c.spl.clause = false →
      RegsLegal c [(d.toNat, 2)] (ones [a.toNat, b.toNat]) .general → vtag c a.toNat = .general → vtag c b.toNat = .uniform →
        exec (.twid g d a b) s = .next (retireGrp (used (raiseFlags
          (writeRegs s c d.toNat 2 act fun j i => (twidWord (A 0 i).toInt (B 0 i).toNat j).1) c.core c.g
          (act.foldl (fun x i => x ||| (twidWord (A 0 i).toInt (B 0 i).toNat 0).2 ||| (twidWord (A 0 i).toInt (B 0 i).toNat 1).2) 0))) c)) ∧
    (let regs := regNames [(d.toNat, 4), (a.toNat, 2), (b.toNat, 4)]
     GroupIssues s c regs → RegsLegal c [(d.toNat, 4)] [(a.toNat, 2), (b.toNat, 4)] (ug (regNames [(a.toNat, 2), (b.toNat, 4)])) →
        exec (.bfly2 g d a b) s = .next (retireGrp (write 4 fun j i => word (sumRound f32 rne
          (v (A (j % 2) i) :: if j < 2 then twiddled j i else (twiddled j i).map termNeg))) c)) ∧
    (let regs := regNames [(d.toNat, 2), (a.toNat, 2), (b.toNat, 2)]
     GroupIssues s c regs → RegsLegal c [(d.toNat, 2)] [(a.toNat, 2), (b.toNat, 2)] (ug (regNames [(a.toNat, 2), (b.toNat, 2)])) →
        exec (.cmul g d a b) s = .next (retireGrp (write 2 fun j i => word (sumRound f32 rne (product j i))) c)) ∧
    (let regs := regNames [(d.toNat, 2), (a.toNat, 2), (b.toNat, 2), (d.toNat, 2)]
     GroupIssues s c regs → RegsLegal c [(d.toNat, 2)] [(a.toNat, 2), (b.toNat, 2), (d.toNat, 2)]
        (ug (regNames [(a.toNat, 2), (b.toNat, 2), (d.toNat, 2)])) →
        exec (.cmad g d a b) s = .next (retireGrp (write 2 fun j i => word (sumRound f32 rne (product j i ++ [v (D j i)]))) c))

/-! ## Group control flow and hints (07, 03) -/

/-- 07 R180, R181, R182: a branch whose condition holds in no lane falls through; in every lane, moves the split; in some,
divides it: a new split of the lowest free index takes them, or the fall-through lanes go to the serial stack, and with
eight entries there DIVERGENCE is raised. Uniform branches move the whole split or raise UNIFORMITY. No split of the group
issues in the 6 cycles that follow, 8 where a uniform condition is checked in every lane (07 R180, R182). -/
def Obligations.BranchResults : Prop :=
  ∀ (s : State) (c : GC) (p : BitVec 3) (o : BitVec 21),
    let taken := c.spl.lanes &&& pmask c p.toNat
    let rest := c.spl.lanes &&& ~~~ taken
    let target := c.spl.pc + 4 * o.signExtend 32
    let bare : Split := { c.spl with pre := {}, held := 0, wait := .none, uniform := 1 }
    let fresh := (List.range 4).find? fun k => (tfind k c.grp.splits).isNone
    let room := decide (c.grp.splits.length < 4)
    let n := if isUniformPred c p.toNat then 6 else 8
    groupCtx s = some c → c.spl.pre.lit = none →
    (rest = 0 → exec (.br p o) s = .next (jumpGrp (busyGrp (onSplit s c fun x => { x with pc := target }) c 6) c)) ∧
    (rest ≠ 0 → taken = 0 → exec (.br p o) s = .next (retireGrp (busyGrp s c 6) c)) ∧
    (rest ≠ 0 → taken ≠ 0 → ∀ j, room = true → fresh = some j →
      exec (.br p o) s = .next (retireGrp (busyGrp (modGrp s c.core c.g fun r =>
        { r with splits := tput j { bare with lanes := taken, pc := target, clause := clauseTick c.spl.clause }
                   (tput c.k { bare with lanes := rest } r.splits) }) c 6) c)) ∧
    (rest ≠ 0 → taken ≠ 0 → room = false → c.grp.serial.length < 8 →
      exec (.br p o) s = .next (jumpGrp (busyGrp (modGrp s c.core c.g fun r =>
        { r with splits := tput c.k { bare with lanes := taken, pc := target } r.splits
                 serial := r.serial ++ [{ pc := c.spl.pc + 4, owner := c.k, lanes := rest, running := false }] }) c 6) c)) ∧
    (rest ≠ 0 → taken ≠ 0 → room = false → 8 ≤ c.grp.serial.length →
      exec (.br p o) s = .next (faultGrp s c { code := 0x05 })) ∧
    (taken ≠ 0 → rest ≠ 0 → exec (.bru p o) s = .next (faultGrp s c { code := 0x03 }) ∧
      exec (.call p o) s = .next (faultGrp s c { code := 0x03 })) ∧
    (taken = 0 → exec (.bru p o) s = .next (retireGrp (busyGrp s c n) c) ∧
      exec (.call p o) s = .next (retireGrp (busyGrp s c n) c)) ∧
    (taken ≠ 0 → rest = 0 →
      exec (.bru p o) s = .next (jumpGrp (busyGrp (onSplit s c fun x => { x with pc := target }) c n) c) ∧
      (c.spl.rstack.length < 8 → exec (.call p o) s = .next (jumpGrp (busyGrp (onSplit s c fun x =>
        { x with pc := target, rstack := c.spl.rstack ++ [c.spl.pc + 4] }) c n) c)) ∧
      (8 ≤ c.spl.rstack.length → exec (.call p o) s = .next (faultGrp s c { code := 0x18 })))

/-- 07 R181 to R183, R185, R186: BRX, RET, JOIN, EXIT and YIELD. The lanes of the split must agree on a BRX's guard, and on its
target whatever its guard; a target that is no multiple of 4 is misaligned. A JOIN that switches and an EXIT that takes a serial
entry end the clause like other transfers (log entry 117). -/
def Obligations.GroupTransferResults : Prop :=
  ∀ (s : State) (c : GC) (p : BitVec 3) (a : BitVec 7),
    let taken := c.spl.lanes &&& pmask c p.toNat
    groupCtx s = some c → c.spl.pre.lit = none →
    (regsPending s c [a.toNat] = false → a.toNat < declared c.blk.hdr → c.blk.banksLost = [] →
      let n := if isUniformPred c p.toNat ∧ vtag c a.toNat = .uniform then 6 else 8
      (∀ i ∈ lanesOf c.spl.lanes, ∀ j ∈ lanesOf c.spl.lanes, vreg c a.toNat i ≠ vreg c a.toNat j →
        exec (.brx p a) s = .next (faultGrp s c { code := 0x03 })) ∧
      (∀ t : Word, (∀ i ∈ lanesOf c.spl.lanes, vreg c a.toNat i = t) →
        (taken = 0 → exec (.brx p a) s = .next (retireGrp (busyGrp s c n) c)) ∧
        (taken ≠ 0 → taken ≠ c.spl.lanes → exec (.brx p a) s = .next (faultGrp s c { code := 0x03 })) ∧
        (taken ≠ 0 → taken = c.spl.lanes → t.toNat % 4 ≠ 0 → exec (.brx p a) s = .next (faultGrp s c { code := 0x16 })) ∧
        (taken ≠ 0 → taken = c.spl.lanes → t.toNat % 4 = 0 →
          exec (.brx p a) s = .next (jumpGrp (busyGrp (onSplit s c fun x => { x with pc := t }) c n) c)))) ∧
    (∀ st t, c.spl.rstack = st ++ [t] →
      exec .ret s = .next (if t.toNat % 4 = 0 then
        jumpGrp (busyGrp (onSplit s c fun x => { x with pc := t, rstack := st }) c 6) c
      else faultGrp s c { code := 0x16 })) ∧
    (c.spl.rstack = [] → exec .ret s = .next (faultGrp s c { code := 0x18 })) ∧
    ((∀ e ∈ c.grp.serial, e.owner ≠ c.k) →
      exec .join s = .next (retireGrp s c) ∧
      exec .exit s = .next (jumpGrp (settleExit (modGrp s c.core c.g fun r => { r with splits := tdel c.k r.splits }) c) c)) ∧
    (∀ l e, c.grp.serial = l ++ [e] → e.owner = c.k →
      exec .join s = .next (if e.running then
          retireGrp (busyGrp (modGrp s c.core c.g fun r =>
            { setSpl r c.k { c.spl with lanes := c.spl.lanes ||| e.lanes, uniform := 1 } with
              serial := r.serial.eraseIdx l.length }) c 6) c
        else jumpGrp (busyGrp (modGrp s c.core c.g fun r =>
            { setSpl r c.k { c.spl with lanes := e.lanes, pc := e.pc, uniform := 1 } with
              serial := r.serial.set l.length { e with pc := c.spl.pc, lanes := c.spl.lanes, running := true } }) c 6) c) ∧
      exec .exit s = .next (jumpGrp (busyGrp (modGrp s c.core c.g fun r =>
        { setSpl r c.k { c.spl with lanes := e.lanes, pc := if e.running then e.pc + 4 else e.pc, uniform := 1 } with
          serial := r.serial.eraseIdx l.length }) c 6) c)) ∧
    exec .yield s = .next (retireGrp (modGrp s c.core c.g fun r => { r with run := .ready, age := s.clk.cycle }) c)

/-- 07 R189 to R193: opening a declared loop (a loop that is skipped ends the clause, log entry 117); arming a window, through
which a name of a register is translated while its level is active, and the stage predicates of a pipelined level; the back edge of
a unit that holds the end of the innermost level: the iteration advances, or the level pops, absorbs the pending serial entries that
stand at its end and evaluates the level around it that ends there too. Leaving a loop: with no level open LOOP_NEST, whatever the
guard; in no lane nothing; in every lane the split leaves; in some, the lanes that leave become a new split, or a serial entry of a
group that has four splits, DIVERGENCE with eight entries there. LOOP_NEST before the guard, and a guard that holds in some lanes,
follow the pseudocode (log entry 118). -/
def Obligations.LoopResults : Prop :=
  ∀ (s : State) (c : GC) (g : BitVec 3) (l n : BitVec 2) (v b k : BitVec 7) (e : BitVec 15) (e' : BitVec 13),
    let depth := c.spl.levels.length
    let busy := fun (t : State) => onSplit t c fun x => { x with busyUntil := t.clk.cycle + 3, busyFor := 16 }
    let taken := c.spl.lanes &&& pmask c g.toNat
    let open_ := fun (stages : Nat) (stop : Word) (count : Word) => busy <| onSplit s c fun x =>
      { x with levels := x.levels ++ [{ count := count, start := c.spl.pc + 4, stop := stop, iter := 0, stages := stages
                                        wbase := x.armBase, wsize := x.armSize, woff := 0 }]
               armBase := 0, armSize := 0 }
    let skip := fun (stop : Word) => busy <| onSplit s c fun x => { x with pc := stop + 4, armBase := 0, armSize := 0 }
    let fits := fun (stop : Word) => ∀ lv, c.spl.levels.getLast? = some lv → c.spl.pc.toNat + 4 ≤ stop.toNat ∧ stop.toNat ≤ lv.stop.toNat
    let first := (unitStart c.spl.pre c.spl.pc).toNat
    let goes := fun (lv : LoopLevel) => lv.iter.toNat + 1 < lv.count.toNat + lv.stages - 1
    let again := fun (lv : LoopLevel) =>
      { lv with iter := lv.iter + 1, woff := if lv.wsize = 0 then 0 else (lv.woff + 1) % lv.wsize }
    let absorbed := fun (lv : LoopLevel) (e : SerialEntry) => decide (e.owner = c.k ∧ e.running = false ∧ e.pc = lv.stop + 4)
    let left := fun (r r' : Group) (x y : Split) (up : List LoopLevel) (lv : LoopLevel) =>
      (∀ i, i < 32 → y.lanes.getLsbD i = (x.lanes.getLsbD i || r.serial.any fun e => absorbed lv e && e.lanes.getLsbD i)) ∧
      r'.serial = (r.serial.filter fun e => !absorbed lv e) ∧ y.armBase = 0 ∧ y.armSize = 0 ∧ y.clause = none ∧
      ((∀ o, up.getLast? = some o → o.stop ≠ lv.stop) → y.pc = lv.stop + 4 ∧ y.levels = up) ∧
      (∀ out o, up = out ++ [o] → o.stop = lv.stop → goes o → y.pc = o.start ∧ y.levels = out ++ [again o])
    groupCtx s = some c → c.spl.pre.lit = none →
    (∀ (t : State) (r : Group) (x : Split), getGrp t c.core c.g = some r → tfind c.k r.splits = some x →
      ∃ r' y, getGrp (retireGrp t c) c.core c.g = some r' ∧ tfind c.k r'.splits = some y ∧
        ((∀ lv, x.levels.getLast? = some lv → lv.stop.toNat < first ∨ c.spl.pc.toNat < lv.stop.toNat) →
          y.pc = c.spl.pc + 4 ∧ y.levels = x.levels ∧ y.lanes = x.lanes ∧ r'.serial = r.serial) ∧
        ∀ up lv, x.levels = up ++ [lv] → first ≤ lv.stop.toNat → lv.stop.toNat ≤ c.spl.pc.toNat →
          (goes lv → y.pc = lv.start ∧ y.levels = up ++ [again lv] ∧ y.lanes = x.lanes ∧ y.clause = none ∧ r'.serial = r.serial) ∧
          (¬ goes lv → left r r' x y up lv)) ∧
    (∀ m i, vreg c m i = regLane c.blk.hdr c.grp.regs (physReg c.spl m) i) ∧
    (∀ (x : Split) m, (∀ lv ∈ x.levels, m < lv.wbase ∨ lv.wbase + lv.wsize ≤ m) → physReg x m = m) ∧
    (∀ (x : Split) (lv : LoopLevel) (j : Nat), lv ∈ x.levels → j < lv.wsize →
      (∀ o ∈ x.levels, o = lv ∨ o.wbase + o.wsize ≤ lv.wbase ∨ lv.wbase + lv.wsize ≤ o.wbase) →
      (physReg x (lv.wbase + j) : Int) = lv.wbase + ((j : Int) - lv.woff) % lv.wsize) ∧
    (∀ lv ∈ c.spl.levels, 1 < lv.stages → (∀ o ∈ c.spl.levels, 1 < o.stages → o = lv) → ∀ j, j < 4 →
      pmask c (4 + j) = if j < lv.stages ∧ j ≤ lv.iter.toNat ∧ lv.iter.toNat < lv.count.toNat + j then 0xFFFFFFFF else 0) ∧
    (regsPending s c [v.toNat] = false → v.toNat < declared c.blk.hdr → c.blk.banksLost = [] → l.toNat = depth →
      ∀ count : Word, lanesOf c.spl.lanes ≠ [] → (∀ i ∈ lanesOf c.spl.lanes, vreg c v.toNat i = count) →
      (e ≠ 0 → fits (c.spl.pc + BitVec.ofNat 32 (4 * e.toNat)) →
        let stop := c.spl.pc + BitVec.ofNat 32 (4 * e.toNat)
        exec (.loop l v e) s = .next (if count = 0 then jumpGrp (skip stop) c else retireGrp (open_ 1 stop count) c)) ∧
      (e' ≠ 0 → fits (c.spl.pc + BitVec.ofNat 32 (4 * e'.toNat)) → (∀ lv ∈ c.spl.levels, lv.stages ≤ 1) →
        let stop := c.spl.pc + BitVec.ofNat 32 (4 * e'.toNat)
        exec (.loops l v n e') s = .next (if count = 0 then jumpGrp (skip stop) c else retireGrp (open_ (n.toNat + 1) stop count) c))) ∧
    (l.toNat ≠ depth → regsPending s c [v.toNat] = false → v.toNat < declared c.blk.hdr → c.blk.banksLost = [] →
      e ≠ 0 → regMixed c v.toNat = false → exec (.loop l v e) s = .next (faultGrp s c { code := 0x04 })) ∧
    (1 ≤ k.toNat → k.toNat ≤ 32 → b.toNat + k.toNat ≤ declared c.blk.hdr → c.blk.hdr.nu + c.blk.hdr.na ≤ b.toNat → depth < 4 →
      (∀ lv ∈ c.spl.levels, b.toNat + k.toNat ≤ lv.wbase ∨ lv.wbase + lv.wsize ≤ b.toNat ∨ lv.wsize = 0) →
      exec (.rot b k) s = .next (retireGrp (onSplit s c fun x => { x with armBase := b.toNat, armSize := k.toNat }) c)) ∧
    (depth = 0 → exec (.lbrk g) s = .next (faultGrp s c { code := 0x04 })) ∧
    (depth ≠ 0 → taken = 0 → exec (.lbrk g) s = .next (retireGrp s c)) ∧
    (∀ up lv, c.spl.levels = up ++ [lv] → taken ≠ 0 →
      (taken = c.spl.lanes → (∀ o, up.getLast? = some o → o.stop ≠ lv.stop) →
        exec (.lbrk g) s = .next (jumpGrp (busyGrp (modGrp s c.core c.g fun r =>
          setSpl (popLevel r c.k c.spl lv).1 c.k (popLevel r c.k c.spl lv).2) c 6) c)) ∧
      (taken = c.spl.lanes → ∃ t r' y, exec (.lbrk g) s = .next t ∧ getGrp t c.core c.g = some r' ∧
        tfind c.k r'.splits = some y ∧ left c.grp r' c.spl y up lv ∧ y.busyUntil = s.clk.cycle + 7) ∧
      (taken ≠ c.spl.lanes → c.grp.splits.length < 4 → ∀ j, ((List.range 4).find? fun k => (tfind k c.grp.splits).isNone) = some j →
        let bare : Split := { c.spl with pre := {}, held := 0, wait := .none, uniform := 1, clause := none }
        let parts := fun (pc : Word) (lvs : List LoopLevel) => retireGrp (busyGrp (modGrp s c.core c.g fun r =>
          setSpl (setSpl r c.k { bare with lanes := c.spl.lanes &&& ~~~ taken }) j
            { bare with lanes := taken, pc := pc, levels := lvs, armBase := 0, armSize := 0 }) c 6) c
        ((∀ o, up.getLast? = some o → o.stop ≠ lv.stop) → exec (.lbrk g) s = .next (parts (lv.stop + 4) up)) ∧
        (∀ out o, up = out ++ [o] → o.stop = lv.stop → goes o →
          exec (.lbrk g) s = .next (parts o.start (out ++ [again o])))) ∧
      (taken ≠ c.spl.lanes → 4 ≤ c.grp.splits.length → c.grp.serial.length < 8 →
        exec (.lbrk g) s = .next (retireGrp (busyGrp (modGrp s c.core c.g fun r =>
          { setSpl r c.k { c.spl with lanes := c.spl.lanes &&& ~~~ taken, uniform := 1, clause := none } with
            serial := r.serial ++ [{ pc := lv.stop + 4, owner := c.k, lanes := taken, running := false }] }) c 6) c)) ∧
      (taken ≠ c.spl.lanes → 4 ≤ c.grp.splits.length → 8 ≤ c.grp.serial.length →
        exec (.lbrk g) s = .next (faultGrp s c { code := 0x05 })))

/-- 07 R194: LSAVE to the own pool writes the split's 112-byte image and clears the split's levels and armed window; an
LREST of that image restores them, and of an image of more than four levels raises LOOP_NEST. -/
def Obligations.LoopStateSavedAndRestored : Prop :=
  ∀ (s : State) (c : GC) (a : BitVec 7) (off : Nat),
    let ad := vreg c a.toNat 0 + poolOffset (grpLit c)
    groupCtx s = some c → regsPending s c [a.toNat] = false → a.toNat < declared c.blk.hdr → vtag c a.toNat = .uniform →
    c.blk.banksLost = [] → c.grp.acquire = none → ownPending s ⟨c.core, .grp c.g⟩ = false → coreTested s 1 c.core = false → ad.toNat % 16 = 0 → poolTarget s c.core ad 112 = some (c.core, off) →
    (getInst s (nextId s)).isNone → badIn s (poolNum c.core off) 112 = false → Memory.wf (getCore s c.core).pool = true →
    (∃ t, exec (.lsave a) s = .next t ∧ poolBytes t c.core off 112 = loopImage c.spl ∧
      (∀ m b, m ≠ c.core ∨ b < off ∨ off + 112 ≤ b → tgetD (0 : Byte) b (getCore t m).pool = tgetD 0 b (getCore s m).pool) ∧
      ∀ r x, getGrp t c.core c.g = some r → tfind c.k r.splits = some x →
        x.levels = [] ∧ x.armBase = 0 ∧ x.armSize = 0 ∧ x.pc = c.spl.pc + 4) ∧
    (4 < (tgetD (0 : Byte) (off + 96) (getCore s c.core).pool).toNat → ∃ t, exec (.lrest a) s = .next t ∧
      (getGrp t c.core c.g).map (fun r => (r.run, r.gen, r.fault)) =
        some (.faulted, c.grp.gen + 1, faultWord c.spl.pc (c.grp.gen + 1) c.k 0x04)) ∧
    (∀ y : Split, poolBytes s c.core off 112 = loopImage y → y.levels.length ≤ 4 →
      (∀ lv ∈ y.levels, lv.stages < 256 ∧ lv.wbase < 256 ∧ lv.wsize < 256 ∧ lv.woff < 256) → y.armBase < 256 → y.armSize < 256 →
      (∀ lv, y.levels.getLast? = some lv → lv.stop.toNat < (unitStart c.spl.pre c.spl.pc).toNat ∨ c.spl.pc.toNat < lv.stop.toNat) →
      ∃ t r x, exec (.lrest a) s = .next t ∧ getGrp t c.core c.g = some r ∧ tfind c.k r.splits = some x ∧
        x.levels = y.levels ∧ x.armBase = y.armBase ∧ x.armSize = y.armSize ∧ x.pc = c.spl.pc + 4)

/-- 07 R184, R177, R175, R179: WAITJ with no other split completes at once, with another it waits until a merge or its timeout;
two splits whose program counters, levels, armed windows, stacks and prefixes are equal merge, the lower index with the lanes of
both, and others do not; DQPOP takes the next entry into a register pair, and waits while there is none. An entry pushed in this
cycle is there from the next (07 R176). -/
def Obligations.GroupWaitResults : Prop :=
  ∀ (s : State) (c : GC) (g p : BitVec 3) (t : BitVec 14) (d : BitVec 7),
    groupCtx s = some c →
    (predStaged c p.toNat = false →
      (c.grp.splits.length = 1 → exec (.waitj p t) s =
        .next (retireGrp (setUniform (writePred s c.core c.g p.toNat c.spl.lanes c.spl.lanes) c p.toNat false) c)) ∧
      (c.grp.splits.length ≠ 1 → othersAtJoin c.grp c.k c.spl c.spl.pc = false → 0 < (imm14 (grpLit c) t).toInt →
        exec (.waitj p t) s = .next (waitGrp (onSplit s c fun x =>
          { x with wait := .waitj p (s.clk.cycle + (imm14 (grpLit c) t).toInt.toNat) }) c)) ∧
      (c.grp.splits.length ≠ 1 → othersAtJoin c.grp c.k c.spl c.spl.pc = false → (imm14 (grpLit c) t).toInt ≤ 0 →
        exec (.waitj p t) s = .next (retireGrp (setUniform (writePred s c.core c.g p.toNat c.spl.lanes 0) c p.toNat false) c))) ∧
    (∀ (r : Group) (i j : Nat) (x y : Split), r.splits = [(i, x), (j, y)] → i < j → j < 4 →
      let same := x.pc = y.pc ∧ x.levels = y.levels ∧ x.armSize = y.armSize ∧ (x.armSize = 0 ∨ x.armBase = y.armBase) ∧
        x.rstack = y.rstack ∧ x.pre = y.pre
      (same → x.wait = .none → y.wait = .none → x.pre.start = none → mergeSplits r =
        { r with splits := [(i, { x with lanes := x.lanes ||| y.lanes, uniform := 1, clause := none })]
                 serial := r.serial.map fun e => if e.owner = j then { e with owner := i } else e }) ∧
      (¬ same → mergeSplits r = r)) ∧
    (c.spl.pre.lit = none → regsPending s c [d.toNat, d.toNat + 1] = false → d.toNat + 2 ≤ declared c.blk.hdr →
      c.blk.banksLost = [] → flagFull c.grp.flags c.spl.clause = false →
      (c.spl.lanes &&& pmask c g.toNat = 0 → exec (.dqpop g d) s = .next (retireGrp s c)) ∧
      (c.spl.lanes &&& pmask c g.toNat ≠ 0 → c.spl.lanes &&& pmask c g.toNat = c.spl.lanes →
        let tail := if c.blk.dqPushed = some s.clk.cycle then c.blk.dqTail - 1 else c.blk.dqTail
        (c.grp.pg ≠ tail → waitingPops c.grp = [] → exec (.dqpop g d) s =
          .next (retireGrp (modSpl (modGrp s c.core c.g fun r => popInto c.blk r c.spl d.toNat) c.core c.g c.k fun x =>
            { x with clause := clauseUsed x.clause }) c)) ∧
        (c.grp.pg = tail → ∃ u, exec (.dqpop g d) s = .next u ∧ ∃ r x, getGrp u c.core c.g = some r ∧
          tfind c.k r.splits = some x ∧ x.wait = .dqpop d.toNat c.grp.tickets (clauseFlag c.spl.clause) ∧
          x.pc = unitStart c.spl.pre c.spl.pc ∧ r.regs = c.grp.regs)))

/-- 03 R75, R77 to R81: the hints on either kind of thread. A second LIT or MOD in a unit, a clause of length 0 and a word
without a meaning raise ILLEGAL. -/
def Obligations.HintResults : Prop :=
  ∀ (s : State) (w : BitVec 32) (p : BitVec 24) (n m : BitVec 1) (r l2 : BitVec 2) (wt : BitVec 12) (l a b : BitVec 4),
    let payload : BitVec 24 := (0 : BitVec 20) ++ n ++ m ++ r
    let joined := fun (x : Pre) (pc : Word) => { x with start := some (x.start.getD pc) }
    (∀ c, groupCtx s = some c →
      let add := fun (f : Pre → Pre) => modGrp s c.core c.g fun q => { q with issued := q.issued + 1, splits := tmod c.k (fun x =>
        { x with pre := joined (f x.pre) c.spl.pc, pc := c.spl.pc + 4, clause := clauseTick x.clause, held := 0 }) q.splits }
      (c.spl.pre.lit = none → exec (.lit p) s = .next (add fun x => { x with lit := some p })) ∧
      (c.spl.pre.lit ≠ none → exec (.lit p) s = .next (faultGrp s c { code := 0x01 })) ∧
      (c.spl.pre.mod = none → exec (.mod n m r) s = .next (add fun x => { x with mod := some payload })) ∧
      (c.spl.pre.mod ≠ none → exec (.mod n m r) s = .next (faultGrp s c { code := 0x01 })) ∧
      exec (.illegalEncoding w) s = .next (faultGrp s c { code := 0x01 }) ∧
      (c.spl.pre.lit = none →
        exec (.definedHint w) s = .next (retireGrp s c) ∧
        exec (.prio l2) s = .next (retireGrp (modGrp s c.core c.g fun q => { q with prio := if l2 = 3 then 0 else l2 }) c) ∧
        (l = 0 → exec (.clause wt l a b) s = .next (faultGrp s c { code := 0x01 })) ∧
        (l ≠ 0 → (∀ i, i < 12 → wt.getLsbD i = true → tgetD 0 i c.grp.flags = 0) →
          exec (.clause wt l a b) s = .next (retireGrp (onSplit s c fun x =>
            { x with clause := some { left := l.toNat + 1, flagA := a, flagB := b, first := true } }) c)))) ∧
    (∀ c, feCtx s = some c →
      let add := fun (f : Pre → Pre) => modFe s c.core fun e => { e with
        pre := joined (f e.pre) c.blk.fe.pc, pc := c.blk.fe.pc + 4, issued := e.issued + 1, clause := clauseTick e.clause, held := 0 }
      (c.blk.fe.pre.lit = none → exec (.lit p) s = .next (add fun x => { x with lit := some p })) ∧
      (c.blk.fe.pre.mod = none → exec (.mod n m r) s = .next (add fun x => { x with mod := some payload })) ∧
      exec (.illegalEncoding w) s = .next (feFault s c.core { code := 0x01 }) ∧
      (c.blk.fe.pre.lit = none →
        exec (.definedHint w) s = .next (retireFe s c) ∧ exec (.prio l2) s = .next (retireFe s c) ∧
        (l ≠ 0 → (∀ i, i < 12 → wt.getLsbD i = true → tgetD 0 i c.blk.fe.flags = 0) →
          exec (.clause wt l a b) s = .next (retireFe (modFe s c.core fun e =>
            { e with clause := some { left := l.toNat + 1, flagA := a, flagB := b, first := true } }) c))))

/-! ## Pool memory (10, 11) -/

/-- 11 R276 to R279, R281, R295: a pool instruction whose addresses are legal puts one access a lane, ascending, on its way
(a uniform address: one access), in its lanes' targets, with the flag of its clause; a guard false in every lane does
nothing; .rel releases first, .acq holds the group's later memory instructions. A PFILL makes an access for each 16 granules of
its range. 08 R202: SLDP and SSTP with an
address below 2^32 that is legal do the same from the front-end. -/
def Obligations.PoolInstructionsComplete : Prop :=
  (∀ (s : State) (c : GC) (g : BitVec 3) (d a : BitVec 7) (w m q : BitVec 2) (x r : BitVec 1) (sc : BitVec 2) (o : BitVec 4),
    let act := activeLanes c g.toNat
    let at_ := fun (ls : List Nat) => ls.map fun i => (i, vreg c a.toNat i + poolOffset (grpLit c))
    let aimed := fun (ls : List Nat) (n : Nat) (f : Nat → PoolOp) => targets s c.core n (at_ ls) f
    let flagged := takeFlag (bumpId s) c
    let flag := clauseFlag c.spl.clause
    let inst : PoolInst := { id := nextId s, src := ⟨c.core, .grp c.g⟩, split := c.k, use := .none, dests := [], nbytes := 16
                             lanes := guarded c g.toNat, uniform := false, left := 0, pc := c.spl.pc }
    let waits := fun (t : State) => (getInst t (nextId s)).any fun e => 0 < e.left
    let hold := fun (t : State) => onSplit t c fun y => { y with wait := .fullEmpty (nextId s) }
    let uni := vtag c a.toNat = .uniform
    groupCtx s = some c → acquireHolds c = false →
    (let n := ldpBytes w x
     let k := regsFor n
     let ls := if uni then act.take 1 else act
     let op : Nat → PoolOp := fun _ => if m = 1 ∨ m = 2 then .loadFe n (m = 2) else .load n
     let l := aimed ls n op
     regsPending s c (a.toNat :: (List.range k).map (d.toNat + ·)) = false →
     RegsLegal c [(d.toNat, k)] (ones [a.toNat]) (if uni then .uniform else .general) →
     (act = [] → exec (.ldp g d a w m x sc) s = .next (retireGrp s c)) ∧
     (act ≠ [] → PoolReach s c.core n n (at_ ls) → ownError s c.core l = none → flagFull c.grp.flags c.spl.clause = false →
       landingFull s c.core l = false →
       let t := issuePool flagged { inst with
           use := .load (w.toNat < 2 && x = 1), dests := (List.range k).map fun j => physReg c.spl (d.toNat + j), nbytes := n
           uniform := uni, flag := flag, acquire := m = 3 } none (if m = 3 then some sc else none)
         (if uni then l.map fun y => (0, y.2) else l)
       let t := if m = 3 ∧ waits t = true then setAcquire t c (nextId s) else t
       exec (.ldp g d a w m x sc) s = .next (if (m = 1 ∨ m = 2) ∧ waits t = true then waitGrp (hold t) c else retireGrp t c))) ∧
    (let n := ldpBytes w x
     let k := regsFor n
     let l := aimed act n fun i => .store n (laneData c d.toNat k i) (q.getLsbD 0)
     let remote := l.any fun y => y.2.1.1 ≠ c.core
     let rel := q.getLsbD 1
     regsPending s c (a.toNat :: (List.range k).map (d.toNat + ·)) = false →
     RegsLegal c [] [(d.toNat, k), (a.toNat, 1)] .uniform →
     (act = [] → exec (.stp g d a w q x sc) s = .next (retireGrp s c)) ∧
     (act ≠ [] → PoolReach s c.core n n (at_ act) → (remote = true → flagFull c.grp.flags c.spl.clause = false) →
       (rel = true → grpReleases s c = true) →
       let t := if remote then flagged else bumpId s
       exec (.stp g d a w q x sc) s = .next (retireGrp (issuePool (if rel then releaseAt t c.core sc else t)
         { inst with nbytes := n, flag := if remote then flag else none } (if rel then some sc else none) none l) c))) ∧
    (let n := if 0xB ≤ o.toNat then 8 else 4
     let k := n / 4
     let reads := if o = 0x9 ∨ o = 0xD then 2 * k else k
     let b := fun i => if n = 8 then vpair c d.toNat i else (vreg c d.toNat i).zeroExtend 64
     let b' := fun i => if o = 0xD then vpair c (d.toNat + 2) i else if o = 0x9 then (vreg c (d.toNat + 1) i).zeroExtend 64 else 0
     let l := aimed act n fun i => .atomic o (b i) (b' i)
     let sc? := if r = 1 then some sc else none
     o.toNat < 0xE → regsPending s c (a.toNat :: (List.range reads).map (d.toNat + ·)) = false →
     RegsLegal c [(d.toNat, k)] [(d.toNat, reads), (a.toNat, 1)] .general →
     (act = [] → exec (.atp g d a o r sc) s = .next (retireGrp s c)) ∧
     (act ≠ [] → PoolReach s c.core n n (at_ act) → ownError s c.core l = none → flagFull c.grp.flags c.spl.clause = false →
       landingFull s c.core l = false → (r = 1 → grpReleases s c = true) →
       let t := issuePool (if r = 1 then releaseAt flagged c.core sc else flagged) { inst with
         use := .atomic, dests := (List.range k).map fun j => physReg c.spl (d.toNat + j), nbytes := n, flag := flag
         acquire := r = 1 } sc? sc? l
       exec (.atp g d a o r sc) s = .next (retireGrp (if r = 1 ∧ waits t = true then setAcquire t c (nextId s) else t) c))) ∧
    (let len := (vreg c d.toNat 0).toNat
     let ad := vreg c a.toNat 0 + poolOffset (grpLit c)
     regsPending s c [d.toNat, a.toNat] = false → RegsLegal c [] (ones [d.toNat, a.toNat]) .uniform →
     vtag c d.toNat = .uniform → vtag c a.toNat = .uniform → WholeSplit c g.toNat → len % 16 = 0 → ad.toNat % 16 = 0 →
     (len = 0 → exec (.pfill g d a x) s = .next (retireGrp s c)) ∧
     (∀ k off, 0 < len → PoolReach s c.core 16 len [(0, ad)] → poolTarget s c.core ad len = some (k, off) →
       exec (.pfill g d a x) s = .next (retireGrp (issuePool (bumpId s) { inst with nbytes := len, uniform := true } none none
         ((List.range ((len + 255) / 256)).map fun i =>
           (i, (k, off + 256 * i), .fillRange (min 256 (len - 256 * i)) (x = 1)))) c)))) ∧
  (∀ (s : State) (c : FC) (d a b : BitVec 6) (w : BitVec 2) (sx : BitVec 1),
    let n := 2 ^ w.toNat
    let A := sreg c a.toNat
    let at_ : List (Nat × Word) := [(0, A.truncate 32)]
    let inst : PoolInst := { id := nextId s, src := ⟨c.core, .fe⟩, split := 0, use := .none, dests := [], nbytes := n
                             lanes := 1, uniform := true, left := 0, pc := c.blk.fe.pc, flag := clauseFlag c.blk.fe.clause }
    c.blk.fe.pre.lit = none → A.toNat < 2 ^ 32 → PoolReach s c.core n n at_ →
    (let l := targets s c.core n at_ fun _ => .load n
     FrontEndIssues s c [d.toNat, a.toNat] → ownError s c.core l = none → flagFull c.blk.fe.flags c.blk.fe.clause = false →
     landingFull s c.core l = false →
       exec (.sldp d a w sx) s = .next (retireFe (issuePool (takeFlagFe (bumpId s) c)
         { inst with use := .scalar (sx = 1), dests := [d.toNat] } none none l) c)) ∧
    (let l := targets s c.core n at_ fun _ => .store n ((sreg c b.toNat).zeroExtend 128) false
     let remote := l.any fun y => y.2.1.1 ≠ c.core
     FrontEndIssues s c [a.toNat, b.toNat] → (remote = true → flagFull c.blk.fe.flags c.blk.fe.clause = false) →
       exec (.sstp a b w) s = .next (retireFe (issuePool (if remote then takeFlagFe (bumpId s) c else bumpId s)
         { inst with flag := if remote then inst.flag else none } none none l) c)))

/-- 10 R247, R250, R251, 11 R275, R280: what an access does when its turn comes at the pool's port: a load reads the bytes,
a store replaces them and no others, an atomic replaces the word by the result of its operation on the old value, which
the instruction receives, unless the pool is under test or a seam on the way is held (18 R426, 16 R383); a full-empty load reads full granules, and with clear empties them, or waits.
11 R278, R279: the reply of a pool instruction writes its destinations once every access has been performed; an
acknowledgement counts one remote store off, and the last ends a store instruction. -/
def Obligations.PoolPortResults : Prop :=
  (∀ (s : State) (r : PoolReq),
    let pool := fun (t : State) (k b : Nat) => tgetD (0 : Byte) b (getCore t k).pool
    let full := fun (t : State) (k x : Nat) => tgetD false x (getCore t k).full
    let val := fun (n : Nat) => poolRead s r.dst r.off n
    let got := fun (t : State) => ∀ e, getInst s r.inst = some e → (getInst t r.inst).map (fun x => (x.left, tfind r.lane x.vals)) =
      some (e.left - 1, some (val (opBytes r.op)))
    let samePools := fun (t : State) => ∀ k b, pool t k b = pool s k b
    let sameFull := fun (t : State) => ∀ k x, full t k x = full s k x
    (∀ k, Memory.wf (getCore s k).pool = true) → (∀ k, Table.wf false (getCore s k).full = true) →
    (s.flight.pool.find? fun q => q.id = r.id) = some r → r.arrived = false → portBefore s r = false → coreTested s 1 r.dst = false →
    seamHeld s (coreDie r.src.core) (coreDie r.dst) = false →
    (opReads r.op = true → ∀ e, getInst s r.inst = some e → e.use ≠ .none) → badIn s (poolNum r.dst r.off) (opBytes r.op) = false →
    ∃ t, exec (.poolPortAccess r.id) s = .next t ∧
      (∀ n, r.op = .load n → got t ∧ samePools t ∧ sameFull t) ∧
      (∀ n clr, r.op = .loadFe n clr →
        (granulesFull s r.dst r.off n = true → got t ∧ samePools t ∧
          ∀ k x, full t k x = (full s k x && !(clr && k = r.dst && (granules r.off n).contains x))) ∧
        (granulesFull s r.dst r.off n = false → samePools t ∧ sameFull t ∧ getInst t r.inst = getInst s r.inst
          ∧ { r with arrived := true } ∈ t.flight.pool)) ∧
      (∀ n v fill, r.op = .store n v fill →
        (∀ k b, pool t k b = if k = r.dst ∧ r.off ≤ b ∧ b < r.off + n then v.extractLsb' (8 * (b - r.off)) 8 else pool s k b) ∧
        (fill = false → sameFull t)) ∧
      (∀ op b b', r.op = .atomic op b b' → got t ∧ sameFull t ∧
        ∀ k a, pool t k a = if k = r.dst ∧ r.off ≤ a ∧ a < r.off + atomicSize op then
            (atomicNew op ((val (atomicSize op)).truncate 64) b b').extractLsb' (8 * (a - r.off)) 8 else pool s k a) ∧
      (∀ n set, r.op = .fillRange n set → samePools t ∧
        (set = false → ∀ k x, full t k x = (full s k x && !(k = r.dst && (granules r.off n).contains x))))) ∧
  (∀ (s : State) (e : PoolInst), getInst s e.id = some e → repliesHeld s e = false →
    (e.left = 0 → loadsRegs e.use = true → e.ue = none → exec (.poolLoadReply e.id) s = .next (endInst (landLoad s e) e)) ∧
    (0 < e.left → exec (.poolLoadReply e.id) s = .next s) ∧
    (1 < e.acks → exec (.remoteStoreAck e.id) s = .next (modInst s e.id fun x => { x with acks := x.acks - 1 })) ∧
    (e.left = 0 → e.acks = 1 → e.use = .none → e.ue = none → exec (.remoteStoreAck e.id) s = .next (endInst s e)))

/-- 11 R280: the new value of each atomic operation from the old value m and the operands. -/
def Obligations.AtomicOperations : Prop :=
  ∀ m b b' : DWord,
    let M : Word := m.truncate 32
    let B : Word := b.truncate 32
    let B' : Word := b'.truncate 32
    let w := fun (op : BitVec 4) (x : Word) => atomicNew op m b b' = x.zeroExtend 64 ∧ atomicSize op = 4
    let d := fun (op : BitVec 4) (x : DWord) => atomicNew op m b b' = x ∧ atomicSize op = 8
    w 0x0 (M + B) ∧ w 0x1 (M &&& B) ∧ w 0x2 (M ||| B) ∧ w 0x3 (M ^^^ B) ∧
    w 0x4 (if M.toInt ≤ B.toInt then M else B) ∧ w 0x5 (if M.toNat ≤ B.toNat then M else B) ∧
    w 0x6 (if M.toInt ≥ B.toInt then M else B) ∧ w 0x7 (if M.toNat ≥ B.toNat then M else B) ∧
    w 0x8 B ∧ w 0x9 (if M = B then B' else M) ∧
    w 0xA (BitVec.ofNat 32 (sumRound f32 rne [termOf (valOf f32 M.toNat), termOf (valOf f32 B.toNat)]).1) ∧
    d 0xB (m + b) ∧ d 0xC b ∧ d 0xD (if m = b then b' else m)

/-- 11 R275, R279: an STP whose lanes all address the own pool has stored when it retires: a byte takes the value of the
highest lane that covers it; every other byte of every pool is as it was. -/
def Obligations.PoolStoreWritesOwnPool : Prop :=
  ∀ (s : State) (c : GC) (g : BitVec 3) (v a : BitVec 7) (w q sc : BitVec 2) (x : BitVec 1) (off : Nat → Nat),
    let act := activeLanes c g.toNat
    let n := ldpBytes w x
    let k := regsFor n
    let addr := fun i => vreg c a.toNat i + poolOffset (grpLit c)
    let covers := fun (i b : Nat) => off i ≤ b ∧ b < off i + n
    let pool := fun (t : State) (m b : Nat) => tgetD (0 : Byte) b (getCore t m).pool
    groupCtx s = some c → acquireHolds c = false → regsPending s c (a.toNat :: (List.range k).map (v.toNat + ·)) = false →
    RegsLegal c [] [(v.toNat, k), (a.toNat, 1)] .uniform → (q.getLsbD 1 = true → grpReleases s c = true) →
    ownPending s ⟨c.core, .grp c.g⟩ = false → coreTested s 1 c.core = false → Memory.wf (getCore s c.core).pool = true → act ≠ [] →
    (∀ i ∈ act, (addr i).toNat % n = 0 ∧ poolTarget s c.core (addr i) n = some (c.core, off i)) →
    ∃ t, exec (.stp g v a w q x sc) s = .next t ∧
      (∀ m b, m ≠ c.core ∨ (∀ i ∈ act, ¬ covers i b) → pool t m b = pool s m b) ∧
      (∀ i ∈ act, ∀ b, covers i b → (∀ j ∈ act, i < j → ¬ covers j b) →
        pool t c.core b = (laneData c v.toNat k i).extractLsb' (8 * (b - off i)) 8)

/-- 11 R276 to R278: an LDP without full-empty behaviour whose lanes all address the own pool: its reply completes it, and
then the lane's registers hold the bytes that the pool held at its issue, sign- or zero-extended when narrow. -/
def Obligations.PoolLoadReturnsPool : Prop :=
  ∀ (s : State) (c : GC) (g : BitVec 3) (d a : BitVec 7) (w m sc : BitVec 2) (x : BitVec 1) (off : Nat → Nat),
    let act := activeLanes c g.toNat
    let n := ldpBytes w x
    let k := regsFor n
    let addr := fun i => vreg c a.toNat i + poolOffset (grpLit c)
    let uni := vtag c a.toNat = .uniform
    let lanes := if uni then act.take 1 else act
    let piece := fun (i j : Nat) =>
      let v := poolRead s c.core (off (if uni then lanes.headD 0 else i)) n
      if w = 0 then (if x = 1 then (v.truncate 8 : BitVec 8).signExtend 32 else (v.truncate 8 : BitVec 8).zeroExtend 32)
      else if w = 1 then (if x = 1 then (v.truncate 16 : BitVec 16).signExtend 32 else (v.truncate 16 : BitVec 16).zeroExtend 32)
      else v.extractLsb' (32 * j) 32
    groupCtx s = some c → acquireHolds c = false → regsPending s c (a.toNat :: (List.range k).map (d.toNat + ·)) = false →
    RegsLegal c [(d.toNat, k)] (ones [a.toNat]) (if uni then .uniform else .general) → (m = 0 ∨ m = 3) → act ≠ [] →
    flagFull c.grp.flags c.spl.clause = false → Table.wf 0 c.grp.regs = true →
    (getInst s (nextId s)).isNone → ownPending s ⟨c.core, .grp c.g⟩ = false → coreTested s 1 c.core = false →
    (∀ i ∈ lanes, (addr i).toNat % n = 0 ∧ poolTarget s c.core (addr i) n = some (c.core, off i)
      ∧ badIn s (poolNum c.core (off i)) n = false) →
    ∃ t u, exec (.ldp g d a w m x sc) s = .next t ∧ exec (.poolLoadReply (nextId s)) t = .next u ∧
      ∀ i ∈ act, ∀ j, j < k → (∀ j', j < j' → j' < k → physReg c.spl (d.toNat + j') ≠ physReg c.spl (d.toNat + j)) →
        (getGrp u c.core c.g).map (fun r => regLane c.blk.hdr r.regs (physReg c.spl (d.toNat + j)) i) = some (piece i j)

/-! ## Global memory (10, 11) -/

/-- 11 R284 to R286: an STG whose lanes are aligned sends the bytes of its active lanes, one request for each 128-byte line
in the order of the lines' lowest lanes, and retires; a wake write sends each lane's word by itself (05 R136); .rel releases first.
11 R280 to R283: an ATG asks for every lane's page; it waits, and sends the lanes once every page has been translated.
No active lane: nothing. -/
def Obligations.GlobalInstructionsComplete : Prop :=
  (∀ (s : State) (c : GC) (g q : BitVec 3) (v a : BitVec 7) (w sc : BitVec 2),
    let n := 2 ^ w.toNat
    let k := regsFor n
    let act := activeLanes c g.toNat
    let va := fun i => (vpair c a.toNat i + globalOffset (grpLit c)).toNat
    let ls := act.map fun i => (i, va i)
    let rel := q.getLsbD 0
    let wake := q.getLsbD 1
    let data := laneData c v.toNat k
    let op : GlobalOp := match wake, rel with
      | false, false => .store
      | false, true => .relStore sc
      | true, false => .wake
      | true, true => .relWake sc
    let send := fun (inst : Nat) (t : State) (base : Nat) (bs : List (Nat × Nat × Byte)) => issueReq (bumpId t)
      { id := nextId t, inst := inst, thread := ⟨c.core, .grp c.g⟩, split := c.k, die := coreDie c.core, ctx := c.blk.ctx
        pc := c.spl.pc, va := base, op := op, bytes := bs, fm := w ++ q ++ sc, issued := c.grp.issued + 1
        epoch := (getDie s (coreDie c.core)).epoch }
    groupCtx s = some c → acquireHolds c = false →
    regsPending s c (a.toNat :: (a.toNat + 1) :: (List.range k).map (v.toNat + ·)) = false →
    RegsLegal c [] [(v.toNat, k), (a.toNat, 2)] .uniform → q.getLsbD 2 = false → (wake = true → w = 3) →
    (∀ i ∈ act, va i % n = 0) → (act ≠ [] → rel = true → grpReleases s c = true) →
    (act = [] → exec (.stg g v a w q sc) s = .next (retireGrp s c)) ∧
    (act ≠ [] →
      let t := globalWatch (if rel then releaseAt s c.core sc else s) c.core (.grp c.g) c.spl.pc 1 n ls fun i => firstBytes n ((data i).truncate 64)
      exec (.stg g v a w q sc) s = .next (retireGrp (if wake then
          foldSt (fun u e => send (nextId t) u e.2 (lineBytes [e] (alignDown e.2 128) n data)) (bumpId t) ls
        else foldSt (fun u base => send (nextId t) u base (lineBytes ls base n data)) (bumpId t) (linesOf ls)) c))) ∧
  (∀ (s : State) (c : GC) (g : BitVec 3) (d a : BitVec 7) (o : BitVec 4) (q : BitVec 1) (sc : BitVec 2),
    let n := if 0xB ≤ o.toNat then 8 else 4
    let k := n / 4
    let reads := if o = 0x9 ∨ o = 0xD then 2 * k else k
    let act := activeLanes c g.toNat
    let va := fun i => (vpair c a.toNat i + globalOffset (grpLit c)).toNat
    let ls := act.map fun i => (i, va i)
    let id := nextId s
    let b := fun i => if n = 8 then vpair c d.toNat i else (vreg c d.toNat i).zeroExtend 64
    let b' := fun i => if o = 0xD then vpair c (d.toNat + 2) i else if o = 0x9 then (vreg c (d.toNat + 1) i).zeroExtend 64 else 0
    let t := takeFlag (bumpId s) c
    let t := modFlight (if q = 1 then releaseAt t c.core sc else t) fun f => { f with atgs := f.atgs ++
      [{ id := id, src := ⟨c.core, .grp c.g⟩, split := c.k, dests := (List.range k).map fun j => physReg c.spl (d.toNat + j)
         lanes := guarded c g.toNat, size := n, flag := clauseFlag c.spl.clause, left := act.length
         acquire := if q = 1 then some sc else none }] }
    let t := foldSt (fun t e => issueReq (bumpId t)
      { id := nextId t, inst := id, thread := ⟨c.core, .grp c.g⟩, split := c.k, die := coreDie c.core, ctx := c.blk.ctx
        pc := c.spl.pc, va := e.2, lane := e.1, epoch := (getDie s (coreDie c.core)).epoch
        op := .atomic o (b e.1) (b' e.1) (q = 1) sc }) t ls
    groupCtx s = some c → acquireHolds c = false → o.toNat < 0xE →
    regsPending s c (a.toNat :: (a.toNat + 1) :: (List.range reads).map (d.toNat + ·)) = false →
    RegsLegal c [(d.toNat, k)] [(d.toNat, reads), (a.toNat, 2)] .general → (∀ i ∈ act, va i % n = 0) →
    (act = [] → exec (.atg g d a o q sc) s = .next (retireGrp s c)) ∧
    (act ≠ [] → flagFull c.grp.flags c.spl.clause = false → (q = 1 → grpReleases s c = true) →
      (∀ e code, atgSettled t id = true → atgFault t id = some (e, code) →
        exec (.atg g d a o q sc) s = .next (faultGrp s c { code := code, addr := BitVec.ofNat 64 e.va })) ∧
      (atgSettled t id = false ∨ atgFault t id = none →
        let t := globalWatch t c.core (.grp c.g) c.spl.pc 2 n ls fun _ => 0
        let t := if atgSettled t id then sendAtg t id else t
        let t := if q = 1 then setAcquire t c id else t
        exec (.atg g d a o q sc) s = .next (waitGrp (onSplit t c fun x => { x with wait := .atg id }) c))))

/-- 11 R291 to R294: DRAINST, FENCE and INVR retire once what they wait for has come about, AFENCE releases, writes back and
waits for every die that is admitted (log entry 45); FENCE with a Q that names neither, or a reserved one, and INVR of cluster or die scope raise ILLEGAL.
11 R292: FENCE on a front-end: its release waits for the global writes of its copy commands too. -/
def Obligations.FencesComplete : Prop :=
  (∀ (s : State) (c : GC) (g q : BitVec 3) (n a : BitVec 7) (sc : BitVec 2),
    let fence := fun (core : Nat) =>
      let t := if q.getLsbD 1 then releaseAt s core sc else s
      if q.getLsbD 0 then acquireAt t core sc else t
    groupCtx s = some c → acquireHolds c = false →
    (c.spl.pre.lit = none → WholeSplit c g.toNat →
      ((s.flight.global.all fun r => !(decide (r.thread = ⟨c.core, .grp c.g⟩) && isStore r.op && r.send.isNone)) = true →
        exec (.drainst g) s = .next (retireGrp s c)) ∧
      (1 ≤ q.toNat → q.toNat ≤ 3 → (q.getLsbD 1 = true → grpReleases s c = true) →
        exec (.fence g q sc) s = .next (retireGrp (fence c.core) c)) ∧
      (grpReleases s c = true →
        let id := nextId s
        let t := writeBackStored (releaseAt (bumpId s) c.core 3) c.grp.stored
        let t := acquireAt (modGrp t c.core c.g fun r => { r with acquire := some id }) c.core 3
        exec (.afence g) s = .next (waitGrp (onSplit (modFlight t fun f => { f with scans := f.scans ++
          [{ id := id, thread := ⟨c.core, .grp c.g⟩, split := c.k, ctx := c.blk.ctx, va := 0
             dies := (List.range 4).filter fun d => dieAdmitted t d }] }) c fun x => { x with wait := .afence id }) c))) ∧
    (c.spl.pre.lit = none → (q = 0 ∨ 3 < q.toNat) → exec (.fence g q sc) s = .next (faultGrp s c { code := 0x01 })) ∧
    (regsPending s c [n.toNat, a.toNat, a.toNat + 1] = false →
      (sc.toNat < 2 → exec (.invr g n a sc) s = .next (faultGrp s c { code := 0x01 })) ∧
      (2 ≤ sc.toNat → RegsLegal c [] [(n.toNat, 1), (a.toNat, 2)] .uniform →
        (∀ r ∈ [n.toNat, a.toNat, a.toNat + 1], vtag c r = .uniform) → WholeSplit c g.toNat →
        let len := (vreg c n.toNat 0).toNat
        exec (.invr g n a sc) s = .next (retireGrp (flashClear s (coreDie c.core) (if 2 ^ 20 < len then fun _ => true
          else regionKeys s c.core c.blk.ctx (vpair c a.toNat 0 + globalOffset (grpLit c)).toNat len)) c)))) ∧
  (∀ (s : State) (c : FC) (g q : BitVec 3) (sc : BitVec 2),
    let t := if q.getLsbD 1 then releaseAt s c.core sc else s
    feCtx s = some c → c.blk.fe.pre.lit = none → 1 ≤ q.toNat → q.toNat ≤ 3 →
    (fpred c g.toNat = false → exec (.fence g q sc) s = .next (retireFe s c)) ∧
    (fpred c g.toNat = true → (q.getLsbD 1 = true → feReleases s c.core = true) →
      exec (.fence g q sc) s = .next (retireFe (if q.getLsbD 0 then acquireAt t c.core sc else t) c)) ∧
    (fpred c g.toNat = true → q.getLsbD 1 = true → feReleases s c.core = false →
      exec (.fence g q sc) s = .next (modFe s c.core fun e => { e with held := 14 })))

/-- 10 R255 to R259, R267, R268, 11 R287, R289, 01 R20: what happens to a store after its issue. It is performed at its
home once no other agent has a word of it registered (else those words are recalled), acknowledged, or kept with the code
that stopped it, reported at a unit boundary once every line of its STG has ended, a record for each aligned word of 8 bytes that was refused, in
ascending order of the words; a request of an old generation returns and is translated again.
10 R258, R261, R262, R267, 11 R282, R283, R294, 01 R20: the events of atomics, releases, acquires, recalls and drains. -/
def Obligations.GlobalMemoryEvents : Prop :=
  (∀ (s : State) (id : Nat) (r : GlobalReq), getReq s id = some r →
    let p := reqPlace r
    let base := lineBase r
    let foreign := foreignWords s p base (wordsOf r.bytes) (if r.visitor then ownerOfDie r.die else 0)
    (r.op = .store → atHomeNow s r = true →
      (∀ c, homeCode s r.die p base = some c → r.visitor = false →
        exec (.homeStore id) s = .next (modReq s id fun r => { r with stage := .faulted c })) ∧
      (homeCode s r.die p base = none → exec (.homeStore id) s =
        .next (if foreign = [] then performStore s r else orderRecalls s id p base foreign))) ∧
    (isStore r.op = true → r.stage = .performed → r.send = none → replyHeld s r = false →
      (r.copy = none → exec (.storeAck id) s = .next (dropReq s id)) ∧
      (∀ t, r.copy = some t → exec (.storeAck id) s = .next (creditCopy (dropReq s id) r.thread.core t t.bytes))) ∧
    (r.stage = .atHome → staleReq s r = true → r.visitor = false → r.copy = none →
      ∃ u, exec (.staleGenerationReturn id) s = .next u ∧
        u = startWalk (modReq (dropEntry s r.thread.core r.ctx r.va) id fun r => { r with leaf := none, visitor := false, stage := .translate, back := r.leaf.map Leaf.size })
          r.thread.core r.ctx r.va false) ∧
    (∀ code g x, r.stage = .faulted code → r.thread.who = .grp g → getGrp s r.thread.core g = some x → isStore r.op = true →
      r.send = none → storeSettled s r = true →
      let l := refusedOf s r
      let first := refusedFirst l
      let rest := foldSt (fun t q => dropReq t q.id) s l
      (x.run = .killed → exec (.storeFaultReport id) s = .next rest) ∧
      (x.run = .exited → exec (.storeFaultReport id) s = .next (exitedReport rest r l g first)) ∧
      (x.run = .faulted → exec (.storeFaultReport id) s = .next (modGrp rest r.thread.core g fun y =>
        appendRecords y (reportRecords l (skidOf r x)))) ∧
      (x.run ≠ .killed → x.run ≠ .exited → x.run ≠ .faulted → reportTakes x = true →
        exec (.storeFaultReport id) s = .next (impreciseFault rest r l g first x))) ∧
    (∀ (l : List GlobalReq) (skid : Byte), (∀ q ∈ l, ∀ b ∈ q.bytes, byteAddr q b < 2 ^ 64) →
      ((reportRecords l skid).Pairwise fun x y => x.addr.toNat / 8 < y.addr.toNat / 8) ∧
      ∀ q ∈ l, ∀ b ∈ q.bytes, ∃ x ∈ reportRecords l skid, x.addr.toNat / 8 = byteAddr q b / 8 ∧ x.skid = skid) ∧
    (r.inst ≠ 0 → ∀ q, q ∈ refusedOf s r ↔ q ∈ s.flight.global ∧ q.inst = r.inst ∧ isStore q.op = true ∧ ∃ c, q.stage = .faulted c)) ∧
  ((∀ (s : State) (id : Nat) (r : GlobalReq), getReq s id = some r → atHomeNow s r = true → againReady s r = true →
    (∀ x ∈ s.flight.global, laneBefore r x = false) →
    (∀ op b b' q scope, r.op = .atomic op b b' q scope → homeCode s r.die (reqPlace r) (reqAddr r) = none →
      exec (.atomicAtHome id) s = .next (if recallFirst s r = [] then performAtomic s r op b b' q scope
        else orderRecalls s id (reqPlace r) (lineBase r) (recallFirst s r))) ∧
    (∀ scope, r.op = .relStore scope → homeCode s r.die (reqPlace r) (reqAddr r) = none → recallFirst s r = [] →
      exec (.atomicAtHome id) s = .next (performRelease (againRelease s r scope).1 (againRelease s r scope).2 scope))) ∧
  (∀ (s : State) e, (s.flight.atgs.find? fun x => x.id = e.id) = some e → atgDone s e = true → (∀ r ∈ atgReqs s e.id, replyHeld s r = false) →
    (∀ g, e.src.who = .grp g → ∀ x, getGrp s e.src.core g = some x → x.run ≠ .faulted) →
    (∀ r c, atgFault s e.id = some (r, c) → exec (.globalAtomicReply e.id) s = .next (atgRaise s e c r.va)) ∧
    (atgFault s e.id = none → ((atgReqs s e.id).all fun r => (reqRelease r.op).isNone) = true →
      exec (.globalAtomicReply e.id) s = .next (atgRetire s e))) ∧
  (∀ (s : State) m, (s.flight.recalls.find? fun x => x.id = m.id) = some m →
    ownerHeld s m.owner (keyPlace m.key) (keyAddr m.key) = false →
    (0 < m.owner.toNat → m.owner.toNat ≤ 4 → visitorTested s (m.owner.toNat - 1) m.key = false ∧
      otherRoute s m.home (m.owner.toNat - 1) m.via m.id = false) → ∃ u, exec (.recall m.id) s = .next u ∧
    u.flight.recalls = s.flight.recalls.filter (fun x => x.id ≠ m.id) ∧ currentWord u = currentWord
      (recallWord s (keyPlace m.key) (keyAddr m.key + 4 * m.word))) ∧
  (∀ (s : State) m, (s.flight.drains.find? fun x => x.id = m.id) = some m →
    (m.done = false → (0 < m.owner.toNat → m.owner.toNat ≤ 4 → (∀ d, d < 4 → seamHeld s (m.owner.toNat - 1) d = false) ∧
        otherRoute s m.home (m.owner.toNat - 1) m.via m.id = false ∧
        ∀ v ∈ (getDie s (m.owner.toNat - 1)).visitor, v.2.owned ≠ 0 → visitorTested s (m.owner.toNat - 1) v.1 = false) →
      ∃ u, exec (.drainOrder m.id) s = .next u ∧ ∀ x ∈ u.flight.drains, x.id = m.id → x.done = true) ∧
    (m.done = true → (0 < m.owner.toNat → m.owner.toNat ≤ 4 → seamHeld s (m.owner.toNat - 1) m.home = false) →
      ∃ u, exec (.drainAck m.id) s = .next u ∧ u.flight.drains = s.flight.drains.filter (fun x => x.id ≠ m.id))) ∧
  (∀ (s : State) x (die : BitVec 2) g y, (s.flight.scans.find? fun z => z.id = x.id) = some x → x.dies.contains die.toNat = true →
    x.thread.who = .grp g → getGrp s x.thread.core g = some y → y.acquire = some x.id →
    ∃ u, exec (.afenceDieAck x.id die) s = .next u ∧ ∀ z ∈ u.flight.scans, z.id = x.id → die.toNat ∉ z.dies) ∧
  (∀ (s : State) (buf : BitVec 2), (∀ w, (s.flight.linkWords.find? fun w => w.buf = buf.toNat) = some w →
      exec (.linkBufferWriteback buf) s = .next (recallWord s (keyPlace w.key) (keyAddr w.key + 4 * w.word))) ∧
    (∀ (addr : BitVec 52) (b : Byte), buf.toNat < 3 → s.host.winBase.toNat ≤ addr.toNat →
      addr.toNat + 1 ≤ s.host.winBase.toNat + s.host.winSize →
      homeCode s (homeDie windowPlace addr.toNat) windowPlace addr.toNat = none →
      placeBeyond windowPlace (alignDown addr.toNat 128) 128 = false → frozenAt s windowPlace addr.toNat = false →
      throttledAt s windowPlace addr.toNat = false → homeTested s windowPlace addr.toNat = false →
      let i := addr.toNat % 128 / 4
      (regWord s windowPlace (alignDown addr.toNat 128 + 4 * i)).owner ≠ BitVec.ofNat 3 (buf.toNat + 5) →
      exec (.linkBufferStore buf addr [b]) s = .next (bufferWord s buf.toNat windowPlace (alignDown addr.toNat 128) i
        [(addr.toNat % 128, 0, b)]))) ∧
  (∀ (s : State) (die : BitVec 2) (v : BitVec 64),
    exec (.l2splitWrite die v) s = .next (writeSplit s die.toNat v) ∧
    ((getDie s die.toNat).busy = true → waysEmptied (getDie s die.toNat) = true → ∃ u, exec (.l2splitDone die) s = .next u ∧ (getDie u die.toNat).busy = false ∧
      (getDie u die.toNat).active = waysOf (getDie s die.toNat).vways)))

/-- 10 R255, R258: a store of one die performed at its home in HBM writes its bytes, and every other byte of memory reads
as before: those of the same line that it does not name, and, where the line has a way or finds one free, those of every other
line (one that gives up its way is written back). -/
def Obligations.HomeStoreWritesItsBytes : Prop :=
  ∀ (s : State) (id : Nat) (r : GlobalReq), getReq s id = some r → r.id = id → r.op = .store → r.visitor = false →
    atHomeNow s r = true →
    let p := reqPlace r
    let base := lineBase r
    homeCode s r.die p base = none → foreignWords s p base (wordsOf r.bytes) 0 = [] → placeTier p < 2 →
    (∀ i ∈ wordsOf r.bytes, wordRefused s p base i r.bytes = none) →
    (∀ b ∈ r.bytes, b.1 < 128) → (r.bytes.map Prod.fst).Nodup →
    Table.wf ({} : RegWord) (getDie s (homeDie p base)).registry = true →
    ∃ u q, exec (.homeStore id) s = .next u ∧ getReq u id = some q ∧ q.stage = .performed ∧
      (∀ b ∈ r.bytes, currentByte u p (base + b.1) = b.2.2) ∧
      (∀ j, j < 128 → (∀ b ∈ r.bytes, b.1 ≠ j) → currentByte u p (base + j) = currentByte s p (base + j)) ∧
      (homeHeld s p base = true ∨ (homeFree s p base).isSome = true →
        ∀ p' x, lineKey p' x ≠ lineKey p base → currentByte u p' x = currentByte s p' x)

/-- 10 R257: a recall returns the owner's value to the home: the word reads as before, and it is no longer registered. -/
def Obligations.RecallKeepsTheWord : Prop :=
  ∀ (s : State) (p : Word) (a : Nat) (w : Word), placeTier p < 2 → a % 4 = 0 →
    Table.wf ({} : RegWord) (getDie s (homeDie p a)).registry = true →
    (regWord s p a).owner ≠ 0 → ownerCut s (regWord s p a).owner p a = false → ownerWord s (regWord s p a).owner p a = some w →
    let t := recallWord s p a
    (regWord t p a).owner = 0 ∧ currentWord t p a = w ∧ currentWord t p a = currentWord s p a

/-! ## The copy engine (12) -/

/-- 12 R297, R302, R303, R306, R309, R315 to R318: a data command whose descriptor passes the checks enters the queue and
its success predicate is true; with 32 pending, or a multicast id that is DRAINING, it is false and nothing else happens.
TWAIT retires when no more commands than its operand are pending; TQUERY gives the status word, or the mask of ids and
streams. -/
def Obligations.CopyInstructionsComplete : Prop :=
  ∀ (s : State) (c : FC) (p g : BitVec 3) (a b d : BitVec 6) (n : BitVec 9),
    c.blk.fe.pre.lit = none →
    (FrontEndIssues s c [a.toNat, a.toNat + 1, a.toNat + 2, a.toNat + 3, b.toNat] → a.toNat ≤ 60 →
      let w3 := sreg c (a.toNat + 3)
      let cmd := fun (op : Nat) => readDesc (nextId s) op c.blk.fe.pc (sreg c a.toNat) (sreg c (a.toNat + 1)) (sreg c (a.toNat + 2)) w3
        (sreg c b.toNat) s.clk.cycle
      let sound := fun (op : Nat) => copyIllegal (cmd op) = false ∧ copyMisaligned (cmd op) (bitsOf w3.toNat 39 20) = none
        ∧ poolRangeBad s c.core (cmd op) = none
      let full := 32 ≤ c.blk.copy.cmds.length
      let refused := retireFe (writeFpred s c.core p.toNat false) c
      (∀ e ∈ [(Instr.tcopy p a b, 0xB0), (.tfill p a b, 0xB2), (.tslot p a b, 0xB3), (.tstore p a b, 0xB4),
          (.tgather p a b, 0xB5), (.tscatter p a b, 0xB6), (.tcopym p a b, 0xB1)],
        sound e.2 → copyBarOk s c.core c.blk ((sreg c b.toNat).truncate 16) = true →
        exec e.1 s = .next (if full ∨ (e.2 = 0xB1 ∧ tgetD false (w3.extractLsb' 54 4).toNat c.blk.copy.mcids = true) then refused
          else retireFe (writeFpred (acceptCmd s c.core c.blk (cmd e.2)) c.core p.toNat true) c)) ∧
      ((sreg c (a.toNat + 1)).getLsbD 15 = true ∨ sound 0xB7 ∧ bitsOf (sreg c (a.toNat + 1)).toNat 7 0 ≠ 0 →
        exec (.tstream p a b) s = .next (if full then refused
          else retireFe (writeFpred (declareStream s c.core (cmd 0xB7)) c.core p.toNat true) c))) ∧
    (feCtx s = some c → fpred c g.toNat = true → c.blk.copy.cmds.length ≤ n.toNat → exec (.twait g n) s = .next (retireFe s c)) ∧
    (FrontEndIssues s c [d.toNat] → fpred c g.toNat = true →
      let e := c.blk.copy
      (n = 0 → exec (.tquery g d n) s = .next (retireFe (writeS s c.core d.toNat
        (e.i4rsv ++ (0 : BitVec 8) ++ e.lastf ++ BitVec.ofNat 8 (32 - e.cmds.length) ++ BitVec.ofNat 8 e.cmds.length)) c)) ∧
      (n = 1 → ∃ v, exec (.tquery g d n) s = .next (retireFe (writeS s c.core d.toNat v) c) ∧
        (∀ i, i < 16 → v.getLsbD i = tgetD false i e.mcids) ∧
        (∀ i, i < 8 → v.getLsbD (16 + i) = (tfind i e.streams).isSome)) ∧
      (n = 2 → exec (.tquery g d n) s = .next (retireFe (writeS (modCopy s c.core fun x => { x with i4rsv := 0 }) c.core d.toNat
        (e.i4rsv ++ (0 : BitVec 8) ++ e.lastf ++ BitVec.ofNat 8 (32 - e.cmds.length) ++ BitVec.ofNat 8 e.cmds.length)) c)) ∧
      (2 < n.toNat → exec (.tquery g d n) s = .next (feFault s c.core { code := 0x01 })))

/-- 12 R299, R310, R311, R309, R315, 10 R254, R257: the engine's steps. A command that has not started starts; bytes that
have been read land in pool at the row's stride, and nowhere else; the last transfer's end takes the command off the queue;
a claim or release of a multicast id reaches a replica; a stream's next line is fetched with the translation that the stream keeps
for its page (15 R365), and moves it on.
12 R309, 10 R254, R257, R262: a claim or release reaches a replica, in order; an id is released when no command with it
is pending in the cluster; the bytes of a read or fill reach its transfer. -/
def Obligations.CopyEngineSteps : Prop :=
  (∀ (s : State) (core : Nat) (b : Block) (c : CopyCmd),
    getBlk s core = some b → getCmd s core c.id = some c →
    (∀ j t, c.transfers[j]? = some t →
      (c.started = false → mayStart s core b c = true → exec (.copyDataLand core c.id j) s = .next (startCmd s core b c)) ∧
      (c.started = true → t.ended = false →
        (∀ bs, t.got = some bs → (c.op = 0xB0 ∨ c.op = 0xB5) → Memory.wf (getCore s (poolPlace s core (poolBase c + t.row * c.pstride + t.col)).1).pool = true →
          firstRow c j = 0 → t.dest = 0 →
          let p := poolPlace s core (poolBase c + t.row * c.pstride + t.col)
          poolTurn s core p.1 c = true → engineCut s core p.1 = false → ∃ u, exec (.copyDataLand core c.id j) s = .next u ∧
            ∀ k x, tgetD (0 : Byte) x (getCore u k).pool =
              if k = p.1 ∧ p.2 ≤ x ∧ x < p.2 + bs.length then bs.getD (x - p.2) 0 else tgetD 0 x (getCore s k).pool) ∧
        (t.got = none → (s.flight.reads.any fun r => r.core = core && r.cmd = c.id && r.tr = j) = false →
          ∀ u, (if readsGlobal c.op then readGlobal s core b c j t else readPoolPiece s core b c j t) = some u →
            exec (.copyDataLand core c.id j) s = .next u)) ∧
      (∀ k va, refusedWrite s core c.id j = none → transferFault s core b c j t = some (k, va) →
        ∃ u, exec (.copyTransferFault core c.id j) s = .next u ∧ (getBlk u core).map (fun x => x.copy.lastf) = some k)) ∧
    (cmdEnded s core b c = true → ∃ u, exec (.copyCommandComplete core c.id) s = .next u ∧
      ∀ b', getBlk u core = some b' → ∀ x ∈ b'.copy.cmds, x.id ≠ c.id) ∧
    (cmdEnded s core b c = false → exec (.copyCommandComplete core c.id) s = .next s) ∧
    (∀ k st, tfind k.toNat b.copy.streams = some st → st.next < st.read + st.depth →
      let va := (streamLines st).getD st.next 0
      (streamLeaf s core b.ctx st va = none → exec (.streamPrefetch core k) s = .next (startWalk s core b.ctx va true)) ∧
      (∀ e, streamLeaf s core b.ctx st va = some (.code e) →
        exec (.streamPrefetch core k) s = .next (endStream (takeWalk s core b.ctx va) core k.toNat)) ∧
      (∀ l, streamLeaf s core b.ctx st va = some (.leaf l) →
        let a := physAddr l va
        let t := modStream (takeWalk s core b.ctx va) core k.toNat fun x => { x with kept := some (pageBase l va, l) }
        homeTested s l.place a = false → routeHeld s (coreDie core) l.place a = false →
        (s.flight.global.any (reqBefore s core (nextId s) l.place a) || s.flight.reads.any (readBefore s core (nextId s) l.place a)) = false →
        (staleLeaf t b.ctx va l = true → exec (.streamPrefetch core k) s =
          .next (dropEntry (modStream t core k.toNat fun x => { x with kept := none }) core b.ctx va)) ∧
        (staleLeaf t b.ctx va l = false → exec (.streamPrefetch core k) s =
          .next (if (sendFault t (coreDie core) l a 128 false).isSome then endStream t core k.toNat
            else fetchLine t core k.toNat st l va))))) ∧
  (∀ s : State,
    (∀ m, (s.flight.mcids.find? fun x => x.id = m.id) = some m →
      (s.flight.mcids.any fun e => e.id < m.id && e.core = m.core && e.mcid = m.mcid) = false → crossBefore s m.src m.core m.id = false →
      seamHeld s (coreDie m.src) (coreDie m.core) = false →
      ∃ u, exec (.mcidReplicaUpdate m.id) s = .next u ∧
        ∀ b, getBlk s m.core = some b → ∃ b', getBlk u m.core = some b' ∧ (m.claim = true → mcidDraining b' m.mcid = true) ∧
          (m.claim = false → b'.copy.mcids = tdel m.mcid.toNat b.copy.mcids)) ∧
    (∀ cl x mcid, getCl s cl = some x → x.draining.contains mcid = true →
      ((clusterCores x).all fun c => match getBlk s c with
        | some b => !(decide (b.cluster = cl) && b.copy.cmds.any fun k => k.op = 0xB1 && k.mcid = mcid)
        | none => true) = true →
      ∃ u x', exec (.mcidRelease cl mcid) s = .next u ∧ getCl u cl = some x' ∧ mcid ∉ x'.draining ∧
        u.flight.mcids.length = s.flight.mcids.length + x.w * x.h) ∧
    (∀ r c, getRead s r.id = some r → getCmd s r.core r.cmd = some c → readGoes s r = true →
      let a := physAddr r.leaf r.va
      (r.fill = true → exec (.visitorFill r.id) s =
        .next (deliverRead (fillVisitor s r.core c r.die r.leaf a) r
          (if mxGlobal c then physBytes s r.leaf.place a r.n else readLine s r.die r.leaf.place a r.n))) ∧
      (r.fill = false → r.drains = 0 → r.acq = false → placeTier r.leaf.place ≠ 3 → exec (.forwardedRead r.id) s =
        .next (deliverRead (if placeRemote r.leaf.place then s else touchHome s r.core c r.leaf a) r
          (physBytes s r.leaf.place a r.n))) ∧
      (r.fill = false → r.drains = 0 → r.acq = true → r.ordered = false → placeRemote r.leaf.place = false →
        exec (.forwardedRead r.id) s = .next (orderReadDrains s r))))

/-! ## The matrix engine (13) -/

/-- 13 R323 to R326, R330, R338: MCLAIM takes the lowest run of FREE slots or gives false; MREL releases a run; MMA enters
the queue with references on its slots or, with 64 pending, gives false; MFENCE closes the batch; MQUERY reads, with SEL 0 the status word: the last fault, the transfers under way, the busy sub-arrays, the free entries.
13 R333 to R336: a transfer between tiles and registers is put on its way when its view and word are legal: ACCST with
the words its registers hold, ACCLD with its destinations and flag, ACCZ for the rows its lanes own. ACCWAIT retires when no
more transfers of the group than its operand are under way. ACCLD and ACCST with no active lane retire whatever their transfer word
says: a view left raises ILLEGAL as a fault of its own, after the checks (log entry 58). -/
def Obligations.MatrixInstructionsComplete : Prop :=
  (∀ (s : State) (c : GC) (p g : BitVec 3) (d a7 n7 : BitVec 7) (n14 : BitVec 14) (a b : BitVec 6) (t : BitVec 4) (m : BitVec 3)
    (acc sat : BitVec 1) (sel : BitVec 2),
    let put := fun (t : State) (v : Bool) =>
      retireGrp (setUniform (writePred t c.core c.g p.toNat c.spl.lanes (if v then c.spl.lanes else 0)) c p.toNat false) c
    let slots := c.blk.hdr.slots
    groupCtx s = some c →
    (let k := (imm14 (grpLit c) n14).toInt.toNat
     let free := fun b => b + k ≤ slots ∧ ∀ x, b ≤ x → x < b + k → (getSlot s c.core x).state = 0
     regsPending s c [d.toNat] = false → 1 ≤ (imm14 (grpLit c) n14).toInt → k ≤ 64 →
     RegsLegal c [(d.toNat, 1)] [] .uniform → predStaged c p.toNat = false →
     ((∀ x, ¬ free x) → exec (.mclaim p d n14) s = .next (put s false)) ∧
     (∀ x, free x → (∀ y, y < x → ¬ free y) → exec (.mclaim p d n14) s =
       .next (put (writeReg (modSlots s c.core (slotRun x k) fun y => { y with state := 1, header := 0 }) c d.toNat
         (lanesOf c.spl.lanes) fun _ => BitVec.ofNat 32 x) true))) ∧
    (let k := (imm7 (grpLit c) n7).toInt
     let base := (vreg c a7.toNat 0).toNat
     regsPending s c [a7.toNat] = false → 1 ≤ k → RegsLegal c [] [(a7.toNat, 1)] .uniform → vtag c a7.toNat = .uniform →
     WholeSplit c g.toNat →
     ((base : Int) + k ≤ 64 → exec (.mrel g a7 n7) s = .next (retireGrp (modSlots s c.core (slotRun base k.toNat) releaseSlot) c)) ∧
     (64 < (base : Int) + k → exec (.mrel g a7 n7) s = .next (faultGrp s c { code := 0x01 }))) ∧
    (c.spl.pre.lit = none → m ≠ 7 → (∀ x ∈ modeSubs m.toNat a.toNat b.toNat, x.2.1 < min 64 slots ∧ x.2.2 < min 64 slots) →
     t.toNat < c.blk.hdr.tiles → predStaged c p.toNat = false →
     (64 ≤ c.blk.mma.length → exec (.mma p a b t m acc sat) s = .next (put s false)) ∧
     (c.blk.mma.length < 64 →
       let used := (List.range 64).filter fun n => (modeSubs m.toNat a.toNat b.toNat).any fun x => x.2.1 = n || x.2.2 = n
       let gone := fun n => (getSlot s c.core n).state = 0 || (getSlot s c.core n).state = 5
       let cmd : MmaCmd := { id := nextId s, pc := c.spl.pc, mode := m, aslot := a.toNat, bslot := b.toNat, tile := t.toNat
                             acc := acc = 1, sat := sat = 1, group := c.g, batch := c.grp.batch, lanes := c.spl.lanes
                             marked := used.filter gone, held := used.filter fun n => !gone n, after := nextId s }
       exec (.mma p a b t m acc sat) s = .next (put (modMma (modSlots (bumpId s) c.core (used.filter fun n => !gone n) fun y =>
         { y with refs := y.refs + 1 }) c.core fun q => q ++ [cmd]) true))) ∧
    (WholeSplit c g.toNat →
     (∀ o, getBar s c.core b.toNat = some o → isMember o (.grp c.g) = true → exec (.mfence g b) s =
       .next (retireGrp (modGrp s c.core c.g fun r =>
         { r with closed := r.closed ++ [{ num := r.batch, bar := b.toNat }], batch := r.batch + 1 }) c)) ∧
     ((∀ o, getBar s c.core b.toNat = some o → isMember o (.grp c.g) = false) → ∃ f, f.code = 0x10 ∧
       exec (.mfence g b) s = .next (faultGrp s c f))) ∧
    (regsPending s c [d.toNat] = false → RegsLegal c [(d.toNat, 1)] [] .uniform →
      let x := getSlot s c.core a.toNat
      let under := (c.blk.xfers.filter fun y => y.group = c.g).length
      ∃ v, exec (.mquery g d a sel) s = .next (retireGrp (writeReg s c d.toNat (activeLanes c g.toNat) fun _ => v) c) ∧
        (sel = 0 → v.extractLsb' 24 8 = c.grp.mmaFault ∧ v.extractLsb' 18 6 = 0 ∧ v.extractLsb' 7 1 = 0 ∧
          (v.extractLsb' 12 6).toNat = under % 64 ∧ (v.extractLsb' 0 7).toNat = (64 - c.blk.mma.length) % 128 ∧
          ∀ j, j < 4 → v.getLsbD (8 + j) = c.blk.mma.any fun q => q.started &&
            (modeSubs q.mode.toNat q.aslot q.bslot).any fun y => y.1 = j) ∧
        (sel = 1 → v = c.grp.lastBatch ++ c.grp.batch) ∧
        (sel = 2 → v = if a.toNat < slots then x.header else 0) ∧
        (sel = 3 → v = if a.toNat < slots then BitVec.ofNat 32 (x.state + x.refs * 256) else 0))) ∧
  (∀ (s : State) (c : GC) (g m : BitVec 3) (d a : BitVec 7) (t : BitVec 4) (n : BitVec 14),
    let word := vreg c a.toNat 0
    let j := (word.extractLsb' 13 3).toNat
    let k := (word.extractLsb' 8 5).toNat + 1
    let c0 := (word.extractLsb' 0 8).toNat
    let names := (List.range k).map (d.toNat + ·)
    let act := guarded c g.toNat
    let x : AccXfer := { id := 0, kind := 0, group := c.g, mode := m, tile := t.toNat, row := j, n := k, col := c0, lanes := act }
    let words := (lanesOf act).flatMap fun i => (List.range k).map fun y => (i * 32 + y, vreg c (d.toNat + y) i)
    let under := (c.blk.xfers.filter fun y => y.group = c.g).length
    groupCtx s = some c →
    (m ≠ 7 → t.toNat < c.blk.hdr.tiles → (∀ p, grpLit c = some p → p = 0) →
      (regsPending s c [a.toNat] = false → regsPending s c names = false → RegsLegal c [] [(a.toNat, 1), (d.toNat, k)] .uniform →
        vtag c a.toNat = .uniform →
        ((∀ r ∈ names, vtag c r = .general) ∧ act = 0 → exec (.accld g d a m t) s = .next (retireGrp s c)) ∧
        (act = 0 → exec (.accst g d a m t) s = .next (retireGrp s c)) ∧
        (act ≠ 0 → j < modeRows m.toNat / 32 → c0 + k ≤ modeCols m.toNat → under < 63 →
          ((∀ r ∈ names, vtag c r = .general) → flagFull c.grp.flags c.spl.clause = false → exec (.accld g d a m t) s =
            .next (retireGrp (addXfer (takeFlag s c) c { x with dests := names.map (physReg c.spl), flag := clauseFlag c.spl.clause }) c)) ∧
          exec (.accst g d a m t) s = .next (retireGrp (addXfer s c { x with kind := 1, words := words }) c)) ∧
        (act ≠ 0 → (modeRows m.toNat / 32 ≤ j ∨ modeCols m.toNat < c0 + k) →
          exec (.accst g d a m t) s = .next (faultGrp s c { code := 0x01 }))) ∧
      (act = 0 → exec (.accz g m t) s = .next (retireGrp s c)) ∧
      (act ≠ 0 → under < 63 → exec (.accz g m t) s =
        .next (retireGrp (addXfer s c { x with kind := 2, row := 0, n := 0, col := 0 }) c))) ∧
    ((m = 7 ∨ c.blk.hdr.tiles ≤ t.toNat) → exec (.accz g m t) s = .next (faultGrp s c { code := 0x01 })) ∧
    (WholeSplit c g.toNat → (under : Int) ≤ max 0 (imm14 (grpLit c) n).toInt → exec (.accwait g n) s = .next (retireGrp s c)))

/-- 13 R327 to R329, R331, R334 to R336: the oldest command that has not started starts when it may; a command that
completes leaves the queue and drops its references; a closed batch none of whose commands is left arrives, or is held for
the next phase and stays its group's (14 R356); a transfer
reads or writes the tile words of its lanes' rows, and no others. -/
def Obligations.MatrixEngineSteps : Prop :=
  ∀ (s : State) (core : Nat) (b : Block), getBlk s core = some b →
    let tile := fun (t : State) (k : Nat) => tgetD (0 : Word) k (getCore t core).tiles
    (∀ m, (b.mma.find? fun x => !x.started) = some m →
      (mmaReady s core b m = true → exec (.mmaStart core) s =
        .next (modOneMma s core m.id fun x => { x with started := true, slotFault := slotReason s core x })) ∧
      (mmaReady s core b m = false → exec (.mmaStart core) s = .next s)) ∧
    (∀ m, (b.mma.find? fun x => x.id = m.id) = some m →
      (m.started = false → exec (.mmaComplete core m.id) s = .next s) ∧
      (m.started = true → m.slotFault = none → exec (.mmaComplete core m.id) s =
        .next (modMma (dropRefs (mmaProduct s core m) core m) core fun q => q.filter fun x => x.id ≠ m.id)) ∧
      (∀ r g, m.started = true → m.slotFault = some r → getGrp s core m.group = some g →
        ∃ u g', exec (.mmaComplete core m.id) s = .next u ∧ (∀ k, tile u k = tile s k) ∧ getGrp u core m.group = some g' ∧
          g'.mmaFault = 0x0D)) ∧
    (∀ g r x rest, getGrp s core g = some r → r.closed = x :: rest →
      (b.mma.any fun m => m.group = g && m.batch = x.num) = false → batchHeld s core x.bar g = false →
      let made := modGrp s core g fun r => { r with closed := rest, lastBatch := x.num, badBatches := tdel x.num.toNat r.badBatches }
      let bad := (tfind x.num.toNat r.badBatches).isSome
      (∀ o, getBar s core x.bar = some o → o.state ≠ 0 → o.larr.getLsbD g = false → exec (.batchArrival core g) s =
        .next (if bad then agentFault (modBar made core x.bar fun o => arrive o (.grp g)) core x.bar 0x0D
          else evalBarrier (modBar made core x.bar fun o => arrive o (.grp g)) core x.bar)) ∧
      (∀ o, getBar s core x.bar = some o → o.state ≠ 0 → o.larr.getLsbD g = true → exec (.batchArrival core g) s =
        .next (modBar s core x.bar fun o => { o with heldBatches := o.heldBatches ++ [(g, bad)] })) ∧
      ((∀ o, getBar s core x.bar = some o → o.state = 0) → exec (.batchArrival core g) s = .next made)) ∧
    (∀ x, (b.xfers.find? fun y => y.id = x.id) = some x → (b.xfers.any (xferBefore · x)) = false → coreTested s 3 core = false →
      Table.wf 0 (getCore s core).tiles = true →
      let col := fun (i c : Nat) => outputKey x.mode.toNat x.tile (i * (modeRows x.mode.toNat / 32) + x.row) (x.col + c)
      ∃ u, exec (.accTransferComplete core x.id) s = .next u ∧
        (x.kind = 0 → (∀ k, tile u k = tile s k) ∧ ∀ r, getGrp s core x.group = some r → Table.wf 0 r.regs = true →
          ∀ c i, c < x.n → i ∈ lanesOf x.lanes → b.hdr.nu + b.hdr.na ≤ x.dests.getD c 0 →
          (∀ c', c < c' → c' < x.n → x.dests.getD c' 0 ≠ x.dests.getD c 0) →
          (∀ c', c' < x.n → b.hdr.nu + b.hdr.na ≤ x.dests.getD c' 0) →
            (getGrp u core x.group).map (fun r => regLane b.hdr r.regs (x.dests.getD c 0) i) = some (tile s (col i c))) ∧
        (x.kind = 1 → (∀ k, (∀ i ∈ lanesOf x.lanes, ∀ c, c < x.n → k ≠ col i c) → tile u k = tile s k) ∧
          (x.mode.toNat < 7 → x.row < modeRows x.mode.toNat / 32 → x.col + x.n ≤ modeCols x.mode.toNat →
            ∀ i ∈ lanesOf x.lanes, ∀ c, c < x.n → tile u (col i c) = tgetD 0 (i * 32 + c) x.words)) ∧
        (x.kind = 2 → x.mode.toNat < 7 → ∀ r c, r < modeRows x.mode.toNat → c < modeCols x.mode.toNat →
          tile u (outputKey x.mode.toNat x.tile r c) =
            if x.lanes.getLsbD (rowLane x.mode.toNat r) then 0 else tile s (outputKey x.mode.toNat x.tile r c)))

/-- 02 R58, 13 R328: with integer types on both sides and no scales, an element of the product is the sum of the products
of the elements of a row of A and a row of B, added to the old value when ACC is set, modulo 2^32. -/
def Obligations.IntegerProduct : Prop :=
  ∀ (s : State) (core : Nat) (m : MmaCmd) (a b i j : Nat) (old : Word),
    let ha := headerOf s core a
    let hb := headerOf s core b
    let x := fun k => intOf (elemVal ha.1 (slotCode (getSlot s core a) ha.1 i k) 0)
    let y := fun k => intOf (elemVal hb.1 (slotCode (getSlot s core b) hb.1 j k) 0)
    6 ≤ ha.1 → ha.1 ≤ 10 → 6 ≤ hb.1 → hb.1 ≤ 10 → ha.2.1 = 0 → hb.2.1 = 0 → ha.2.2.2 % 32 = 0 → m.sat = false →
      mmaWord s core m a b i j old =
        BitVec.ofInt 32 ((if m.acc then old.toInt else 0) + ((List.range ha.2.2.2).map fun k => x k * y k).sum)

/-! ## Barriers (14) -/

/-- 14 R344, R348, R349, R351, R354 to R359: the barrier instructions on an object of the own core, for a group and for a
front-end: what BINIT, BJOIN, BLEAVE, BARR, BARRW, BEXPECT do to it, what BWAIT and BTWAIT make of its phase, what BQUERY
reads.
14 R342: a barrier instruction on an object of another core is sent there, and its thread waits for the
acknowledgement; no route raises LINK_DOWN at issue (log entry 84); an address that names no object raises BARRIER_ERR. An
operation on an object of the own core follows the thread's accesses to it (10 R248). BINIT with LINK asks the parent first; an
object that has children gets none (log entry 121). -/
def Obligations.BarrierInstructionsComplete : Prop :=
  (∀ (s : State) (i : Iss) (p g : BitVec 3) (d a h n : BitVec 6) (t : BitVec 9) (k : BitVec 3) (half : BitVec 1) (o : Barrier),
    let core := issCore i
    let who := (issThread i).who
    let spot := localSpot (issBlk i) n.toNat
    let fails := fun (x : Instr) => exec x s = .next (issFault s { code := 0x10, bar := spot } i)
    ownPending s (issThread i) = false →
    (getBar s core n.toNat = none → SharedIssues s i true [] [] (.guard g) →
      fails (.binit g a 0 0 n) ∧ fails (.bjoin g n) ∧ fails (.bleave g n)) ∧
    (getBar s core n.toNat = some o → SharedIssues s i true [] [] (.guard g) →
      ((o.state = 3 ∨ (o.state ≠ 0 ∧ o.touched = true)) → fails (.binit g a 0 0 n)) ∧
      (o.state = 0 → exec (.binit g a 0 0 n) s = .next (issRetire (modBar s core n.toNat fun x => armObject x 0xFFFF) i) ∧
        exec (.binit g a 0 1 n) s = .next (issRetire s i) ∧ fails (.bjoin g n)) ∧
      (o.state = 1 ∨ o.state = 2 → o.touched = false →
        exec (.binit g a 0 0 n) s = .next (issRetire (modBar s core n.toNat fun x =>
          { x with ecode := 0, eend := if x.state = 2 then x.phase else x.eend, state := 1 }) i) ∧
        ((o.lmask ≠ 0 ∨ o.femem = true ∨ o.cmask ≠ 0) → fails (.binit g a 0 1 n)) ∧
        (o.lmask = 0 → o.femem = false → o.cmask = 0 → exec (.binit g a 0 1 n) s =
          .next (issRetire (modBar (unlinkParent s core n.toNat (issThread i)) core n.toNat fun x =>
            { x with state := 0, parent := 0xFFFF, fwd := false }) i))) ∧
      (isMember o who = true → fails (.bjoin g n) ∧
        exec (.bleave g n) s = .next (issRetire (evalBarrier (leaveOne s core n.toNat (issBlk i) who) core n.toNat) i)) ∧
      (isMember o who = false → fails (.bleave g n)) ∧
      (o.state ≠ 0 → isMember o who = false → exec (.bjoin g n) s = .next (issRetire (evalBarrier (modBar s core n.toNat fun x =>
        unblock (match who with
          | .fe => { x with femem := true }
          | .grp j => { x with lmask := putBit x.lmask j true })) core n.toNat) i))) ∧
    (let pa := opWord i a.toNat
     getBar s core n.toNat = some o → SharedIssues s i true [(a.toNat, 1)] [a.toNat] (.guard g) →
      ((o.state = 3 ∨ (o.state ≠ 0 ∧ o.touched = true)) → fails (.binit g a 1 0 n)) ∧
      (o.state ≠ 3 → (o.state = 0 ∨ o.touched = false) →
        (barAim s core pa = none → exec (.binit g a 1 0 n) s = .next (issFault s { code := 0x10, bar := pa.truncate 16 } i)) ∧
        ∀ dst j, barAim s core pa = some (dst, j) →
          (o.state ≠ 0 → o.cmask ≠ 0 → fails (.binit g a 1 0 n)) ∧
          (o.state = 0 ∨ o.cmask = 0 →
            (pa.getLsbD 31 = true ∨ dst = core → exec (.binit g a 1 0 n) s =
              .next (issFault s { code := 0x10, bar := pa.truncate 16 } i)) ∧
            (pa.getLsbD 31 = false → dst ≠ core → dst < 192 →
              (routeUp s (coreDie core) (coreDie dst) = false → exec (.binit g a 1 0 n) s =
                .next (issFault s { code := 0x17, bar := pa.truncate 16 } i)) ∧
              (routeUp s (coreDie core) (coreDie dst) = true → exec (.binit g a 1 0 n) s =
                .next (issWait (startWait (bumpId (modFlight s fun f => { f with bars := f.bars ++
                  [{ id := nextId s, src := issThread i, split := issSplit i, member := (issBlk i).member, spot := pa.truncate 16
                     dst := dst, index := j, op := .link (BitVec.ofNat 16 (issBlk i).member), loc := n.toNat
                     via := viaOf s (coreDie core) (coreDie dst) }] })) i (.barrierReply (nextId s))) i)))))) ∧
    (let arrived := evalBarrier (modBar (putWord s i d.toNat o.phase) core n.toNat fun x => arrive x who) core n.toNat
     getBar s core n.toNat = some o →
     (SharedIssues s i true [(d.toNat, 1)] [d.toNat] (.guard g) →
       (o.state = 0 ∨ isMember o who = false ∨ hasArrived o who = true → fails (.barr g d n)) ∧
       (o.state ≠ 0 → isMember o who = true → hasArrived o who = false → issReleases s i = true →
         exec (.barr g d n) s = .next (issRetire arrived i))) ∧
     (SharedIssues s i true [(d.toNat, 1)] [d.toNat] (.dest p) → o.state ≠ 0 → isMember o who = true →
       hasArrived o who = false → issReleases s i = true →
       barAim arrived core (BitVec.ofNat 32 ((issBlk i).member * 256 + n.toNat)) = some (core, n.toNat) →
       exec (.barrw p d n) s =
         .next (issWait (setWatch (startWait arrived i (.barrier (BitVec.ofNat 32 n.toNat) o.phase p none none)) core n.toNat) i))) ∧
    (∀ j, let spot := (opWord i a.toNat).truncate 16
     let ph := opWord i h.toNat
     let done := 1 ≤ (o.phase - ph).toNat ∧ (o.phase - ph).toNat ≤ 2 ^ 31
     let T := (imm9 (issLit i) t).toNat
     barAim s core (opWord i a.toNat) = some (core, j) → getBar s core j = some o →
     (SharedIssues s i false [(a.toNat, 1), (h.toNat, 1)] [a.toNat, h.toNat] (.dest p) →
       (done → exec (.bwait p a h) s = .next (issRetire (putDest s i p.toNat (!phaseErr o ph)) i)) ∧
       (¬ done → o.state = 0 → exec (.bwait p a h) s = .next (issFault s { code := 0x10, bar := spot } i)) ∧
       (¬ done → o.state ≠ 0 →
         exec (.bwait p a h) s = .next (issWait (setWatch (startWait s i (.barrier (BitVec.ofNat 32 j) ph p none none)) core j) i))) ∧
     (SharedIssues s i true [(a.toNat, 1), (h.toNat, 1)] [a.toNat, h.toNat] (.dest p) →
       (done → exec (.btwait p a h t) s = .next (issRetire (putDest s i p.toNat (!phaseErr o ph)) i)) ∧
       (¬ done → o.state ≠ 0 →
         (T = 0 → exec (.btwait p a h t) s = .next (issRetire (putDest s i p.toNat false) i)) ∧
         (T ≠ 0 → exec (.btwait p a h t) s =
           .next (issWait (setWatch (startWait s i (.barrier (BitVec.ofNat 32 j) ph p (some (s.clk.cycle + T)) none)) core j) i)))) ∧
     (SharedIssues s i false [(a.toNat, 1), (h.toNat, 1)] [a.toNat, h.toNat] (.guard g) →
       let bytes : DWord := match i with
         | .grp c => (vreg c h.toNat 0).zeroExtend 64
         | .fe c => sreg c h.toNat
       (o.state = 0 → exec (.bexpect g a h) s = .next (issFault s { code := 0x10, bar := spot } i)) ∧
       (o.state ≠ 0 → exec (.bexpect g a h) s =
         .next (issRetire (evalBarrier (modBar s core j fun x => { unblock x with expb := x.expb + bytes }) core j) i))) ∧
     (SharedIssues s i true [(d.toNat, 1), (a.toNat, 1)] [d.toNat, a.toNat] (.guard g) → k.toNat ≤ 5 →
       ∃ v, exec (.bquery g d a half k) s = .next (issRetire (match i with
           | .grp _ => putWord s i d.toNat (if half = 1 then v.extractLsb' 32 32 else v.extractLsb' 0 32)
           | .fe _ => putWide s i d.toNat v) i) ∧
         (k = 1 → v = o.ephase ++ o.phase) ∧ (k = 2 → v = o.expb) ∧ (k = 3 → v = o.arrb) ∧ (k = 4 → v = o.lmask) ∧
         (k = 5 → v = o.larr)))) ∧
  (∀ (s : State) (i : Iss) (p g : BitVec 3) (d a h : BitVec 6) (t : BitVec 9) (k : BitVec 3) (half : BitVec 1) (dst j : Nat),
    let T := (imm9 (issLit i) t).toNat
    let addr := opWord i a.toNat
    let spot : BitVec 16 := addr.truncate 16
    let mine := ((coreCluster s (issCore i)).map fun cl => (clusterCores cl).contains dst).getD false
    let bytes : DWord := match i with
      | .grp c => (vreg c h.toNat 0).zeroExtend 64
      | .fe c => sreg c h.toNat
    let sent := fun (op : BarOp) (loc : Nat) => issWait (startWait (bumpId (modFlight s fun f => { f with bars := f.bars ++
      [{ id := nextId s, src := issThread i, split := issSplit i, member := (issBlk i).member, spot := spot, dst := dst
         index := j, op := op, loc := loc, via := viaOf s (coreDie (issCore i)) (coreDie dst) }] })) i (.barrierReply (nextId s))) i
    ∀ e ∈ ([(.bwait p a h, false, [(a.toNat, 1), (h.toNat, 1)], [a.toNat, h.toNat], .dest p, .read (opWord i h.toNat) p none mine),
        (.btwait p a h t, true, [(a.toNat, 1), (h.toNat, 1)], [a.toNat, h.toNat], .dest p,
          .read (opWord i h.toNat) p (some (if T = 0 then 0 else s.clk.cycle + T)) mine),
        (.bexpect g a h, false, [(a.toNat, 1), (h.toNat, 1)], [a.toNat, h.toNat], .guard g, .expect bytes),
        (.bquery g d a half k, true, [(d.toNat, 1), (a.toNat, 1)], [d.toNat, a.toNat], .guard g, .query k (half = 1) d)] :
        List (Instr × Bool × List (Nat × Nat) × List Nat × Field23 × BarOp)),
      SharedIssues s i e.2.1 e.2.2.1 e.2.2.2.1 e.2.2.2.2.1 → k.toNat ≤ 5 →
      (barAim s (issCore i) addr = some (dst, j) → dst ≠ issCore i → dst < 192 →
        (routeUp s (coreDie (issCore i)) (coreDie dst) = true → exec e.1 s = .next (sent e.2.2.2.2.2 0)) ∧
        (routeUp s (coreDie (issCore i)) (coreDie dst) = false →
          exec e.1 s = .next (issFault s { code := 0x17, bar := spot } i))) ∧
      (barAim s (issCore i) addr = none → exec e.1 s = .next (issFault s { code := 0x10, bar := spot } i)))

/-- 14 R348: phase n of an object is complete when (PHASE - n) mod 2^32 lies in 1 to 2^31; which phases were error phases; a wait
for a complete phase returns at once with true, or with false for an error phase. -/
def Obligations.PhaseCompletionTest : Prop :=
  (∀ (o : Barrier) (n : Word), (phaseDone o n = true ↔ 1 ≤ (o.phase - n).toNat ∧ (o.phase - n).toNat ≤ 2 ^ 31) ∧
    (o.state = 2 → (phaseErr o n = true ↔ (n - o.ephase).toNat < 2 ^ 31)) ∧
    (o.state ≠ 2 → (phaseErr o n = true ↔ (n - o.ephase).toNat < (o.eend - o.ephase).toNat))) ∧
  (∀ (s : State) (i : Iss) (p : BitVec 3) (a h : BitVec 6) (t : BitVec 9) (j : Nat) (o : Barrier),
    barAim s (issCore i) (opWord i a.toNat) = some (issCore i, j) → getBar s (issCore i) j = some o →
    phaseDone o (opWord i h.toNat) = true → ownPending s (issThread i) = false →
    let ends := issRetire (putDest s i p.toNat (!phaseErr o (opWord i h.toNat))) i
    (SharedIssues s i false [(a.toNat, 1), (h.toNat, 1)] [a.toNat, h.toNat] (.dest p) → exec (.bwait p a h) s = .next ends) ∧
    (SharedIssues s i true [(a.toNat, 1), (h.toNat, 1)] [a.toNat, h.toNat] (.dest p) → exec (.btwait p a h t) s = .next ends))

/-- 14 R345, R346: the arrival that makes the last condition true completes the phase of an object without a parent, as its
cycle ends: the phase count moves on, and the arrivals, the byte counts and the front-end's arrival start again. -/
def Obligations.LastArrivalCompletesPhase : Prop :=
  ∀ (s : State) (i : Iss) (g : BitVec 3) (d n : BitVec 6) (o : Barrier),
    let core := issCore i
    let who := (issThread i).who
    let x := arrive o who
    SharedIssues s i true [(d.toNat, 1)] [d.toNat] (.guard g) → getBar s core n.toNat = some o → issReleases s i = true →
    o.state = 1 → isMember o who = true → hasArrived o who = false → ownPending s (issThread i) = false → o.parent = 0xFFFF → o.heldBatches = [] → o.leaving = 0 →
    o.errNow = false → s.evals = [] → x.larr &&& x.lmask = x.lmask → x.fearr = x.femem → x.carr &&& x.cmask = x.cmask → x.expb.toNat ≤ x.arrb.toNat →
    ∃ t o', exec (.barr g d n) s = .next t ∧ getBar (runEvals t) core n.toNat = some o' ∧ o'.phase = o.phase + 1 ∧ o'.larr = 0 ∧
      o'.carr = 0 ∧ o'.fearr = false ∧ o'.expb = 0 ∧ o'.arrb = o.arrb - o.expb ∧ o'.state = 1 ∧ o'.lmask = o.lmask ∧
      o'.femem = o.femem ∧ o'.cmask = o.cmask

/-- 14 R342, R346, R347, R352, R357: an operation is performed at its object and answered; the answer ends the issuer's wait;
messages between objects arrive in order, or are lost with the last route between their members (log entry 91); a BTWAIT that
expires gives false. Nothing crosses a seam that is held, and a resumed wait is taken up once every member has its block (14 R360). -/
def Obligations.BarrierEvents : Prop :=
  ∀ (s : State),
    (∀ r o, getBarReq s r.id = some r → r.reply = none → r.read = false →
      barBefore s r = false → issuerPlacing s r = false → barHeld s r = false →
      barTarget s r.src.core r.dst r.index = some o →
      (∀ n, r.op = .expect n → o.state ≠ 0 → exec (.remoteBarrierOp r.id) s =
        .next (answerBar (evalBarrier (modBar s r.dst r.index fun x => { unblock x with expb := x.expb + n }) r.dst r.index) r.id (some 0))) ∧
      (∀ n, r.op = .expect n → o.state = 0 → exec (.remoteBarrierOp r.id) s = .next (answerBar s r.id none)) ∧
      (∀ k half rd, r.op = .query k half rd → exec (.remoteBarrierOp r.id) s = .next (answerBar s r.id (some (barValue o k.toNat)))) ∧
      (∀ n p e inC, r.op = .read n p e inC → phaseDone o n = true → exec (.remoteBarrierOp r.id) s =
        .next (answerBar s r.id (some (if phaseErr o n then 0 else 1)))) ∧
      (∀ n p inC, r.op = .read n p none inC → phaseDone o n = false → o.state ≠ 0 → exec (.remoteBarrierOp r.id) s =
        .next (setWatch (modBarReq s r.id fun x => { x with read := true }) r.dst r.index)) ∧
      (∀ m, r.op = .link m → o.state ≠ 0 → o.parent = 0xFFFF → o.cmask.getLsbD m.toNat = false →
        (s.flight.bars.any (linksFrom r.dst r.index)) = false → exec (.remoteBarrierOp r.id) s =
        .next (answerBar (evalBarrier (modBar s r.dst r.index fun x => unblock { x with cmask := putBit x.cmask m.toNat true })
          r.dst r.index) r.id (some 0)))) ∧
    (∀ r v, getBarReq s r.id = some r → r.reply = some v → barHeld s r = false →
      waitOf s (barWaiting r) = .barrierReply r.id → threadLive s r.src.core r.src.who = true →
        exec (.barrierReply r.id) s = .next (endBarReq s r v)) ∧
    (∀ r o n p e, getBarReq s r.id = some r → r.op = .read n p e false → r.read = true → r.reply = none →
      barTarget s r.src.core r.dst r.index = some o → exec (.absWaitPoll r.id) s = .next (readAtTarget s r o n e)) ∧
    (∀ m cl, getBarMsg s m.id = some m → barMsgTurn s m = true → getCl s m.cluster = some cl →
      let core := memberCore cl m.toMember
      let t := takeBarMsg s m
      (barMsgLost s m = true →
        (m.kind = 0 → exec (.childArrival m.id) s = .next (cutBarMsg t m)) ∧
        (m.kind = 1 → exec (.errorArrival m.id) s = .next (cutBarMsg t m)) ∧
        (m.kind = 2 ∨ m.kind = 3 → exec (.phaseNotice m.id) s = .next (cutBarMsg t m))) ∧
      (barMsgLost s m = false →
       (m.kind = 0 → exec (.childArrival m.id) s = .next (childArrives t m core)) ∧
       (m.kind = 1 → exec (.errorArrival m.id) s = .next (childArrives t m core)) ∧
       (m.kind = 2 → exec (.phaseNotice m.id) s = .next (noticeWaits t m core)) ∧
       (m.kind = 3 → exec (.phaseNotice m.id) s = .next (noticeArrives t m core)))) ∧
    (∀ core who split a n p e, let x : Who := if who = 64 then .fe else .grp who
      let w : Waiting := { core := core, who := x, split := split }
      waitOf s w = .barrier a n p (some e) none → threadLive s core x = true → e < s.clk.cycle →
      (∀ o, getBar s core a.toNat = some o → phaseDone o n = false ∧ o.state ≠ 0) → (getBar s core a.toNat).isSome →
        exec (.btwaitTimeout core who split) s = .next (setWatch (endWait (destWait s w p.toNat false) w) core a.toNat))

/-! ## Jobs, contexts and blocks (04 to 07) -/

/-- 05 R141 to R146: the job instructions on either kind of thread. JENQ takes a number and an entry or gives false, and
raises PERMISSION on a queue that is not the context's; JSPAWN leaves its weight test pending or gives false; JDONE takes
weight from the job; JYIELD reloads the budget; JSELF reads; WAITW asks for its comparison and leaves the active set. -/
def Obligations.JobInstructionsComplete : Prop :=
  ∀ (s : State) (i : Iss) (p g : BitVec 3) (a b d q : BitVec 6) (h : BitVec 1) (k : BitVec 4),
    let me := issBlk i
    let room := sluiceRoom s me.ctx
    (SharedIssues s i true [(a.toNat, 2), (b.toNat, 1)] [a.toNat, b.toNat] (.dest p) →
      let y := getQueue s q.toNat
      (y.state = .free ∨ y.owner ≠ me.ctx → exec (.jenq p a b q) s = .next (issFault s { code := 0x08 } i)) ∧
      (y.state ≠ .free → y.owner = me.ctx → (room = false ∨ y.state = .paused) →
        exec (.jenq p a b q) s = .next (issRetire (putDest s i p.toNat false) i)) ∧
      (y.state = .open_ → y.owner = me.ctx → room = true → exec (.jenq p a b q) s =
        .next (issRetire (putDest (putWord (newRoot s me.ctx q.toNat (opWide i a.toNat) (some (issThread i))) i b.toNat s.sched.nextJob)
          i p.toNat true) i))) ∧
    (∀ j, getJob s me.job = some j → spawnOf s (issThread i) = none →
      (SharedIssues s i false [(a.toNat, 2), (b.toNat, 1)] [a.toNat, b.toNat] (.dest p) →
        ((room = false ∨ j.weight = 0) → exec (.jspawn p a b) s = .next (issRetire (putDest s i p.toNat false) i)) ∧
        (room = true → j.weight ≠ 0 → exec (.jspawn p a b) s = .next (issRetire (bumpId (putJob s (2 ^ 32 + nextId s)
          { num := 0, ctx := me.ctx, queue := j.queue, recAddr := opWide i a.toNat &&& ~~~ 0xFF, state := .spawning, root := j.root
            parent := me.job, src := some (issThread i), after := nextId s, spawn := some (spawnDest i p.toNat b.toNat) })) i))) ∧
      (SharedIssues s i false [(a.toNat, 1)] [a.toNat] (.guard g) →
        let v := (opWord i a.toNat).toNat
        let amt := if v = 0 then j.weight else min v j.weight
        (amt = 0 → exec (.jdone g a) s = .next (issRetire s i)) ∧
        (amt ≠ 0 → exec (.jdone g a) s = .next (issRetire (modJob s me.job fun x =>
          { x with weight := x.weight - amt, returns := x.returns ++ [(amt, issThread i, nextId s)] }) i))) ∧
      (SharedIssues s i false [] [] (.guard g) →
        exec (.jyield g) s = .next (issRetire (modCl s me.cluster fun c => { c with budget := loadBudget j }) i)) ∧
      (SharedIssues s i true [(d.toNat, 1)] [d.toNat] (.guard g) →
        let cindex : Nat := ((getCl s me.cluster).map Cluster.index).getD 0
        let v : DWord := match k.toNat with
          | 0 => BitVec.ofNat 32 cindex ++ BitVec.ofNat 32 me.job
          | 1 => BitVec.ofNat 64 j.weight
          | 2 => BitVec.ofNat 64 j.record.deadline.toNat
          | _ => BitVec.ofNat 32 j.parent ++ BitVec.ofNat 32 j.root
        (k.toNat ≤ 3 → exec (.jself g d h k) s = .next (issRetire (match i with
          | .grp _ => putWord s i d.toNat (if h = 1 then v.extractLsb' 32 32 else v.extractLsb' 0 32)
          | .fe _ => putWide s i d.toNat v) i)) ∧
        (3 < k.toNat → exec (.jself g d h k) s = .next (issFault s { code := 0x01 } i)))) ∧
    (SharedIssues s i false [(a.toNat, 2), (b.toNat, 2)] [a.toNat, b.toNat] (.guard g) →
      let va := opWide i a.toNat
      let id := nextId s
      let t := issueReq (bumpId s) { id := id, inst := id, thread := issThread i, split := issSplit i, die := coreDie (issCore i)
                                     ctx := me.ctx, pc := issPc i, va := va.toNat, op := .waitw (opWide i b.toNat) }
      (va.toNat % 8 ≠ 0 → exec (.waitw g a b) s = .next (issFault s { code := 0x16, addr := va } i)) ∧
      (va.toNat % 8 = 0 → issAcquires i = false → ∀ r, getReq t id = some r →
        (∀ c, r.stage = .faulted c → exec (.waitw g a b) s = .next (issFault s { code := c, addr := va } i)) ∧
        ((∀ c, r.stage ≠ .faulted c) → exec (.waitw g a b) s =
          .next (issWait (match i with
            | .grp c => modGrp (startWait t i (.waitw id)) c.core c.g fun x => { x with run := .waiting }
            | .fe _ => startWait t i (.waitw id)) i))))

/-- 05 R116 to R118: SUBMIT keeps a record's address with its low byte clear, or counts a drop; PAUSE, UNPAUSE and FLUSH;
the acceptance unit draws the queues round-robin, from the one after the last drawn, and passes over one that is not OPEN, is
empty or has no room for its context.
05 R115, R134, R136, R137, R142: an accepted job is checked and enters the sluice or fails; the weight test of a spawn
gives the child its share when the parent keeps at least 1, half the weight when its record cannot be read (log entry 28); a comparison of WAITW registers its waiter while the word equals
the expected value, and otherwise lets it go; a wake write performed at its home lets the word's waiters go. -/
def Obligations.JobEvents : Prop :=
  (∀ (s : State) (q : BitVec 6) (addr : DWord),
    let k := getQueue s q.toNat
    let into := fun (f : HwQueue) => (Host.Outcome.next (modQueue s q.toNat fun _ => f) : Host.Outcome State Fault Refusal)
    (k.state ≠ .free → k.fifo.length < 256 → exec (.queueSubmit q addr) s = into { k with fifo := k.fifo ++ [addr &&& ~~~ 0xFF] }) ∧
    (k.state = .free ∨ 256 ≤ k.fifo.length → exec (.queueSubmit q addr) s = into { k with drops := min 0xFFFF (k.drops + 1) }) ∧
    (k.state = .open_ → exec (.queuePause q) s = into { k with pause := true, state := .paused }) ∧
    (k.state ≠ .open_ → exec (.queuePause q) s = into { k with pause := true }) ∧
    (k.state = .paused → exec (.queueUnpause q) s = into { k with pause := false, state := .open_ }) ∧
    (k.state ≠ .paused → exec (.queueUnpause q) s = into { k with pause := false }) ∧
    (k.state ≠ .free → exec (.queueFlush q) s = .next (ctxIdle (modQueue s q.toNat fun _ => { k with fifo := [] }) k.owner)) ∧
    (k.state = .free → exec (.queueFlush q) s = .next s) ∧
    (let drawn := fun (m : Nat) => (getQueue s m).state = .open_ ∧ (getQueue s m).fifo ≠ [] ∧
       (getCtx s (getQueue s m).owner).state ≠ .closing ∧ drawRoom s (getQueue s m).owner = true
     let turn := fun (i : Nat) => (s.sched.lastDrawn + 1 + i) % 64
     (∀ i a r, i < 64 → drawn (turn i) → (∀ j, j < i → ¬ drawn (turn j)) → (getQueue s (turn i)).fifo = a :: r →
        exec .acceptanceDraw s = .next (newRoot { modQueue s (turn i) (fun x => { x with fifo := r }) with
          sched := { (modQueue s (turn i) fun x => { x with fifo := r }).sched with lastDrawn := turn i } }
          (getQueue s (turn i)).owner (turn i) a none)) ∧
     ((∀ m, m < 64 → ¬ drawn m) → exec .acceptanceDraw s = .next s))) ∧
  (∀ s : State,
    (∀ n j, getJob s n = some j → j.state = .accepting → (j.src = none ∨ ∃ t, j.src = some t ∧ (j.fetched.isSome ∨ storesBefore s t j.after = true)) →
      exec (.jobAccept n) s = .next (checkJob (fetchRecord (acquireFor s j) n) n)) ∧
    (∀ n j c, getJob s n = some j → j.fetched = some (some c) → checkJob s n = failJob s n c) ∧
    (∀ n j t d, getJob s n = some j → j.state = .spawning → j.src = some t → j.spawn = some d → storesBefore s t j.after = true →
      let s' := fetchRecord (acquireFor s j) n
      let w := ((getJob s' j.parent).map Job.weight).getD 0
      let share := ((getJob s' n).map fun k => k.record.twshare).getD 0
      let x := if share = 0 then w / 2 else share
      let gone := { s' with sched := { s'.sched with jobs := tdel n s'.sched.jobs } }
      ((x < 1 ∨ w - x < 1) → exec (.jspawnResolve n) s = .next (writeSpawn gone t d none)) ∧
      (1 ≤ x → x + 1 ≤ w → ∃ u k, exec (.jspawnResolve n) s = .next u ∧ getJob u s'.sched.nextJob.toNat = some k ∧ k.weight = x ∧
        k.state = .accepting ∧ (j.parent ≠ n → j.parent ≠ s'.sched.nextJob.toNat → (getJob u j.parent).map Job.weight = some (w - x)))) ∧
    (∀ r e, getReq s r.id = some r → r.op = .waitw e → atHomeNow s r = true → homeCode s r.die (reqPlace r) (reqAddr r) = none →
      recallFirst s r = [] → compareBad s (reqPlace r) (reqAddr r) = none → placeTier (reqPlace r) ≠ 3 →
      let p := reqPlace r
      let a := reqAddr r
      (homeValue s p a 8 = e → sliceWaiters s p a < 256 → exec (.waitwCompare r.id) s =
        .next (modDie (dropReq s r.id) (homeDie p a) fun d => { d with waiters := d.waiters ++
          [{ ctx := r.ctx, key := lineKey p a, word := a % 128 / 4, thread := r.thread, split := r.split, id := r.id }] })) ∧
      (homeValue s p a 8 ≠ e ∨ 256 ≤ sliceWaiters s p a → exec (.waitwCompare r.id) s =
        .next (if placeRemote p then dropReq s r.id else serveMarks (dropReq s r.id) r.id r.die p [a, a + 4]))) ∧
    (∀ r, getReq s r.id = some r → r.op = .wake → atHomeNow s r = true → homeCode s r.die (reqPlace r) (reqAddr r) = none →
      recallFirst s r = [] → (r.send = none ∨ placeTier (reqPlace r) ≠ 3) → exec (.wakeWritePerform r.id) s = .next (
        if (getReq (performStore s r) r.id).any (fun q => q.stage = .performed) then wakeWord (performStore s r) (reqPlace r) (reqAddr r)
        else performStore s r)))

/-- 05 R136: a wake write to a word ends every registration on it, and leaves no waiter of that word. -/
def Obligations.WakeEndsRegistrations : Prop :=
  ∀ (s : State) (p : Word) (a d : Nat), ∀ w ∈ (getDie (wakeWord s p a) d).waiters,
    ¬ (w.key = lineKey p a ∧ w.word / 2 = a % 128 / 8)

/-- 04 R88 to R90, R93: the five context commands. One that its context's state or its descriptor does not admit is rejected:
status 3, and nothing else changes; one written while another runs is ignored (log entry 23). A CLOSE leaves the status 1 until
ZEROING_COMPLETE (log entry 79).
04 R98, R99, 16 R386: a fault record of a context goes to its fault queue, or to the mailbox when the queue is full; the
mailbox holds one and counts those it has no room for. -/
def Obligations.ContextEvents : Prop :=
  (∀ (s : State) (n : BitVec 12) (pa : BitVec 64),
    let word (c : Nat) (w : DWord) : State := { s with host := { s.host with ctxCmd0 := (0 : BitVec 20) ++ n ++ (0 : BitVec 28) ++ BitVec.ofNat 4 c, ctxCmd1 := w } }
    let refused (c : Nat) (w : DWord) : Host.Outcome State Fault Refusal := .next (setStatus (word c w) 3)
    let st := (getCtx s n.toNat).state
    let old := s.host.ctxCmd1
    let fits := (goodDescriptor s pa.toNat).any fun c => !rootBad c && !(setBits 64 c.qmask).any fun q => (getQueue s q).state ≠ .free
    (s.host.ctxStatus = 1 → exec (.ctxOpen n pa) s = .next s ∧ exec (.ctxSuspend n) s = .next s ∧ exec (.ctxResume n) s = .next s ∧
      exec (.ctxClose n) s = .next s ∧ exec (.ctxUpdate n pa) s = .next s) ∧
    (s.host.ctxStatus ≠ 1 →
      (st ≠ .free ∨ fits = false → exec (.ctxOpen n pa) s = refused 1 pa) ∧
      (∀ c, st = .free → goodDescriptor s pa.toNat = some c → fits = true → ∃ u, exec (.ctxOpen n pa) s = .next u ∧
        u.host.ctxStatus = 2 ∧ getCtx u n.toNat = { c with pending := (getCtx s n.toNat).pending } ∧
        ∀ q, q < 64 → c.qmask.getLsbD q = true → (getQueue u q).state = .open_ ∧ (getQueue u q).owner = n.toNat ∧ (getQueue u q).fifo = [] ∧
          (getQueue u q).pause = false) ∧
      (st ≠ .open_ → st ≠ .active → exec (.ctxSuspend n) s = refused 2 old) ∧
      (st = .open_ ∨ st = .active → ∃ u, exec (.ctxSuspend n) s = .next u ∧ u.host.ctxStatus = 1) ∧
      (st ≠ .suspended → st ≠ .faulted → exec (.ctxResume n) s = refused 3 old) ∧
      (st = .suspended → exec (.ctxResume n) s =
        .next (setStatus (modCtx (word 3 old) n.toNat fun k => { k with state := .open_ }) 2)) ∧
      (st = .faulted → exec (.ctxResume n) s =
        .next (continueBlocks (setStatus (modCtx (word 3 old) n.toNat fun k => { k with state := .open_ }) 2) n.toNat)) ∧
      (st = .free ∨ st = .closing → exec (.ctxClose n) s = refused 4 old) ∧
      (st ≠ .free → st ≠ .closing → ∃ u, exec (.ctxClose n) s = .next u ∧ u.host.ctxStatus = 1 ∧
        (∀ e ∈ u.sched.jobs, e.2.ctx ≠ n.toNat)) ∧
      (st = .free ∨ st = .suspending ∨ st = .closing ∨ goodDescriptor s pa.toNat = none → exec (.ctxUpdate n pa) s = refused 5 pa) ∧
      (∀ c, goodDescriptor s pa.toNat = some c → (st = .open_ ∨ st = .active ∨ st = .suspended ∨ st = .faulted) →
        ∃ u, exec (.ctxUpdate n pa) s = .next u ∧ u.host.ctxStatus = 2 ∧ (getCtx u n.toNat).state = st ∧
          (getCtx u n.toNat).ptroot = (getCtx s n.toNat).ptroot ∧ (getCtx u n.toNat).qmask = (getCtx s n.toNat).qmask ∧
          (getCtx u n.toNat).jobs = c.jobs ∧ (getCtx u n.toNat).cores = c.cores)) ∧
    (st = .suspending → ctxResident s n.toNat = false → ∃ u, exec (.suspendComplete n) s = .next u ∧
      (getCtx u n.toNat).state = .suspended ∧ u.host.ctxStatus = 2) ∧
    (st = .closing → (∀ r ∈ s.flight.global, r.ctx = n.toNat → r.send.isSome) → ∃ u, exec (.zeroingComplete n) s = .next u ∧
      getCtx u n.toNat = {} ∧ u.host.ctxStatus = 2)) ∧
  ((∀ (s : State) (n : BitVec 12) r l, (getCtx s n.toNat).pending = r :: l →
    let t := modCtx s n.toNat fun k => { k with pending := l }
    exec (.faultRecordAppend n) s = .next (deliverRecord t n.toNat r) ∧
    (∀ u prod cons, queueEnds t n.toNat = (u, some (prod, cons)) → (prod - cons).toNat = 2 ^ (getCtx t n.toNat).fqlog →
      exec (.faultRecordAppend n) s =
        .next (ctxFaulted (faultMsix (mailRecord (keepSeq u { r with seq := prod } prod) { r with seq := prod }) n.toNat) n.toNat))) ∧
  (∀ (s : State) r, (s.host.faultFull = true → (mailRecord s r).host.faultLost = s.host.faultLost + 1 ∧
      (mailRecord s r).host.faultRec = s.host.faultRec) ∧
    (s.host.faultFull = false → (mailRecord s r).host.faultRec = recordBytes r ∧ (mailRecord s r).host.faultFull = true)) ∧
  (∀ s : State, ∃ u, exec .faultMailboxFree s = .next u ∧ u = { s with host := { s.host with faultFull := false } }))

/-- 05 R123 to R130, 04 R93, R94, 06 R156, R160: placement, launch, pre-emption and retirement. An
admission comes after the update of the millpond that is due (18 R421).
05 R131, R132: a pre-empted cluster that has fallen quiet is saved, or discarded when its job is idempotent. -/
def Obligations.DispatcherEvents : Prop :=
  ((∀ s : State, (pondDue s = true → exec .dispatch s = .next s) ∧ (pondDue s = false →
    (∀ u, preemptFor s = some u → exec .dispatch s = .next u) ∧
    (∀ c x y, preemptFor s = none → firstPlaceable s = some (c, x, y) →
      (s.mode.getLsbD 2 = true → exec .dispatch s = .next (placeAt s c x y)) ∧
      (s.mode.getLsbD 2 = false → s.sched.placeReq = none → exec .dispatch s = .next (postPlacement s c))) ∧
    (preemptFor s = none → firstPlaceable s = none → exec .dispatch s = .next s))) ∧
  (∀ (s : State) (k : BitVec 8) r j, s.sched.placeReq = some r →
    let t : State := { s with sched := { s.sched with placeReq := none }, host := { s.host with placeCorner := k } }
    let c : Cand := { job := r.job, cl := r.cluster }
    let x := k.toNat % 16
    let y := k.toNat / 16
    getJob s r.job = some j → pondDue t = false →
    ((candidates t).contains c = false ∨ coresOk t j c = false ∨ energyOk t j = false → exec (.placementMailboxGo k) s = .next t) ∧
    ((candidates t).contains c = true → coresOk t j c = true → energyOk t j = true → rectUsable t j.record (coreFree t r.job) x y j.w j.h = true →
      (rectDies x y j.w j.h).length ≤ (if recBond j.record || j.hdr.bond then 2 else 1) →
      exec (.placementMailboxGo k) s = .next (placeAt t c x y)) ∧
    ((candidates t).contains c = true → coresOk t j c = true → energyOk t j = true → (rectUsable t j.record (coreFree t r.job) x y j.w j.h = false ∨
      (if recBond j.record || j.hdr.bond then 2 else 1) < (rectDies x y j.w j.h).length) →
      exec (.placementMailboxGo k) s = .next (postPlacement t c))) ∧
  (∀ (s : State) (core n : Nat) cl,
    (s.sched.clusters.find? fun e => e.2.state = .placing && e.2.zeroing.contains core) = some (n, cl) →
    let z := modCore (zeroCore s core) core fun k => { k with zeroing := false, lastCtx := none }
    ((getCore z core).pool = [] ∧ (getCore z core).full = [] ∧ (getCore z core).tiles = [] ∧ (getCore z core).slots = []) ∧
    exec (.coreZeroingComplete core) s =
      .next (setBlock (modCl z n fun c => { c with zeroing := c.zeroing.filter (· ≠ core) }) n core ((clusterCores cl).idxOf core))) ∧
  (∀ (s : State) (n : Nat) c j, getCl s n = some c → getJob s c.job = some j → c.state = .placing → c.zeroing = [] →
    mustLeave s j.ctx c = false → ∃ u k, exec (.clusterLaunch n) s = .next u ∧ getCl u n = some k ∧ k.state = .running) ∧
  (∀ (s : State) (n : Nat) c, getCl s n = some c →
    (c.state = .running → c.budget = some 0 → getBlk s (memberCore c 0) = none →
      exec (.budgetExhausted n) s = .next (preemptCluster s n)) ∧
    (∀ b, c.state = .running → c.budget = some 0 → getBlk s (memberCore c 0) = some b → exec (.budgetExhausted n) s =
      .next (preemptCluster (queueRecord s b.ctx { blockRecord s (memberCore c 0) b .fe 0x0E 3 with thread := none }) n)) ∧
    (c.budget ≠ some 0 → exec (.budgetExhausted n) s = .next s)) ∧
  (∀ (s : State) (core : Nat) b, getBlk s core = some b → blockDone s core b = true → (getCtx s b.ctx).state ≠ .closing →
    let t := modBlk (profAppend (settleReturns s) core b.ctx (blockRecordBytes s core b)) core fun b => { b with retired := true }
    (getCl t b.cluster = none → exec (.blockRetire core) s = .next t) ∧
    (∀ cl, getCl t b.cluster = some cl → exec (.blockRetire core) s =
      .next (if (clusterCores cl).all fun c => (getBlk t c).all Block.retired then releaseCluster t b.cluster cl else t)))) ∧
  (∀ (s : State) (n : Nat) c, getCl s n = some c →
    let cs := clusterCores c
    let ctx := ((cs.head?.bind (getBlk s)).map Block.ctx).getD 0
    let at_ := cs.zip (freeSlots s ctx cs.length)
    let parked := cs.all fun k => (getBlk s k).any fun b => blockParked s b || b.retired
    let woken := cs.any fun k => (getBlk s k).any (blockWoken s)
    (c.state = .preempting → clusterQuiet s c = true → discardable s c = false → (getCtx s ctx).state ≠ .faulted →
      (∀ t code core b, writeFrames s ctx at_ = (t, some (code, core)) → getBlk t core = some b →
        exec (.clusterSave n) s = .next (saveFailed t core b code)) ∧
      (∀ t, writeFrames s ctx at_ = (t, none) →
        let r := leaveCores t parked (at_.map fun e => (e.1, some e.2))
        exec (.clusterSave n) s = .next (ctxIdle (jobSettle (modCl r.1 n fun c =>
          { c with state := .saved, saved := r.2, parked := parked, woken := woken, draining := [] }) c.job) ctx))) ∧
    (c.state = .preempting → clusterQuiet s c = true → discardable s c = true → (getCtx s ctx).state ≠ .faulted →
      let r := leaveCores s false (cs.map fun k => (k, none))
      exec (.idempotentDiscard n) s = .next (ctxIdle (jobSettle (modCl r.1 n fun c =>
        { c with state := .discarded, saved := r.2, parked := false, woken := false, draining := [] }) c.job) ctx)) ∧
    (c.state ≠ .preempting → exec (.clusterSave n) s = .next s ∧ exec (.idempotentDiscard n) s = .next s))

/-- 06 R157, 07 R165, R184: the fetch of a line of code, the active set of a partition, which takes in one group in a cycle, and the
time-out of a WAITJ, which leaves a stopped group alone but for a STEP. -/
def Obligations.IssueEvents : Prop :=
  (∀ (s : State) b pc, fetcher s = some (b, pc) →
    ((fetchWord s s.cur.core b pc).isSome = true → exec .instructionFetchFill s = .next s) ∧
    (fetchWord s s.cur.core b pc = none →
      (∀ t l, codeLine s s.cur.core b (codeVa b pc) = (t, some (.inl l)) →
        exec .instructionFetchFill s = .next (putLine t s.cur.core b.ctx (codeVa b pc) l)) ∧
      (∀ t k, codeLine s s.cur.core b (codeVa b pc) = (t, some (.inr k)) → exec .instructionFetchFill s =
        .next (fetchEnds t (.fault { code := k, addr := BitVec.ofNat 64 (codeVa b pc) }))) ∧
      (∀ t, codeLine s s.cur.core b (codeVa b pc) = (t, none) → exec .instructionFetchFill s = .next (fetchEnds t (.hold 11))))) ∧
  (∀ (s : State) (core : Nat) (part : BitVec 2) b g, getBlk s core = some b → b.launched = true →
    oldestReady (partGroups b part.toNat) = some g →
    (((partGroups b part.toNat).filter fun e => e.2.run = .active && !e.2.stopped).length < 4 →
      (∀ e ∈ partGroups b part.toNat, e.2.run = .active → e.2.admitted ≠ s.clk.cycle) →
      ∃ u, exec (.activeSetRefill core part) s = .next u ∧
        u = modGrp s core g fun r => { r with run := .active, admitted := s.clk.cycle }) ∧
    (∀ e ∈ partGroups b part.toNat, e.2.run = .active → e.2.admitted = s.clk.cycle →
      exec (.activeSetRefill core part) s = .next s) ∧
    (4 ≤ ((partGroups b part.toNat).filter fun e => e.2.run = .active && !e.2.stopped).length →
      exec (.activeSetRefill core part) s = .next s)) ∧
  (∀ (s : State) (core g : Nat) r, getGrp s core g = some r → r.run = .active → r.splits ≠ [] →
    (∀ x ∈ r.splits, longWait s core g r.flags x = true) →
    exec (.activeSetLeave core g) s = .next (modGrp s core g fun r => { r with run := .waiting })) ∧
  (∀ (s : State) (core g split : Nat) r x (p : BitVec 3) e,
    let w : Waiting := { core := core, who := .grp g, split := split }
    waitOf s w = .waitj p e → getGrp s core g = some r → waitingSplit s w = some x → threadLive s core (.grp g) = true →
    (r.stopped = false ∨ steppedNow s core (.grp g) = true) → e ≤ s.clk.cycle → othersAtJoin r split x x.unitEnd = false →
    exec (.waitjTimeout core g split) s = .next (endWait (destWait s w p.toNat false) w))

/-! ## Link messaging (16) -/

/-- 16 R388 to R390, R393, R394, R398: the messaging instructions on either kind of thread, with the checks of 16 R389 in
their order. MSEND and MWAKE take an entry of the send queue and MRECV one of the table, or give false; MPROBE counts;
MCANCEL removes the oldest receive of its match word. A buffer of LEN 0 meets no range check (log entry 16), a receive from any
source, MPROBE and MCANCEL meet the check of DEVICE too (log entry 66), and MWAKE is translated at issue (log entry 67). -/
def Obligations.MessageInstructionsComplete : Prop :=
  ∀ (s : State) (i : Iss) (p : BitVec 3) (a b d : BitVec 6) (r x j : BitVec 1) (n : BitVec 6),
    let me := issBlk i
    let core := issCore i
    let ep := opWide i a.toNat
    let bw := opWide i b.toNat
    let dev := (ep.extractLsb' 42 10).toNat
    let any := ep.getLsbD 52
    let bar : Option Nat := if x = 1 then none else some n.toNat
    let len := (bw.extractLsb' 32 17).toNat
    let addr : Word := bw.extractLsb' 0 32
    let done := fun (t : State) (v : Bool) => Host.Outcome.next (issRetire (putDest t i p.toNat v) i)
    let barOk := ∀ k, bar = some k → k < me.hdr.barriers
    let bufOk := addr.toNat % 16 = 0 ∧ len % 16 = 0 ∧ (len ≠ 0 → ∃ off, poolTarget s core addr len = some (core, off))
    let devOk := dev = s.host.devnum ∨ fabricEn s me.ctx = true
    (SharedIssues s i true [(a.toNat, 2), (b.toNat, 2)] [a.toNat, b.toNat] (.dest p) →
      ((addr.toNat % 16 ≠ 0 ∨ len % 16 ≠ 0) → exec (.msend p a b r x n) s =
        .next (issFault s { code := 0x16, addr := addr.zeroExtend 64 } i)) ∧
      (bufOk → barOk → dev ≠ s.host.devnum → fabricEn s me.ctx = false →
        exec (.msend p a b r x n) s = .next (issFault s { code := 0x08 } i)) ∧
      (bufOk → barOk → devOk → issAcquires i = false → (r = 1 → faultUnreported s (issThread i) = false) →
        (32 ≤ (getCore s core).sends.length → exec (.msend p a b r x n) s = done s false) ∧
        ((getCore s core).sends.length < 32 →
          let e : SendEntry := { id := nextId s, wake := false, pc := issPc i, thread := issThread i, dstDev := dev
                                 dstCore := (ep.extractLsb' 32 8).toNat, tag := ep.extractLsb' 0 32, addr := addr, len := len
                                 va := 0, value := 0, rel := r = 1, bar := bar, after := nextId s }
          exec (.msend p a b r x n) s = .next (issRetire (sendHeader (modSends (bumpId (putDest s i p.toNat true)) core
            fun l => l ++ [e]) core me.ctx e) i)))) ∧
    (let na := if j = 1 then 3 else 2
     let job : Option Nat := if j = 0 then none else match i with
       | .grp c => some (vreg c (a.toNat + 2) 0).toNat
       | .fe c => some ((sreg c (a.toNat + 1)).extractLsb' 0 32).toNat
     SharedIssues s i true [(a.toNat, na), (b.toNat, 2)] (if j = 1 then [a.toNat, a.toNat + 1, b.toNat] else [a.toNat, b.toNat])
       (.dest p) → bufOk → barOk →
       (dev ≠ s.host.devnum → fabricEn s me.ctx = false → exec (.mrecv p a b j x n) s = .next (issFault s { code := 0x08 } i)) ∧
       (devOk → len < 16 → exec (.mrecv p a b j x n) s = .next (issFault s { code := 0x16 } i)) ∧
       (devOk → 16 ≤ len → (∀ c, i = .fe c → j = 1 → a.toNat ≤ 62) → issAcquires i = false →
       (32 ≤ (getCore s core).recvs.length → exec (.mrecv p a b j x n) s = done s false) ∧
       ((getCore s core).recvs.length < 32 → exec (.mrecv p a b j x n) s =
         .next (issRetire (postRecv (putDest s i p.toNat true) core
           { id := nextId s, anySrc := any, dev := dev, core := (ep.extractLsb' 32 8).toNat, tag := ep.extractLsb' 0 32
             rsv := ep.extractLsb' 40 2, addr := addr, len := len, bar := bar, job := job }) i)))) ∧
    (dev ≠ s.host.devnum → fabricEn s me.ctx = false →
      (SharedIssues s i false [(d.toNat, 2), (a.toNat, 2)] [d.toNat, a.toNat] (.dest p) →
        exec (.mprobe p d a) s = .next (issFault s { code := 0x08 } i)) ∧
      (SharedIssues s i false [(a.toNat, 2)] [a.toNat] (.dest p) → exec (.mcancel p a) s = .next (issFault s { code := 0x08 } i))) ∧
    (SharedIssues s i false [(d.toNat, 2), (a.toNat, 2)] [d.toNat, a.toNat] (.dest p) → devOk →
      let k := getCore s core
      let hit := k.overflow.filter fun h => h.tag = ep.extractLsb' 0 32 && (any || (h.srcDev = dev && h.srcCore = (ep.extractLsb' 32 8).toNat))
      let posted := (k.recvs.filter fun r => sameWord r ep).length
      let first : Nat := (hit.head?.map MsgHeader.len).getD 0
      exec (.mprobe p d a) s = .next (issRetire (putDest (putWide s i d.toNat
        (BitVec.ofNat 32 first ++ (0 : BitVec 16) ++ BitVec.ofNat 8 hit.length ++ BitVec.ofNat 8 posted)) i p.toNat (!hit.isEmpty)) i)) ∧
    (SharedIssues s i false [(a.toNat, 2)] [a.toNat] (.dest p) → devOk →
      (∀ y, (getCore s core).recvs.find? (fun r => sameWord r ep) = some y → exec (.mcancel p a) s =
        done (modRecvs s core fun l => l.filter fun e => e.id ≠ y.id) true) ∧
      ((getCore s core).recvs.find? (fun r => sameWord r ep) = none → exec (.mcancel p a) s = done s false)) ∧
    (SharedIssues s i true [(a.toNat, 2), (b.toNat, 2)] [a.toNat, b.toNat] (.dest p) →
      (ep.toNat % 8 ≠ 0 → exec (.mwake p a b r x n) s = .next (issFault s { code := 0x16, addr := ep } i)) ∧
      (ep.toNat % 8 = 0 → barOk → issAcquires i = false → (r = 1 → faultUnreported s (issThread i) = false) →
        ∀ t l, askLeaf s core me.ctx ep.toNat = (t, some (.leaf l)) → leafRight l false true false = none →
        (32 ≤ (getCore t core).sends.length → exec (.mwake p a b r x n) s = done t false) ∧
        ((getCore t core).sends.length < 32 →
          let e : SendEntry := { id := nextId t, wake := true, pc := issPc i, thread := issThread i, dstDev := t.host.devnum
                                 dstCore := core, tag := 0, addr := 0, len := 8, va := ep, value := bw, rel := r = 1, bar := bar
                                 after := nextId t }
          exec (.mwake p a b r x n) s = .next (issRetire (sendWake (modSends (bumpId (putDest t i p.toNat true)) core
            fun l => l ++ [e]) i e ep.toNat) i))))

/-- 16 R390 to R393, R398: the stages of a message: a header is taken by the oldest posted receive that it matches, else by the
overflow queue of 64 entries, else it is discarded, with a record and a negative completion; one without an endpoint gets
PERMISSION, one without a route LINK_DOWN; the pull reads the sender's pool; the data lands behind a header granule; the completion credits the
sender's barrier, or reports the failure. -/
def Obligations.MessageEvents : Prop :=
  ∀ (s : State) (m : MsgFlight), getMsg s m.id = some m →
    let own := m.hdr.srcDev = s.host.devnum
    (m.stage = 0 → headerTurn s m = true → msgHeld s m = false → fabricHeld s m.dstDev = false →
      let t := match sendOf s m.hdr with
        | some e => if e.rel then releaseAt s e.thread.core 3 else s
        | none => s
      let cut := headerCut t m = true ∨ (m.dstDev ≠ t.host.devnum ∧
        ∀ l, routeLink (tgetD 0 m.dstDev t.host.route) = some l → linkIn t carries l = false)
      (cut → exec (.msgHeaderArrive m.id) s = .next (sendCompletion (dropMsg t m.id) m.hdr.srcCore m.hdr 0x17)) ∧
      (¬ cut → m.dstDev ≠ t.host.devnum → exec (.msgHeaderArrive m.id) s = .next (modMsg t m.id fun x => { x with stage := 4 })) ∧
      (¬ cut → m.dstDev = t.host.devnum →
        let h := m.hdr
        let c := m.dstCore
        let u := dropMsg t m.id
        let takes := fun (r : Recv) => decide (r.matched = false ∧ r.tag = h.tag ∧
          (r.anySrc = true ∨ (r.dev = h.srcDev ∧ r.core = h.srcCore)))
        let gives := fun (v : State) => exec (.msgHeaderArrive m.id) s = .next v
        (endpointOk t h c = false → gives (sendCompletion u c h 0x08)) ∧
        (endpointOk t h c = true →
          (∀ r, (getCore t c).recvs.find? takes = some r → gives (sendPull (modRecvs u c fun l =>
            l.map fun e => if e.id = r.id then { e with matched := true } else e) c h r.id)) ∧
          ((getCore t c).recvs.find? takes = none → (getCore t c).overflow.length < 64 →
            gives (modOverflow u c fun l => l ++ [h])) ∧
          ((getCore t c).recvs.find? takes = none → 64 ≤ (getCore t c).overflow.length →
            gives (sendCompletion (overflowRecord u h c) c h 0x0F))))) ∧
    (∀ b, getBlk s m.dstCore = some b → overflowRecord s m.hdr m.dstCore = agentRecord s b.ctx
      { blockRecord s m.dstCore b .fe 0x0F 2 with
        addr := m.hdr.tag.zeroExtend 64, detail := BitVec.ofNat 32 (0xE0 + m.hdr.srcCore % 256 * 2 ^ 8 + m.hdr.srcDev % 1024 * 2 ^ 16) }) ∧
    (∀ e, m.stage = 1 → own → sendOf s m.hdr = some e → pullBad s m.hdr = false → msgHeld s m = false →
      coreTested s 1 m.hdr.srcCore = false → exec (.msgPull m.id) s = .next (addMsg (dropMsg s m.id)
        { m with stage := 2, data := poolBytes s m.hdr.srcCore (e.addr.toNat % 2 ^ 19) e.len })) ∧
    (∀ r, m.stage = 2 → msgHeld s m = false → coreTested s 1 m.dstCore = false → (getCore s m.dstCore).recvs.find? (fun y => y.id = m.recv) = some r → 16 ≤ r.len →
      Memory.wf (getCore s m.dstCore).pool = true →
      let off := r.addr.toNat % 2 ^ 19
      let k := min m.data.length (r.len - 16)
      ∃ u, exec (.msgDataLand m.id) s = .next u ∧
        (∀ q, q ∈ (getCore u m.dstCore).recvs → q.id ≠ r.id) ∧
        (∀ j, j < k → tgetD (0 : Byte) (off + 16 + j) (getCore u m.dstCore).pool = m.data.getD j 0) ∧
        poolBytes u m.dstCore off 4 = natBytes 4 m.hdr.tag.toNat ∧ poolBytes u m.dstCore (off + 8) 4 = natBytes 4 m.hdr.len ∧
        (∀ c x, c ≠ m.dstCore ∨ x < off ∨ off + 16 + k ≤ x → tgetD (0 : Byte) x (getCore u c).pool = tgetD 0 x (getCore s c).pool)) ∧
    (m.stage = 3 → msgHeld s m = false → ∀ e, sendOf (dropMsg s m.id) m.hdr = some e → exec (.msgCompletion m.id) s =
      .next (if m.code = 0 then sendDone (dropMsg s m.id) m.hdr.srcCore e else sendFailed (dropMsg s m.id) m.hdr.srcCore e m.code)) ∧
    (∀ q k, getReq s q.id = some q → q.send = some k → q.stage = .performed → ∀ e,
      (getCore s q.thread.core).sends.find? (fun x => x.id = k) = some e →
      exec (.mwakeAck q.id) s = .next (sendDone (dropReq s q.id) q.thread.core e))

/-! ## Faults, pages and debug (04, 15, 17) -/

/-- 17 R420, 15 R378 to R381: TRAP faults with its value and code and restarts after itself; BKPT tells the trigger, and with
BKEN stops its cluster; PGPROBE and PGSCRUB wait for what they ask; PGMIG queues its request or gives false. PGMIG needs
privilege, PGSCRUB privilege or the fault-service job.
04 R110 to R113: GSTATE, GREPLAY and GKILL need privilege or the fault-service job, and a privileged context for another
context's handle; they are sent to the handle's core and their thread, a front-end or a group, waits for the reply. The place
that GSTATE writes may lie in the pool of another core (log entry 128), and its address is the low word of a scalar (log entry
114). -/
def Obligations.SystemInstructionsComplete : Prop :=
  (∀ (s : State) (i : Iss) (p g : BitVec 3) (a b n : BitVec 6) (c9 : BitVec 9) (x : BitVec 1),
    let me := issBlk i
    let core := issCore i
    let v : DWord := match i with
      | .grp c => (vreg c a.toNat 0).zeroExtend 64
      | .fe c => sreg c a.toNat
    let code := imm9 (issLit i) c9
    (SharedIssues s i true [(a.toNat, 1)] [a.toNat] (.guard g) →
      exec (.trap g a c9) s = .next (issFault s { code := 0x15, addr := v, detail := code, next := true } i) ∧
      (let t := trigEvent s core (.bkpt (code.toNat % 8))
       let h := handleOf me core (issThread i).who
       (t.dbg.dctl.getLsbD 0 = false → exec (.bkpt g a c9) s = .next (issRetire t i)) ∧
       (t.dbg.dctl.getLsbD 0 = true → exec (.bkpt g a c9) s = .next (issRetire (startStop (ringAppend t
         (debugBytes t core me 1 0x14 0xFFFF t.clk.gts h v (issPc i) (code &&& 0x1FF) 0 [])) core h v (issPc i)) i)))) ∧
    (SharedIssues s i false [(a.toNat, 2), (b.toNat, 4)] [a.toNat, b.toNat, b.toNat + 1] (.dest p) →
      (∀ c, i = .fe c → b.toNat ≤ 62) →
      exec (.pgprobe p a b) s = .next (issWait (startWait s i (.walk (opWide i a.toNat).toNat p b.toNat)) i)) ∧
    (SharedIssues s i true [(a.toNat, 3), (b.toNat, 2)] [a.toNat, a.toNat + 1, b.toNat] (.dest p) →
      (∀ c, i = .fe c → a.toNat ≤ 62) →
      (privileged s core = false → exec (.pgmig p a b x n) s = .next (issFault s { code := 0x12 } i)) ∧
      (privileged s core = true → (x = 1 ∨ n.toNat < me.hdr.barriers) →
        (16 ≤ s.pages.queue.length → exec (.pgmig p a b x n) s = .next (issRetire (putDest s i p.toNat false) i)) ∧
        (s.pages.queue.length < 16 →
          let t := issThread i
          let place : Word := match i with
            | .grp c => vreg c (a.toNat + 2) 0
            | .fe c => (sreg c (a.toNat + 1)).extractLsb' 0 32
          let va := (opWide i a.toNat).toNat
          let bar : Option Nat := if x = 1 then none else some n.toNat
          let rec_ : FaultRec := { blockRecord s t.core me t.who 0 2 with
            handle := handleOf me t.core t.who, pc := issPc i, addr := BitVec.ofNat 64 va
            barrier := match bar with
              | some k => BitVec.ofNat 16 (me.member * 256 + k)
              | none => 0xFFFF }
          let m : Migration := { id := nextId s, ctx := me.ctx, va := va, by_ := .pgmig t.core me.cluster bar rec_
                                 newPa := (opWide i b.toNat).toNat, newPlace := place }
          exec (.pgmig p a b x n) s = .next (issRetire (putDest
            (bumpId { s with pages := { s.pages with queue := s.pages.queue ++ [m] } }) i p.toNat true) i)))) ∧
    (SharedIssues s i false [(a.toNat, 2)] [a.toNat] (.guard g) →
      (serviceRight s core = false → exec (.pgscrub g a) s = .next (issFault s { code := 0x12 } i)) ∧
      (serviceRight s core = true → exec (.pgscrub g a) s =
        .next (issWait (startWait (bumpId (modFlight s fun f => { f with scans := f.scans ++
          [{ id := nextId s, thread := issThread i, split := issSplit i, ctx := me.ctx, va := (opWide i a.toNat).toNat
             dies := [0, 1, 2, 3] }] })) i (.scrub (nextId s))) i)))) ∧
  (∀ (s : State) (i : Iss) (p g : BitVec 3) (a b : BitVec 6) (f : BitVec 1) (k : BitVec 2) (n : BitVec 7),
    let h : Word := match i with
      | .grp c => vreg c a.toNat 0
      | .fe c => (sreg c a.toNat).extractLsb' 0 32
    let dst : Word := match i with
      | .grp c => vreg c b.toNat 0
      | .fe c => (sreg c b.toNat).extractLsb' 0 32
    let core := (h.extractLsb' 0 8).toNat
    let right := privileged s (issCore i) || isFsjob s (issCore i)
    let allowed := privileged s (issCore i) || (h.extractLsb' 14 12).toNat = (issBlk i).ctx
    let bytes := match k.toNat with
      | 0 => 64
      | 1 => 512
      | 2 => 128
      | _ => 1024
    let ask := fun (pd : BitVec 3) (kind : Nat) (sel : BitVec 9) (place : Word) =>
      issWait (startWait (bumpId (modFlight s fun x => { x with services := x.services ++
        [{ id := nextId s, src := issThread i, split := issSplit i, pd := pd, handle := h, kind := kind, sel := sel, dst := place }] }))
        i (.service (nextId s))) i
    (SharedIssues s i true [(a.toNat, 1)] [a.toNat] (.dest p) →
      (right = false ∨ allowed = false → exec (.greplay p a f) s = .next (issFault s { code := 0x12 } i)) ∧
      (right = true → allowed = true → (core < 192 → routeUp s (coreDie (issCore i)) (coreDie core) = true) →
        exec (.greplay p a f) s = .next (ask p 1 (f.zeroExtend 9) 0))) ∧
    (SharedIssues s i false [(a.toNat, 1)] [a.toNat] (.dest p) →
      (right = false ∨ allowed = false → exec (.gkill p a) s = .next (issFault s { code := 0x12 } i)) ∧
      (right = true → allowed = true → (core < 192 → routeUp s (coreDie (issCore i)) (coreDie core) = true) →
        exec (.gkill p a) s = .next (ask p 2 0 0))) ∧
    (SharedIssues s i true [(a.toNat, 1), (b.toNat, 1)] [a.toNat, b.toNat] (.guard g) →
      (right = false ∨ allowed = false → exec (.gstate g a b k n) s = .next (issFault s { code := 0x12 } i)) ∧
      (right = true → allowed = true → (core < 192 → routeUp s (coreDie (issCore i)) (coreDie core) = true) → dst.toNat % 16 = 0 →
        (poolTarget s (issCore i) dst bytes).isSome → exec (.gstate g a b k n) s = .next (ask 0 0 (k ++ n) dst))))

/-- 04 R110 to R113: a request that arrives is answered: GREPLAY makes a FAULTED thread that is not stopped READY, with its
generation kept, GKILL kills it, and with a front-end its whole block; a stale handle, or a thread in another state, gives false,
and so does a FAULTED thread that is STOPPED (log entry 77). The reply ends the wait.
15 R363 to R366: a walk goes to the tables, or with WALK = 0 to the mailbox, whose answer is checked; a frame without an
owner is zeroed and taken; a shootdown drops the translations it covers from every cache and is complete when the accesses
made with them are. -/
def Obligations.ServiceAndWalkEvents : Prop :=
  (∀ (s : State) (r : Service), getService s r.id = some r →
    (r.reply = none →
      serviceBefore s r = false → serviceHeld s r = false →
      (r.kind = 0 → exec (.serviceRequestArrive r.id) s = .next (answerService s r.id true (gstateBytes s r.handle r.sel))) ∧
      (r.kind ≠ 0 → handleThread s r.handle = none → exec (.serviceRequestArrive r.id) s = .next (answerService s r.id false [])) ∧
      (∀ t, r.kind ≠ 0 → handleThread s r.handle = some t → (runOf s t ≠ .faulted ∨ isStopped s t = true) →
        exec (.serviceRequestArrive r.id) s = .next (answerService s r.id false [])) ∧
      (∀ core g x, handleThread s r.handle = some ⟨core, .grp g⟩ → getGrp s core g = some x → x.run = .faulted → x.stopped = false →
        (r.kind = 1 → ∃ u y, exec (.serviceRequestArrive r.id) s = .next u ∧ getGrp u core g = some y ∧ y.run = .ready ∧
          y.gen = x.gen ∧ y.sfrq = [] ∧ y.splits.map (fun e => (e.1, e.2.pc)) = x.splits.map (fun e => (e.1, e.2.pc))) ∧
        (r.kind = 2 → ∃ u y, exec (.serviceRequestArrive r.id) s = .next u ∧ getGrp u core g = some y ∧ y.run = .killed ∧
          y.wasKilled = true)) ∧
      (∀ core b, handleThread s r.handle = some ⟨core, .fe⟩ → getBlk s core = some b → b.fe.run = .faulted → b.fe.stopped = false →
        (r.kind = 1 → ∃ u y, exec (.serviceRequestArrive r.id) s = .next u ∧ getBlk u core = some y ∧ y.fe.run = .ready ∧
          y.fe.gen = b.fe.gen ∧ y.fe.pc = b.fe.pc) ∧
        (r.kind = 2 → ∃ u y, exec (.serviceRequestArrive r.id) s = .next u ∧ getBlk u core = some y ∧ y.killed = true ∧
          y.fe.run = .killed ∧ ∀ g q, getGrp u core g = some q → q.run = .killed ∨ q.run = .exited))) ∧
    (∀ ok bs, r.reply = some (ok, bs) → serviceHeld s r = false → waitOf s ⟨r.src.core, r.src.who, r.split⟩ = .service r.id →
      threadLive s r.src.core r.src.who = true →
      let w : Waiting := { core := r.src.core, who := r.src.who, split := r.split }
      let t := modFlight s fun f => { f with services := f.services.filter fun x => x.id ≠ r.id }
      exec (.serviceReply r.id) s = .next (endWait (if r.kind = 0 then writeReply t r bs else destWait t w r.pd.toNat ok) w))) ∧
  (∀ s : State,
    (∀ w, (s.flight.walks.find? fun x => x.id = w.id) = some w → w.res = none → w.zeroing = none → w.posted = false →
      walkHeld s w = false →
      (s.mode.getLsbD 1 = true → walkerFree s w = true → exec (.pageWalk w.id) s = .next (ownWalk (noteSeen s w.id (rawLeaf s w.ctx w.va)) w (walkPage s w.ctx w.va))) ∧
      (s.mode.getLsbD 1 = false → s.host.walkFor = none → exec (.pageWalk w.id) s = .next (postWalk s w))) ∧
    (∀ w l, (s.flight.walks.find? fun x => x.id = w.id) = some w → w.zeroing = some l →
      exec (.frameOwnerZeroing w.id) s = .next (endWalk (takeFrames s w.ctx l) w (.leaf l))) ∧
    (∀ w (leaf : BitVec 128), mailWalk s = some w →
      exec .walkMailboxFault s = .next (endWalk { s with host := { s.host with walkFor := none } } w (.code 0x07)) ∧
      (leaf.getLsbD 0 = false ∨ leaf.getLsbD 1 = false → hostLeaf s leaf.toNat = .code 0x07) ∧
      exec (.walkMailboxDone leaf) s = .next (ownWalk (noteSeen { s with host := { s.host with walkFor := none } } w.id
        (some (leafOf leaf.toNat 0 0))) w (hostLeaf s leaf.toNat))) ∧
    (mailWalk s = none → ∀ leaf, exec (.walkMailboxDone leaf) s = .next s ∧ exec .walkMailboxFault s = .next s) ∧
    (∀ w0 w1 : DWord, s.pages.shoot.status ≠ 1 →
      (w1.extractLsb' 12 2 ≠ 3 → w1.extractLsb' 16 32 = 0 → ∃ u, exec (.shootdown w0 w1) s = .next u ∧
        u = { s with pages := { s.pages with shoot := { word0 := w0, word1 := w1, status := 3, waiting := [] } } }) ∧
      (s.pages.queue = [] → (w1.extractLsb' 12 2 = 3 ∨ w1.extractLsb' 16 32 ≠ 0) → ∃ u, exec (.shootdown w0 w1) s = .next u ∧
        u.pages.shoot.status = 1 ∧
        (∀ c ∈ u.cores, ∀ e ∈ c.2.tcache, shootCovers w0.toNat w1.toNat e.ctx e.va (pageBytes e.leaf.size) = false) ∧
        (∀ d ∈ u.dies, ∀ e ∈ d.2.tcache, shootCovers w0.toNat w1.toNat e.ctx e.va (pageBytes e.leaf.size) = false) ∧
        (∀ r ∈ s.flight.global, r.leaf.isSome → r.stage = .atHome → shootCovers w0.toNat w1.toNat r.ctx r.va 128 = true →
          r.id ∈ u.pages.shoot.waiting))) ∧
    (s.pages.shoot.status = 1 → (∀ id ∈ s.pages.shoot.waiting, stillOut s id = false) → exec .shootdownComplete s =
      .next { s with pages := { s.pages with shoot := { s.pages.shoot with status := 2, waiting := [] } } }) ∧
    (s.pages.shoot.status ≠ 1 → exec .shootdownComplete s = .next s))

/-- 15 R373 to R376, R380, R381: the stages of a re-striping: a request that is sound starts COPYING and its leaf's STATE is
written, one that is not is refused with its code; a pass that finds few dirty granules freezes the page; the final copy
starts the shootdown; the last acknowledgement publishes; an abort restores the leaf's STATE. -/
def Obligations.RestripeEvents : Prop :=
  ∀ (s : State) (m : Migration), getMig s m.id = some m →
    (m.stage = .queued →
      (∀ t, migLeaf s m = (t, none) → exec (.restripeCheck m.id) s = .next t) ∧
      (∀ t leaf c, migLeaf s m = (t, some leaf) → migCode t m leaf = some c → exec (.restripeCheck m.id) s = .next (migFail t m c 0)) ∧
      (∀ t l, migLeaf s m = (t, some (some l)) → migCode t m (some l) = none → ∃ u k, exec (.restripeCheck m.id) s = .next u ∧
        getMig u m.id = some k ∧ k.stage = .copying ∧ k.old = some l ∧ k.pass = 0)) ∧
    (m.stage ≠ .queued → exec (.restripeCheck m.id) s = .next s) ∧
    (∀ l, m.old = some l →
      (m.stage = .copying → goesOn s m = true → ∃ u k, exec (.restripePassEnd m.id) s = .next u ∧ getMig u m.id = some k ∧ k.pass = m.pass + 1 ∧
        k.stage = if withinBound m then .frozen else .copying) ∧
      (m.stage = .frozen → goesOn s m = true → ∃ u k, exec (.restripeFinalCopy m.id) s = .next u ∧ getMig u m.id = some k ∧ k.stage = .publishing ∧
        k.acks = []) ∧
      (∀ c, m.stage = .publishing → goesOn s m = true → (m.acks.length = 195 → genInUse s m l = false) → c < 196 → tgetD false c m.acks = false → (∀ x ∈ tgetD [] c m.waiting, stillOut s x = false) →
        let m' := { m with acks := tput c true m.acks }
        let t := modMig s m.id fun _ => m'
        exec (.restripeShootdownAck m.id c) s = .next (if m'.acks.length = 196 then migDone (publish t m' l) m' l else t)) ∧
      (m.stage ≠ .queued → lostDie s m = true →
        exec (.restripeAbort m.id true) s = .next (migFail (writeState s l 0) m 0x0A (stageCode m.stage))) ∧
      (m.stage = .copying ∨ m.stage = .frozen → newFrameBad s m l = true →
        exec (.restripeAbort m.id false) s = .next (migFail (writeState s l 0) m 0x0C (stageCode m.stage)))) ∧
    (∀ x l t, (s.flight.scans.find? fun y => y.id = x.id && y.dies.length = 4) = some x →
      let w : Waiting := { core := x.thread.core, who := x.thread.who, split := x.split }
      (match w.who with
        | .grp _ => (waitingSplit s w).any fun y => y.wait = .scrub x.id
        | .fe => (getBlk s w.core).any fun b => b.fe.wait = .scrub x.id) = true →
      (s.pages.queue.any fun q => migPage q x.ctx x.va) = false → askLeaf s x.thread.core x.ctx x.va = (t, some (.leaf l)) →
      exec (.pgscrubScanDone x.id) s =
        .next (endWait (scrubPage (modFlight t fun f => { f with scans := f.scans.filter fun y => y.id ≠ x.id }) l) w))

/-- 17 R407, R411, R413, R414, R417: the debug commands. One that runs makes another one ignored (log entry 23). One on a core with
no block is rejected, status 3; STOP, WRITE and RELEASE complete at once (log entry 105); RELEASE and STEP are rejected where the
cluster is not stopped, a STEP of a thread that has ended too, a DUMP where the block is not, a WRITE of a register above 8; a DUMP
goes to the millhouse or to host memory; a STEP that times out ends with status 3; a stop arrives behind what its core has sent
there before. A sample falls due once its period is over, and is appended as the cycle ends; then REC follows the two conditions. -/
def Obligations.DebugCommands : Prop :=
  ∀ (s : State) (core : BitVec 8),
    let word (w : DWord) (a : DWord) : State := { s with dbg := { s.dbg with word0 := w, word1 := a } }
    let old := s.dbg.word1
    (s.dbg.status = 1 → ∀ sel fe dest arg, exec (.dbgStop core) s = .next s ∧ exec (.dbgRelease core) s = .next s ∧
      exec (.dbgStep core sel fe) s = .next s ∧ exec (.dbgDump core dest arg) s = .next s ∧ exec (.dbgWrite core sel arg) s = .next s) ∧
    (s.dbg.status ≠ 1 → getBlk s core.toNat = none → ∀ sel fe dest arg,
      exec (.dbgStop core) s = .next (dbgStatus (word (dbgWord 1 core 0 false false) old) 3) ∧
      exec (.dbgRelease core) s = .next (dbgStatus (word (dbgWord 2 core 0 false false) old) 3) ∧
      exec (.dbgStep core sel fe) s = .next (dbgStatus (word (dbgWord 3 core sel fe false) old) 3) ∧
      exec (.dbgDump core dest arg) s = .next (dbgStatus (word (dbgWord 4 core 0 false dest) arg) 3) ∧
      exec (.dbgWrite core sel arg) s = .next (dbgStatus (word (dbgWord 5 core sel false false) arg) 3)) ∧
    (∀ b, s.dbg.status ≠ 1 → getBlk s core.toNat = some b →
      exec (.dbgStop core) s = .next (dbgStatus (startStop (word (dbgWord 1 core 0 false false) old) core.toNat 0 0 0) 2) ∧
      (∀ cl, coreCluster s core.toNat = some cl → cl.stopped = true → exec (.dbgRelease core) s =
        .next (dbgStatus (releaseStop (word (dbgWord 2 core 0 false false) old) b.cluster cl) 2)) ∧
      ((∀ cl, coreCluster s core.toNat = some cl → cl.stopped = false) →
        exec (.dbgRelease core) s = .next (dbgStatus (word (dbgWord 2 core 0 false false) old) 3)) ∧
      (∀ sel fe, let who : Who := if fe then .fe else .grp (sel : BitVec 6).toNat
        (clusterStopped s core.toNat = false ∨ keptRun b who = .exited ∨ keptRun b who = .killed) →
        exec (.dbgStep core sel fe) s = .next (dbgStatus (word (dbgWord 3 core sel fe false) old) 3)) ∧
      (∀ sel fe, let who : Who := if fe then .fe else .grp (sel : BitVec 6).toNat
        clusterStopped s core.toNat = true → keptRun b who ≠ .exited → keptRun b who ≠ .killed →
        exec (.dbgStep core sel fe) s = .next (dbgStatus (beginStep (word (dbgWord 3 core sel fe false) old) core.toNat who) 1)) ∧
      (∀ dest arg, (b.stopping = false ∨ allStopped b = false) →
        exec (.dbgDump core dest arg) s = .next (dbgStatus (word (dbgWord 4 core 0 false dest) arg) 3)) ∧
      (∀ (dest : Bool) arg, b.stopping = true → allStopped b = true → resultsLanded s core.toNat = true →
        dest = true ∨ linkUp s 16 = true →
        ∃ u, exec (.dbgDump core dest arg) s = .next u ∧ u.dbg.status = 2 ∧ u.dbg.dump = none ∧ u.dbg.result = BitVec.ofNat 64 frameSize ∧
          (dest = false → u.mem = (physPut s hostPlace (alignDown arg.toNat 65536) (frameBytes s core.toNat b)).mem) ∧
          (dest = true → u.mem = s.mem ∧ u.mgmt.sent.head? = some (frameBytes s core.toNat b))) ∧
      (∀ arg, b.stopping = true → allStopped b = true → resultsLanded s core.toNat = true → linkUp s 16 = false →
        ∃ u, exec (.dbgDump core false arg) s = .next u ∧ u.dbg.status = 3 ∧ u.dbg.dump = none ∧ u.mem = s.mem) ∧
      (∀ (sel : BitVec 6) (arg : BitVec 64), 8 < sel.toNat → exec (.dbgWrite core sel arg) s =
        .next (dbgStatus (word (dbgWord 5 core sel false false) arg) 3)) ∧
      (∀ (sel : BitVec 6) (arg : BitVec 64), sel.toNat ≤ 8 → exec (.dbgWrite core sel arg) s = .next (dbgStatus
        (modBlk (word (dbgWord 5 core sel false false) arg) core.toNat fun b => writeDebug b sel.toNat arg) 2))) ∧
    (∀ b st, getBlk s (bitsOf s.dbg.word0.toNat 15 8) = some b → b.stepping = some st → s.dbg.status = 1 → st.expires ≤ s.clk.cycle →
      ∃ u, exec .stepTimeout s = .next u ∧ u.dbg.status = 3) ∧
    (∀ m, (s.flight.stops.find? fun x => x.id = m.id) = some m → crossBefore s m.src m.core m.id = false →
      seamHeld s (coreDie m.src) (coreDie m.core) = false → exec (.stopArrive m.id) s =
      .next (receiveStop (modFlight s fun f => { f with stops := f.stops.filter fun x => x.id ≠ m.id }) m.core m.cause)) ∧
    (∀ b, getBlk s core.toNat = some b →
      (b.groups ≠ [] → b.trigNow.getLsbD 63 = true → b.trigNow.getLsbD 0 = true →
        b.sampledAt + 2 ^ (bitsOf b.trigNow.toNat 55 52 + 6) ≤ s.clk.cycle →
        exec (.traceSample core.toNat) s = .next (modBlk s core.toNat fun b => { b with sampleDue := true })) ∧
      (∀ g r, nextGroup b b.sampleNext = some (g, r) → takeSample s core.toNat b =
        modBlk (profAppend s core.toNat b.ctx (sampleBytes s core.toNat b g r)) core.toNat fun b =>
          { b with sampleNext := g + 1, sampledAt := s.clk.cycle }) ∧
      (b.hits = [] → b.sampleDue = false → ∃ y, getBlk (debugCycle s core.toNat) core.toNat = some y ∧ y.trigNow = y.trig ∧
        y.watchNow = b.watch ∧
        y.trig.getLsbD 0 = (b.trig.getLsbD 63 && b.trigNow.getLsbD 63 && !trigStops b.trigNow b.causes &&
          (b.trigNow.getLsbD 0 || trigStarts b.trigNow b.causes))))

/-! ## Links, dies and the device (16, 18) -/

/-- 16 R383, R385, R399: the states of a link. ENABLE trains it, success brings it UP, the eighth failed attempt or 10 ms
FAILED, QUIESCE and DISABLE take it out; sixteen replays in a row, which a free value counts (log entry 93), retrain it; a time exchange on the link nearest the master, at
most one in 4096 ticks (log entry 133), steps forward once, then slews: its offset is rounded down, its bands are log entry 96's.
16 R400, R401: a warm reset of a die begins unless one runs or no other die is admitted: the die is no longer admitted and
its clusters are pre-empted; the sequence goes on step by step, and ends after the tenth.
16 R387, R398: a peer's request on a fabric link that is UP: a read changes nothing; an atomic or a wake write takes effect
within the exported window; one beyond it changes nothing; a message header is taken unless it gives this device as its source (kinds and bytes: log entry 97). -/
def Obligations.LinkEvents : Prop :=
  (∀ (s : State) (link : BitVec 5), link.toNat ≤ 16 →
    let l := link.toNat
    let k := getLink s l
    let ends (i : Instr) (st : LinkState) : Prop := ∃ u, exec i s = .next u ∧ (getLink u l).state = st
    (linkCommanded s l = true →
      (k.state = .down ∨ k.state = .failed → exec (.linkEnable link) s = .next (beginTraining s l) ∧
        (getLink (beginTraining s l) l).state = .training) ∧
      (k.state = .quiesced → exec (.linkEnable link) s = .next (beginRetraining s l) ∧
        (getLink (beginRetraining s l) l).state = .retraining) ∧
      (k.state = .up → exec (.linkQuiesce link) s = .next (quiesceLink s l)) ∧
      (k.state ≠ .up → exec (.linkQuiesce link) s = .next s) ∧
      (k.state = .quiesced ∨ k.state = .failed → ends (.linkDisable link) .down) ∧
      (k.state ≠ .quiesced → k.state ≠ .failed → exec (.linkDisable link) s = .next s)) ∧
    (k.state = .training ∨ k.state = .retraining →
      (s.clk.gts.toNat < k.since + 10000000 → ends (.trainingSuccess link) .up) ∧
      (k.since + 10000000 ≤ s.clk.gts.toNat → exec (.trainingSuccess link) s = .next s) ∧
      (8 ≤ k.attempts + 1 ∨ k.since + 10000000 ≤ s.clk.gts.toNat →
        exec (.trainingFailure link) s = .next (failLink (modLink s l fun k => { k with attempts := k.attempts + 1 }) l)) ∧
      (k.attempts < 7 → s.clk.gts.toNat < k.since + 10000000 →
        exec (.trainingFailure link) s = .next (modLink s l fun k => { k with attempts := k.attempts + 1 }))) ∧
    (k.state = .quiescing → linkQuiet s l = true → ends (.linkQuiesced link) .quiesced) ∧
    (k.state = .up → 16 ≤ k.replayRun → exec (.replayLimit link) s = .next (endUnrouted (beginRetraining s l))) ∧
    (k.state = .up ∨ k.state = .quiescing → ∃ u, exec (.crcFailure link) s = .next u ∧ (getLink u l).replays = min (k.replays + 1) 0xFFFF ∧
      (getLink u l).replayRun = if (freshValue s).getLsbD 0 then k.replayRun + 1 else 1) ∧
    (∀ t1 t2 t3 t4 : BitVec 64, (masterLink s ≠ some l ∨ s.host.tmaster = true ∨ s.clk.gts.toNat < s.clk.exchanged + 4096) →
      exec (.timeExchange link t1 t2 t3 t4) s = .next s) ∧
    (∀ j, masterLink s = some j → 4 ≤ j ∧ j < 16 ∧ (getLink s j).state = .up ∧
      ∀ m, 4 ≤ m → m < 16 → (getLink s m).state = .up → Config.masterHops j ≤ Config.masterHops m) ∧
    (∀ t1 t2 t3 t4 : BitVec 64, masterLink s = some l → s.host.tmaster = false → s.clk.exchanged + 4096 ≤ s.clk.gts.toNat →
      let o := ((t2 - t1).toInt + (t3 - t4).toInt) / 2
      ∃ u, exec (.timeExchange link t1 t2 t3 t4) s = .next u ∧ (getLink u l).locked = true ∧
        (timeLocked s = false → 4096 < o → u.clk.gts = s.clk.gts + BitVec.ofInt 64 o ∧ u.clk.slew = 0) ∧
        (timeLocked s = true ∨ o ≤ 4096 → u.clk.gts = s.clk.gts ∧ u.clk.slew = o) ∧ u.clk.exchanged = u.clk.gts.toNat ∧
        (o.natAbs ≤ 4 → (getLink u l).tsync = true) ∧ (8 < o.natAbs → (getLink u l).tsync = false))) ∧
  (∀ s : State,
    (∀ die : BitVec 2, s.dreset.busy = true ∨ lastAdmitted s die.toNat = true →
      exec (.dieResetStart die) s = .next { s with dreset := { s.dreset with reg := die } }) ∧
    (∀ die : BitVec 2, s.dreset.busy = false → lastAdmitted s die.toNat = false →
      exec (.dieResetStart die) s = .next (startReset s die) ∧ ((startReset s die).dreset.busy = true) ∧
      (startReset s die).dreset.step = 1 ∧ (startReset s die).dreset.assisted = !s.mode.getLsbD 4) ∧
    (s.dreset.busy = true → s.dreset.held = true → s.dreset.step < 10 →
      ∃ u, exec .dieResetContinue s = .next u ∧
        u = resetStep { s with dreset := { s.dreset with step := s.dreset.step + 1, held := false } } s.dreset.die.toNat (s.dreset.step + 1)) ∧
    (s.dreset.busy = true → s.dreset.held = true → s.dreset.step = 10 →
      ∃ u, exec .dieResetContinue s = .next u ∧ u.dreset.busy = false) ∧
    (s.dreset.busy = false ∨ s.dreset.held = false → exec .dieResetContinue s = .next s)) ∧
  (∀ (s : State) (link : BitVec 5) (op : BitVec 4) (addr : BitVec 52) (data : List (BitVec 8)),
    4 ≤ link.toNat → link.toNat < 16 → linkUp s link.toNat = true → frozenAt s windowPlace addr.toNat = false →
    homeIsDown s windowPlace addr.toNat = false → throttledAt s windowPlace addr.toNat = false →
    exec (.peerRequest link 0 op addr data) s = .next s ∧
    exec (.peerRequest link 1 op addr data) s = .next (peerAtomic s op addr.toNat data) ∧
    exec (.peerRequest link 2 op addr data) s = .next (peerWake s addr.toNat data) ∧
    (fieldAt data 0 2 % 1024 ≠ s.host.devnum → exec (.peerRequest link 3 op addr data) s = .next (peerHeader s data)) ∧
    (inWindow s addr.toNat 8 = false → peerWake s addr.toNat data = s) ∧
    (inWindow s addr.toNat (atomicSize op) = false → peerAtomic s op addr.toNat data = s))

/-- 18 R421 to R431, 16 R386, 00 R4: the millpond and the clock, the current limit, corrected errors and self-test verdicts, the
millhouse, and writes of plain registers. -/
def Obligations.DeviceEvents : Prop :=
  (∀ (s : State) (m : Nat), s.mgmt.checked < s.mgmt.updates → s.mgmt.updates % 10 = 0 → exec (.millpondUpdate m) s = .next s) ∧
  (∀ (s : State) (m : Nat), (s.mgmt.updates + 1) * 1000 ≤ s.clk.gts.toNat →
    (s.mgmt.updates ≤ s.mgmt.checked ∨ s.mgmt.updates % 10 ≠ 0) → ∃ u, exec (.millpondUpdate m) s = .next u ∧
    u.mgmt.level = min (s.mgmt.level + pondLimit s) (pondCap s) - m ∧ u.mgmt.updates = s.mgmt.updates + 1 ∧ u.clk = s.clk) ∧
  (∀ s : State, s.mgmt.checked < s.mgmt.updates → s.mgmt.updates % 10 = 0 → ∃ u, exec .clockCheck s = .next u ∧
    (s.mgmt.level < 0 → u.clk.fstep = if pondFmin s < s.clk.fstep then s.clk.fstep - 1 else s.clk.fstep) ∧
    (0 ≤ s.mgmt.level → (pondCap s : Int) < 8 * s.mgmt.level → u.clk.fstep = if s.clk.fstep < 68 then s.clk.fstep + 1 else s.clk.fstep) ∧
    (0 ≤ s.mgmt.level → 8 * s.mgmt.level ≤ pondCap s → u.clk.fstep = s.clk.fstep) ∧
    u.clk.cycle = s.clk.cycle ∧ u.clk.gts = s.clk.gts) ∧
  (∀ s : State, s.mgmt.updates % 10 ≠ 0 → exec .clockCheck s = .next s) ∧
  (∀ (s : State) (die : BitVec 2), (∃ u, exec (.currentLimit die) s = .next u ∧ (getDie u die.toNat).limited = true) ∧
    ((getDie s die.toNat).limitEnd ≤ s.clk.gts.toNat →
      ∃ u, exec (.currentLimitEnd die) s = .next u ∧ (getDie u die.toNat).limited = false) ∧
    (s.clk.gts.toNat < (getDie s die.toNat).limitEnd → exec (.currentLimitEnd die) s = .next s)) ∧
  (∀ (s : State) (unit : BitVec 8) (die : BitVec 2) (idx : BitVec 16),
    (∃ u, exec (.correctedError unit die idx) s = .next u ∧ u.mgmt.tests.any (testOf unit die idx) = true ∧
      u.mgmt.corrected = if s.mgmt.corrected = 0xFFFFFFFF then s.mgmt.corrected else s.mgmt.corrected + 1) ∧
    (∀ t, s.mgmt.tests.find? (testOf unit die idx) = some t →
      (∀ lasting, t.hw = true → t.posted = none → exec (.selftestVerdict unit die idx lasting) s = .next (settleTest s t lasting)) ∧
      (∀ lasting, t.hw = false → (∀ x ∈ s.mgmt.tests, x.posted = none) →
        exec (.selftestVerdict unit die idx lasting) s = .next (postVerdict s t (if lasting then 2 else 1))))) ∧
  (∀ (s : State) t, (s.mgmt.tests.find? fun x => x.posted.isSome) = some t → ∃ u, exec .selftestAccept s = .next u ∧
    u = settleTest { s with mgmt := { s.mgmt with mailVerdict := 0 } } t (t.posted = some 2)) ∧
  (∀ (s : State) (nonce : BitVec 128), s.mgmt.keyIndex < 2 ^ 20 → ∃ u, exec (.attestationRequest nonce) s = .next u ∧
    u.mgmt.keyIndex = s.mgmt.keyIndex + 1 ∧
    u.mgmt.sent = (reportBytes s nonce ++ Config.lmsSign s.mgmt.keyIndex (reportBytes s nonce)) :: s.mgmt.sent) ∧
  (∀ (s : State) (nonce : BitVec 128), 2 ^ 20 ≤ s.mgmt.keyIndex → exec (.attestationRequest nonce) s = .next s) ∧
  (∀ s : State, exec .coldReset s = .next (if Config.imageSigned s.mgmt.image then coldState s else enterRecovery (coldState s))) ∧
  (∀ (s : State) (image : List (BitVec 8)), s.mgmt.recovery = true → Config.imageSigned image = true → ∃ u,
    exec (.recoveryImage image) s = .next u ∧ u = coldState { s with mgmt := { s.mgmt with image := image } }) ∧
  (∀ (s : State) (v : BitVec 64), (∃ u, exec (.registerWrite 0x10 v) s = .next u ∧ u.host.irq = s.host.irq &&& ~~~ (v.truncate 6)) ∧
    (∃ u, exec (.registerWrite 0x7100 v) s = .next u ∧ u.mgmt.pwrcfg = v &&& 0xFFFFFFFFFFFFFF) ∧
    (∀ off, exec (.registerWrite off v) s = .next (writeRegister s off v)) ∧
    (∃ u, exec (.devnumWrite v) s = .next u ∧ u.host.tmaster = v.getLsbD 16 ∧
      u.host.devnum = if fabricUp s then s.host.devnum else bitsOf v.toNat 9 0))
end

