-- ==== Sys2Proof/Laws/State.lean ====
section
/-! SUPPORT. What each update of the state leaves alone: one lemma a field an update, so that no proof unfolds a record
update. -/
namespace Sys2Proof.Machine

/-! ## modCore -/

@[simp] theorem modCore_clk (s : State) (c : Nat) (f : CoreSt → CoreSt) : (modCore s c f).clk = s.clk := rfl
@[simp] theorem modCore_agenda (s : State) (c : Nat) (f : CoreSt → CoreSt) : (modCore s c f).agenda = s.agenda := rfl
@[simp] theorem modCore_cur (s : State) (c : Nat) (f : CoreSt → CoreSt) : (modCore s c f).cur = s.cur := rfl
@[simp] theorem modCore_free (s : State) (c : Nat) (f : CoreSt → CoreSt) : (modCore s c f).free = s.free := rfl
@[simp] theorem modCore_mode (s : State) (c : Nat) (f : CoreSt → CoreSt) : (modCore s c f).mode = s.mode := rfl
@[simp] theorem modCore_mem (s : State) (c : Nat) (f : CoreSt → CoreSt) : (modCore s c f).mem = s.mem := rfl
@[simp] theorem modCore_bad (s : State) (c : Nat) (f : CoreSt → CoreSt) : (modCore s c f).bad = s.bad := rfl
@[simp] theorem modCore_badMeta (s : State) (c : Nat) (f : CoreSt → CoreSt) : (modCore s c f).badMeta = s.badMeta := rfl
@[simp] theorem modCore_evals (s : State) (c : Nat) (f : CoreSt → CoreSt) : (modCore s c f).evals = s.evals := rfl
@[simp] theorem modCore_done (s : State) (c : Nat) (f : CoreSt → CoreSt) : (modCore s c f).done = s.done := rfl
@[simp] theorem modCore_dies (s : State) (c : Nat) (f : CoreSt → CoreSt) : (modCore s c f).dies = s.dies := rfl
@[simp] theorem modCore_ctxs (s : State) (c : Nat) (f : CoreSt → CoreSt) : (modCore s c f).ctxs = s.ctxs := rfl
@[simp] theorem modCore_sched (s : State) (c : Nat) (f : CoreSt → CoreSt) : (modCore s c f).sched = s.sched := rfl
@[simp] theorem modCore_flight (s : State) (c : Nat) (f : CoreSt → CoreSt) : (modCore s c f).flight = s.flight := rfl
@[simp] theorem modCore_pages (s : State) (c : Nat) (f : CoreSt → CoreSt) : (modCore s c f).pages = s.pages := rfl
@[simp] theorem modCore_links (s : State) (c : Nat) (f : CoreSt → CoreSt) : (modCore s c f).links = s.links := rfl
@[simp] theorem modCore_host (s : State) (c : Nat) (f : CoreSt → CoreSt) : (modCore s c f).host = s.host := rfl
@[simp] theorem modCore_dreset (s : State) (c : Nat) (f : CoreSt → CoreSt) : (modCore s c f).dreset = s.dreset := rfl
@[simp] theorem modCore_dbg (s : State) (c : Nat) (f : CoreSt → CoreSt) : (modCore s c f).dbg = s.dbg := rfl
@[simp] theorem modCore_mgmt (s : State) (c : Nat) (f : CoreSt → CoreSt) : (modCore s c f).mgmt = s.mgmt := rfl

/-! ## modBlk -/

@[simp] theorem modBlk_clk (s : State) (c : Nat) (f : Block → Block) : (modBlk s c f).clk = s.clk := rfl
@[simp] theorem modBlk_agenda (s : State) (c : Nat) (f : Block → Block) : (modBlk s c f).agenda = s.agenda := rfl
@[simp] theorem modBlk_cur (s : State) (c : Nat) (f : Block → Block) : (modBlk s c f).cur = s.cur := rfl
@[simp] theorem modBlk_free (s : State) (c : Nat) (f : Block → Block) : (modBlk s c f).free = s.free := rfl
@[simp] theorem modBlk_mode (s : State) (c : Nat) (f : Block → Block) : (modBlk s c f).mode = s.mode := rfl
@[simp] theorem modBlk_mem (s : State) (c : Nat) (f : Block → Block) : (modBlk s c f).mem = s.mem := rfl
@[simp] theorem modBlk_bad (s : State) (c : Nat) (f : Block → Block) : (modBlk s c f).bad = s.bad := rfl
@[simp] theorem modBlk_badMeta (s : State) (c : Nat) (f : Block → Block) : (modBlk s c f).badMeta = s.badMeta := rfl
@[simp] theorem modBlk_evals (s : State) (c : Nat) (f : Block → Block) : (modBlk s c f).evals = s.evals := rfl
@[simp] theorem modBlk_done (s : State) (c : Nat) (f : Block → Block) : (modBlk s c f).done = s.done := rfl
@[simp] theorem modBlk_dies (s : State) (c : Nat) (f : Block → Block) : (modBlk s c f).dies = s.dies := rfl
@[simp] theorem modBlk_ctxs (s : State) (c : Nat) (f : Block → Block) : (modBlk s c f).ctxs = s.ctxs := rfl
@[simp] theorem modBlk_sched (s : State) (c : Nat) (f : Block → Block) : (modBlk s c f).sched = s.sched := rfl
@[simp] theorem modBlk_flight (s : State) (c : Nat) (f : Block → Block) : (modBlk s c f).flight = s.flight := rfl
@[simp] theorem modBlk_pages (s : State) (c : Nat) (f : Block → Block) : (modBlk s c f).pages = s.pages := rfl
@[simp] theorem modBlk_links (s : State) (c : Nat) (f : Block → Block) : (modBlk s c f).links = s.links := rfl
@[simp] theorem modBlk_host (s : State) (c : Nat) (f : Block → Block) : (modBlk s c f).host = s.host := rfl
@[simp] theorem modBlk_dreset (s : State) (c : Nat) (f : Block → Block) : (modBlk s c f).dreset = s.dreset := rfl
@[simp] theorem modBlk_dbg (s : State) (c : Nat) (f : Block → Block) : (modBlk s c f).dbg = s.dbg := rfl
@[simp] theorem modBlk_mgmt (s : State) (c : Nat) (f : Block → Block) : (modBlk s c f).mgmt = s.mgmt := rfl

/-! ## modFe -/

@[simp] theorem modFe_clk (s : State) (c : Nat) (f : FrontEnd → FrontEnd) : (modFe s c f).clk = s.clk := rfl
@[simp] theorem modFe_agenda (s : State) (c : Nat) (f : FrontEnd → FrontEnd) : (modFe s c f).agenda = s.agenda := rfl
@[simp] theorem modFe_cur (s : State) (c : Nat) (f : FrontEnd → FrontEnd) : (modFe s c f).cur = s.cur := rfl
@[simp] theorem modFe_free (s : State) (c : Nat) (f : FrontEnd → FrontEnd) : (modFe s c f).free = s.free := rfl
@[simp] theorem modFe_mode (s : State) (c : Nat) (f : FrontEnd → FrontEnd) : (modFe s c f).mode = s.mode := rfl
@[simp] theorem modFe_mem (s : State) (c : Nat) (f : FrontEnd → FrontEnd) : (modFe s c f).mem = s.mem := rfl
@[simp] theorem modFe_bad (s : State) (c : Nat) (f : FrontEnd → FrontEnd) : (modFe s c f).bad = s.bad := rfl
@[simp] theorem modFe_badMeta (s : State) (c : Nat) (f : FrontEnd → FrontEnd) : (modFe s c f).badMeta = s.badMeta := rfl
@[simp] theorem modFe_evals (s : State) (c : Nat) (f : FrontEnd → FrontEnd) : (modFe s c f).evals = s.evals := rfl
@[simp] theorem modFe_done (s : State) (c : Nat) (f : FrontEnd → FrontEnd) : (modFe s c f).done = s.done := rfl
@[simp] theorem modFe_dies (s : State) (c : Nat) (f : FrontEnd → FrontEnd) : (modFe s c f).dies = s.dies := rfl
@[simp] theorem modFe_ctxs (s : State) (c : Nat) (f : FrontEnd → FrontEnd) : (modFe s c f).ctxs = s.ctxs := rfl
@[simp] theorem modFe_sched (s : State) (c : Nat) (f : FrontEnd → FrontEnd) : (modFe s c f).sched = s.sched := rfl
@[simp] theorem modFe_flight (s : State) (c : Nat) (f : FrontEnd → FrontEnd) : (modFe s c f).flight = s.flight := rfl
@[simp] theorem modFe_pages (s : State) (c : Nat) (f : FrontEnd → FrontEnd) : (modFe s c f).pages = s.pages := rfl
@[simp] theorem modFe_links (s : State) (c : Nat) (f : FrontEnd → FrontEnd) : (modFe s c f).links = s.links := rfl
@[simp] theorem modFe_host (s : State) (c : Nat) (f : FrontEnd → FrontEnd) : (modFe s c f).host = s.host := rfl
@[simp] theorem modFe_dreset (s : State) (c : Nat) (f : FrontEnd → FrontEnd) : (modFe s c f).dreset = s.dreset := rfl
@[simp] theorem modFe_dbg (s : State) (c : Nat) (f : FrontEnd → FrontEnd) : (modFe s c f).dbg = s.dbg := rfl
@[simp] theorem modFe_mgmt (s : State) (c : Nat) (f : FrontEnd → FrontEnd) : (modFe s c f).mgmt = s.mgmt := rfl

/-! ## modGrp -/

@[simp] theorem modGrp_clk (s : State) (c g : Nat) (f : Group → Group) : (modGrp s c g f).clk = s.clk := rfl
@[simp] theorem modGrp_agenda (s : State) (c g : Nat) (f : Group → Group) : (modGrp s c g f).agenda = s.agenda := rfl
@[simp] theorem modGrp_cur (s : State) (c g : Nat) (f : Group → Group) : (modGrp s c g f).cur = s.cur := rfl
@[simp] theorem modGrp_free (s : State) (c g : Nat) (f : Group → Group) : (modGrp s c g f).free = s.free := rfl
@[simp] theorem modGrp_mode (s : State) (c g : Nat) (f : Group → Group) : (modGrp s c g f).mode = s.mode := rfl
@[simp] theorem modGrp_mem (s : State) (c g : Nat) (f : Group → Group) : (modGrp s c g f).mem = s.mem := rfl
@[simp] theorem modGrp_bad (s : State) (c g : Nat) (f : Group → Group) : (modGrp s c g f).bad = s.bad := rfl
@[simp] theorem modGrp_badMeta (s : State) (c g : Nat) (f : Group → Group) : (modGrp s c g f).badMeta = s.badMeta := rfl
@[simp] theorem modGrp_evals (s : State) (c g : Nat) (f : Group → Group) : (modGrp s c g f).evals = s.evals := rfl
@[simp] theorem modGrp_done (s : State) (c g : Nat) (f : Group → Group) : (modGrp s c g f).done = s.done := rfl
@[simp] theorem modGrp_dies (s : State) (c g : Nat) (f : Group → Group) : (modGrp s c g f).dies = s.dies := rfl
@[simp] theorem modGrp_ctxs (s : State) (c g : Nat) (f : Group → Group) : (modGrp s c g f).ctxs = s.ctxs := rfl
@[simp] theorem modGrp_sched (s : State) (c g : Nat) (f : Group → Group) : (modGrp s c g f).sched = s.sched := rfl
@[simp] theorem modGrp_flight (s : State) (c g : Nat) (f : Group → Group) : (modGrp s c g f).flight = s.flight := rfl
@[simp] theorem modGrp_pages (s : State) (c g : Nat) (f : Group → Group) : (modGrp s c g f).pages = s.pages := rfl
@[simp] theorem modGrp_links (s : State) (c g : Nat) (f : Group → Group) : (modGrp s c g f).links = s.links := rfl
@[simp] theorem modGrp_host (s : State) (c g : Nat) (f : Group → Group) : (modGrp s c g f).host = s.host := rfl
@[simp] theorem modGrp_dreset (s : State) (c g : Nat) (f : Group → Group) : (modGrp s c g f).dreset = s.dreset := rfl
@[simp] theorem modGrp_dbg (s : State) (c g : Nat) (f : Group → Group) : (modGrp s c g f).dbg = s.dbg := rfl
@[simp] theorem modGrp_mgmt (s : State) (c g : Nat) (f : Group → Group) : (modGrp s c g f).mgmt = s.mgmt := rfl

/-! ## modSpl -/

@[simp] theorem modSpl_clk (s : State) (c g k : Nat) (f : Split → Split) : (modSpl s c g k f).clk = s.clk := rfl
@[simp] theorem modSpl_agenda (s : State) (c g k : Nat) (f : Split → Split) : (modSpl s c g k f).agenda = s.agenda := rfl
@[simp] theorem modSpl_cur (s : State) (c g k : Nat) (f : Split → Split) : (modSpl s c g k f).cur = s.cur := rfl
@[simp] theorem modSpl_free (s : State) (c g k : Nat) (f : Split → Split) : (modSpl s c g k f).free = s.free := rfl
@[simp] theorem modSpl_mode (s : State) (c g k : Nat) (f : Split → Split) : (modSpl s c g k f).mode = s.mode := rfl
@[simp] theorem modSpl_mem (s : State) (c g k : Nat) (f : Split → Split) : (modSpl s c g k f).mem = s.mem := rfl
@[simp] theorem modSpl_bad (s : State) (c g k : Nat) (f : Split → Split) : (modSpl s c g k f).bad = s.bad := rfl
@[simp] theorem modSpl_badMeta (s : State) (c g k : Nat) (f : Split → Split) : (modSpl s c g k f).badMeta = s.badMeta := rfl
@[simp] theorem modSpl_evals (s : State) (c g k : Nat) (f : Split → Split) : (modSpl s c g k f).evals = s.evals := rfl
@[simp] theorem modSpl_done (s : State) (c g k : Nat) (f : Split → Split) : (modSpl s c g k f).done = s.done := rfl
@[simp] theorem modSpl_dies (s : State) (c g k : Nat) (f : Split → Split) : (modSpl s c g k f).dies = s.dies := rfl
@[simp] theorem modSpl_ctxs (s : State) (c g k : Nat) (f : Split → Split) : (modSpl s c g k f).ctxs = s.ctxs := rfl
@[simp] theorem modSpl_sched (s : State) (c g k : Nat) (f : Split → Split) : (modSpl s c g k f).sched = s.sched := rfl
@[simp] theorem modSpl_flight (s : State) (c g k : Nat) (f : Split → Split) : (modSpl s c g k f).flight = s.flight := rfl
@[simp] theorem modSpl_pages (s : State) (c g k : Nat) (f : Split → Split) : (modSpl s c g k f).pages = s.pages := rfl
@[simp] theorem modSpl_links (s : State) (c g k : Nat) (f : Split → Split) : (modSpl s c g k f).links = s.links := rfl
@[simp] theorem modSpl_host (s : State) (c g k : Nat) (f : Split → Split) : (modSpl s c g k f).host = s.host := rfl
@[simp] theorem modSpl_dreset (s : State) (c g k : Nat) (f : Split → Split) : (modSpl s c g k f).dreset = s.dreset := rfl
@[simp] theorem modSpl_dbg (s : State) (c g k : Nat) (f : Split → Split) : (modSpl s c g k f).dbg = s.dbg := rfl
@[simp] theorem modSpl_mgmt (s : State) (c g k : Nat) (f : Split → Split) : (modSpl s c g k f).mgmt = s.mgmt := rfl

/-! ## modDie -/

@[simp] theorem modDie_clk (s : State) (d : Nat) (f : Die → Die) : (modDie s d f).clk = s.clk := rfl
@[simp] theorem modDie_agenda (s : State) (d : Nat) (f : Die → Die) : (modDie s d f).agenda = s.agenda := rfl
@[simp] theorem modDie_cur (s : State) (d : Nat) (f : Die → Die) : (modDie s d f).cur = s.cur := rfl
@[simp] theorem modDie_free (s : State) (d : Nat) (f : Die → Die) : (modDie s d f).free = s.free := rfl
@[simp] theorem modDie_mode (s : State) (d : Nat) (f : Die → Die) : (modDie s d f).mode = s.mode := rfl
@[simp] theorem modDie_mem (s : State) (d : Nat) (f : Die → Die) : (modDie s d f).mem = s.mem := rfl
@[simp] theorem modDie_bad (s : State) (d : Nat) (f : Die → Die) : (modDie s d f).bad = s.bad := rfl
@[simp] theorem modDie_badMeta (s : State) (d : Nat) (f : Die → Die) : (modDie s d f).badMeta = s.badMeta := rfl
@[simp] theorem modDie_evals (s : State) (d : Nat) (f : Die → Die) : (modDie s d f).evals = s.evals := rfl
@[simp] theorem modDie_done (s : State) (d : Nat) (f : Die → Die) : (modDie s d f).done = s.done := rfl
@[simp] theorem modDie_cores (s : State) (d : Nat) (f : Die → Die) : (modDie s d f).cores = s.cores := rfl
@[simp] theorem modDie_ctxs (s : State) (d : Nat) (f : Die → Die) : (modDie s d f).ctxs = s.ctxs := rfl
@[simp] theorem modDie_sched (s : State) (d : Nat) (f : Die → Die) : (modDie s d f).sched = s.sched := rfl
@[simp] theorem modDie_flight (s : State) (d : Nat) (f : Die → Die) : (modDie s d f).flight = s.flight := rfl
@[simp] theorem modDie_pages (s : State) (d : Nat) (f : Die → Die) : (modDie s d f).pages = s.pages := rfl
@[simp] theorem modDie_links (s : State) (d : Nat) (f : Die → Die) : (modDie s d f).links = s.links := rfl
@[simp] theorem modDie_host (s : State) (d : Nat) (f : Die → Die) : (modDie s d f).host = s.host := rfl
@[simp] theorem modDie_dreset (s : State) (d : Nat) (f : Die → Die) : (modDie s d f).dreset = s.dreset := rfl
@[simp] theorem modDie_dbg (s : State) (d : Nat) (f : Die → Die) : (modDie s d f).dbg = s.dbg := rfl
@[simp] theorem modDie_mgmt (s : State) (d : Nat) (f : Die → Die) : (modDie s d f).mgmt = s.mgmt := rfl

/-! ## modCtx -/

@[simp] theorem modCtx_clk (s : State) (n : Nat) (f : Context → Context) : (modCtx s n f).clk = s.clk := rfl
@[simp] theorem modCtx_agenda (s : State) (n : Nat) (f : Context → Context) : (modCtx s n f).agenda = s.agenda := rfl
@[simp] theorem modCtx_cur (s : State) (n : Nat) (f : Context → Context) : (modCtx s n f).cur = s.cur := rfl
@[simp] theorem modCtx_free (s : State) (n : Nat) (f : Context → Context) : (modCtx s n f).free = s.free := rfl
@[simp] theorem modCtx_mode (s : State) (n : Nat) (f : Context → Context) : (modCtx s n f).mode = s.mode := rfl
@[simp] theorem modCtx_mem (s : State) (n : Nat) (f : Context → Context) : (modCtx s n f).mem = s.mem := rfl
@[simp] theorem modCtx_bad (s : State) (n : Nat) (f : Context → Context) : (modCtx s n f).bad = s.bad := rfl
@[simp] theorem modCtx_badMeta (s : State) (n : Nat) (f : Context → Context) : (modCtx s n f).badMeta = s.badMeta := rfl
@[simp] theorem modCtx_evals (s : State) (n : Nat) (f : Context → Context) : (modCtx s n f).evals = s.evals := rfl
@[simp] theorem modCtx_done (s : State) (n : Nat) (f : Context → Context) : (modCtx s n f).done = s.done := rfl
@[simp] theorem modCtx_cores (s : State) (n : Nat) (f : Context → Context) : (modCtx s n f).cores = s.cores := rfl
@[simp] theorem modCtx_dies (s : State) (n : Nat) (f : Context → Context) : (modCtx s n f).dies = s.dies := rfl
@[simp] theorem modCtx_sched (s : State) (n : Nat) (f : Context → Context) : (modCtx s n f).sched = s.sched := rfl
@[simp] theorem modCtx_flight (s : State) (n : Nat) (f : Context → Context) : (modCtx s n f).flight = s.flight := rfl
@[simp] theorem modCtx_pages (s : State) (n : Nat) (f : Context → Context) : (modCtx s n f).pages = s.pages := rfl
@[simp] theorem modCtx_links (s : State) (n : Nat) (f : Context → Context) : (modCtx s n f).links = s.links := rfl
@[simp] theorem modCtx_host (s : State) (n : Nat) (f : Context → Context) : (modCtx s n f).host = s.host := rfl
@[simp] theorem modCtx_dreset (s : State) (n : Nat) (f : Context → Context) : (modCtx s n f).dreset = s.dreset := rfl
@[simp] theorem modCtx_dbg (s : State) (n : Nat) (f : Context → Context) : (modCtx s n f).dbg = s.dbg := rfl
@[simp] theorem modCtx_mgmt (s : State) (n : Nat) (f : Context → Context) : (modCtx s n f).mgmt = s.mgmt := rfl

/-! ## modJob -/

@[simp] theorem modJob_clk (s : State) (n : Nat) (f : Job → Job) : (modJob s n f).clk = s.clk := rfl
@[simp] theorem modJob_agenda (s : State) (n : Nat) (f : Job → Job) : (modJob s n f).agenda = s.agenda := rfl
@[simp] theorem modJob_cur (s : State) (n : Nat) (f : Job → Job) : (modJob s n f).cur = s.cur := rfl
@[simp] theorem modJob_free (s : State) (n : Nat) (f : Job → Job) : (modJob s n f).free = s.free := rfl
@[simp] theorem modJob_mode (s : State) (n : Nat) (f : Job → Job) : (modJob s n f).mode = s.mode := rfl
@[simp] theorem modJob_mem (s : State) (n : Nat) (f : Job → Job) : (modJob s n f).mem = s.mem := rfl
@[simp] theorem modJob_bad (s : State) (n : Nat) (f : Job → Job) : (modJob s n f).bad = s.bad := rfl
@[simp] theorem modJob_badMeta (s : State) (n : Nat) (f : Job → Job) : (modJob s n f).badMeta = s.badMeta := rfl
@[simp] theorem modJob_evals (s : State) (n : Nat) (f : Job → Job) : (modJob s n f).evals = s.evals := rfl
@[simp] theorem modJob_done (s : State) (n : Nat) (f : Job → Job) : (modJob s n f).done = s.done := rfl
@[simp] theorem modJob_cores (s : State) (n : Nat) (f : Job → Job) : (modJob s n f).cores = s.cores := rfl
@[simp] theorem modJob_dies (s : State) (n : Nat) (f : Job → Job) : (modJob s n f).dies = s.dies := rfl
@[simp] theorem modJob_ctxs (s : State) (n : Nat) (f : Job → Job) : (modJob s n f).ctxs = s.ctxs := rfl
@[simp] theorem modJob_flight (s : State) (n : Nat) (f : Job → Job) : (modJob s n f).flight = s.flight := rfl
@[simp] theorem modJob_pages (s : State) (n : Nat) (f : Job → Job) : (modJob s n f).pages = s.pages := rfl
@[simp] theorem modJob_links (s : State) (n : Nat) (f : Job → Job) : (modJob s n f).links = s.links := rfl
@[simp] theorem modJob_host (s : State) (n : Nat) (f : Job → Job) : (modJob s n f).host = s.host := rfl
@[simp] theorem modJob_dreset (s : State) (n : Nat) (f : Job → Job) : (modJob s n f).dreset = s.dreset := rfl
@[simp] theorem modJob_dbg (s : State) (n : Nat) (f : Job → Job) : (modJob s n f).dbg = s.dbg := rfl
@[simp] theorem modJob_mgmt (s : State) (n : Nat) (f : Job → Job) : (modJob s n f).mgmt = s.mgmt := rfl

/-! ## modCl -/

@[simp] theorem modCl_clk (s : State) (n : Nat) (f : Cluster → Cluster) : (modCl s n f).clk = s.clk := rfl
@[simp] theorem modCl_agenda (s : State) (n : Nat) (f : Cluster → Cluster) : (modCl s n f).agenda = s.agenda := rfl
@[simp] theorem modCl_cur (s : State) (n : Nat) (f : Cluster → Cluster) : (modCl s n f).cur = s.cur := rfl
@[simp] theorem modCl_free (s : State) (n : Nat) (f : Cluster → Cluster) : (modCl s n f).free = s.free := rfl
@[simp] theorem modCl_mode (s : State) (n : Nat) (f : Cluster → Cluster) : (modCl s n f).mode = s.mode := rfl
@[simp] theorem modCl_mem (s : State) (n : Nat) (f : Cluster → Cluster) : (modCl s n f).mem = s.mem := rfl
@[simp] theorem modCl_bad (s : State) (n : Nat) (f : Cluster → Cluster) : (modCl s n f).bad = s.bad := rfl
@[simp] theorem modCl_badMeta (s : State) (n : Nat) (f : Cluster → Cluster) : (modCl s n f).badMeta = s.badMeta := rfl
@[simp] theorem modCl_evals (s : State) (n : Nat) (f : Cluster → Cluster) : (modCl s n f).evals = s.evals := rfl
@[simp] theorem modCl_done (s : State) (n : Nat) (f : Cluster → Cluster) : (modCl s n f).done = s.done := rfl
@[simp] theorem modCl_cores (s : State) (n : Nat) (f : Cluster → Cluster) : (modCl s n f).cores = s.cores := rfl
@[simp] theorem modCl_dies (s : State) (n : Nat) (f : Cluster → Cluster) : (modCl s n f).dies = s.dies := rfl
@[simp] theorem modCl_ctxs (s : State) (n : Nat) (f : Cluster → Cluster) : (modCl s n f).ctxs = s.ctxs := rfl
@[simp] theorem modCl_flight (s : State) (n : Nat) (f : Cluster → Cluster) : (modCl s n f).flight = s.flight := rfl
@[simp] theorem modCl_pages (s : State) (n : Nat) (f : Cluster → Cluster) : (modCl s n f).pages = s.pages := rfl
@[simp] theorem modCl_links (s : State) (n : Nat) (f : Cluster → Cluster) : (modCl s n f).links = s.links := rfl
@[simp] theorem modCl_host (s : State) (n : Nat) (f : Cluster → Cluster) : (modCl s n f).host = s.host := rfl
@[simp] theorem modCl_dreset (s : State) (n : Nat) (f : Cluster → Cluster) : (modCl s n f).dreset = s.dreset := rfl
@[simp] theorem modCl_dbg (s : State) (n : Nat) (f : Cluster → Cluster) : (modCl s n f).dbg = s.dbg := rfl
@[simp] theorem modCl_mgmt (s : State) (n : Nat) (f : Cluster → Cluster) : (modCl s n f).mgmt = s.mgmt := rfl

/-! ## modQueue -/

@[simp] theorem modQueue_clk (s : State) (q : Nat) (f : HwQueue → HwQueue) : (modQueue s q f).clk = s.clk := rfl
@[simp] theorem modQueue_agenda (s : State) (q : Nat) (f : HwQueue → HwQueue) : (modQueue s q f).agenda = s.agenda := rfl
@[simp] theorem modQueue_cur (s : State) (q : Nat) (f : HwQueue → HwQueue) : (modQueue s q f).cur = s.cur := rfl
@[simp] theorem modQueue_free (s : State) (q : Nat) (f : HwQueue → HwQueue) : (modQueue s q f).free = s.free := rfl
@[simp] theorem modQueue_mode (s : State) (q : Nat) (f : HwQueue → HwQueue) : (modQueue s q f).mode = s.mode := rfl
@[simp] theorem modQueue_mem (s : State) (q : Nat) (f : HwQueue → HwQueue) : (modQueue s q f).mem = s.mem := rfl
@[simp] theorem modQueue_bad (s : State) (q : Nat) (f : HwQueue → HwQueue) : (modQueue s q f).bad = s.bad := rfl
@[simp] theorem modQueue_badMeta (s : State) (q : Nat) (f : HwQueue → HwQueue) : (modQueue s q f).badMeta = s.badMeta := rfl
@[simp] theorem modQueue_evals (s : State) (q : Nat) (f : HwQueue → HwQueue) : (modQueue s q f).evals = s.evals := rfl
@[simp] theorem modQueue_done (s : State) (q : Nat) (f : HwQueue → HwQueue) : (modQueue s q f).done = s.done := rfl
@[simp] theorem modQueue_cores (s : State) (q : Nat) (f : HwQueue → HwQueue) : (modQueue s q f).cores = s.cores := rfl
@[simp] theorem modQueue_dies (s : State) (q : Nat) (f : HwQueue → HwQueue) : (modQueue s q f).dies = s.dies := rfl
@[simp] theorem modQueue_ctxs (s : State) (q : Nat) (f : HwQueue → HwQueue) : (modQueue s q f).ctxs = s.ctxs := rfl
@[simp] theorem modQueue_flight (s : State) (q : Nat) (f : HwQueue → HwQueue) : (modQueue s q f).flight = s.flight := rfl
@[simp] theorem modQueue_pages (s : State) (q : Nat) (f : HwQueue → HwQueue) : (modQueue s q f).pages = s.pages := rfl
@[simp] theorem modQueue_links (s : State) (q : Nat) (f : HwQueue → HwQueue) : (modQueue s q f).links = s.links := rfl
@[simp] theorem modQueue_host (s : State) (q : Nat) (f : HwQueue → HwQueue) : (modQueue s q f).host = s.host := rfl
@[simp] theorem modQueue_dreset (s : State) (q : Nat) (f : HwQueue → HwQueue) : (modQueue s q f).dreset = s.dreset := rfl
@[simp] theorem modQueue_dbg (s : State) (q : Nat) (f : HwQueue → HwQueue) : (modQueue s q f).dbg = s.dbg := rfl
@[simp] theorem modQueue_mgmt (s : State) (q : Nat) (f : HwQueue → HwQueue) : (modQueue s q f).mgmt = s.mgmt := rfl

/-! ## modLink -/

@[simp] theorem modLink_clk (s : State) (l : Nat) (f : LinkSt → LinkSt) : (modLink s l f).clk = s.clk := rfl
@[simp] theorem modLink_agenda (s : State) (l : Nat) (f : LinkSt → LinkSt) : (modLink s l f).agenda = s.agenda := rfl
@[simp] theorem modLink_cur (s : State) (l : Nat) (f : LinkSt → LinkSt) : (modLink s l f).cur = s.cur := rfl
@[simp] theorem modLink_free (s : State) (l : Nat) (f : LinkSt → LinkSt) : (modLink s l f).free = s.free := rfl
@[simp] theorem modLink_mode (s : State) (l : Nat) (f : LinkSt → LinkSt) : (modLink s l f).mode = s.mode := rfl
@[simp] theorem modLink_mem (s : State) (l : Nat) (f : LinkSt → LinkSt) : (modLink s l f).mem = s.mem := rfl
@[simp] theorem modLink_bad (s : State) (l : Nat) (f : LinkSt → LinkSt) : (modLink s l f).bad = s.bad := rfl
@[simp] theorem modLink_badMeta (s : State) (l : Nat) (f : LinkSt → LinkSt) : (modLink s l f).badMeta = s.badMeta := rfl
@[simp] theorem modLink_evals (s : State) (l : Nat) (f : LinkSt → LinkSt) : (modLink s l f).evals = s.evals := rfl
@[simp] theorem modLink_done (s : State) (l : Nat) (f : LinkSt → LinkSt) : (modLink s l f).done = s.done := rfl
@[simp] theorem modLink_cores (s : State) (l : Nat) (f : LinkSt → LinkSt) : (modLink s l f).cores = s.cores := rfl
@[simp] theorem modLink_dies (s : State) (l : Nat) (f : LinkSt → LinkSt) : (modLink s l f).dies = s.dies := rfl
@[simp] theorem modLink_ctxs (s : State) (l : Nat) (f : LinkSt → LinkSt) : (modLink s l f).ctxs = s.ctxs := rfl
@[simp] theorem modLink_sched (s : State) (l : Nat) (f : LinkSt → LinkSt) : (modLink s l f).sched = s.sched := rfl
@[simp] theorem modLink_flight (s : State) (l : Nat) (f : LinkSt → LinkSt) : (modLink s l f).flight = s.flight := rfl
@[simp] theorem modLink_pages (s : State) (l : Nat) (f : LinkSt → LinkSt) : (modLink s l f).pages = s.pages := rfl
@[simp] theorem modLink_host (s : State) (l : Nat) (f : LinkSt → LinkSt) : (modLink s l f).host = s.host := rfl
@[simp] theorem modLink_dreset (s : State) (l : Nat) (f : LinkSt → LinkSt) : (modLink s l f).dreset = s.dreset := rfl
@[simp] theorem modLink_dbg (s : State) (l : Nat) (f : LinkSt → LinkSt) : (modLink s l f).dbg = s.dbg := rfl
@[simp] theorem modLink_mgmt (s : State) (l : Nat) (f : LinkSt → LinkSt) : (modLink s l f).mgmt = s.mgmt := rfl

/-! ## modFlight -/

@[simp] theorem modFlight_clk (s : State) (f : Flight → Flight) : (modFlight s f).clk = s.clk := rfl
@[simp] theorem modFlight_agenda (s : State) (f : Flight → Flight) : (modFlight s f).agenda = s.agenda := rfl
@[simp] theorem modFlight_cur (s : State) (f : Flight → Flight) : (modFlight s f).cur = s.cur := rfl
@[simp] theorem modFlight_free (s : State) (f : Flight → Flight) : (modFlight s f).free = s.free := rfl
@[simp] theorem modFlight_mode (s : State) (f : Flight → Flight) : (modFlight s f).mode = s.mode := rfl
@[simp] theorem modFlight_mem (s : State) (f : Flight → Flight) : (modFlight s f).mem = s.mem := rfl
@[simp] theorem modFlight_bad (s : State) (f : Flight → Flight) : (modFlight s f).bad = s.bad := rfl
@[simp] theorem modFlight_badMeta (s : State) (f : Flight → Flight) : (modFlight s f).badMeta = s.badMeta := rfl
@[simp] theorem modFlight_evals (s : State) (f : Flight → Flight) : (modFlight s f).evals = s.evals := rfl
@[simp] theorem modFlight_done (s : State) (f : Flight → Flight) : (modFlight s f).done = s.done := rfl
@[simp] theorem modFlight_cores (s : State) (f : Flight → Flight) : (modFlight s f).cores = s.cores := rfl
@[simp] theorem modFlight_dies (s : State) (f : Flight → Flight) : (modFlight s f).dies = s.dies := rfl
@[simp] theorem modFlight_ctxs (s : State) (f : Flight → Flight) : (modFlight s f).ctxs = s.ctxs := rfl
@[simp] theorem modFlight_sched (s : State) (f : Flight → Flight) : (modFlight s f).sched = s.sched := rfl
@[simp] theorem modFlight_pages (s : State) (f : Flight → Flight) : (modFlight s f).pages = s.pages := rfl
@[simp] theorem modFlight_links (s : State) (f : Flight → Flight) : (modFlight s f).links = s.links := rfl
@[simp] theorem modFlight_host (s : State) (f : Flight → Flight) : (modFlight s f).host = s.host := rfl
@[simp] theorem modFlight_dreset (s : State) (f : Flight → Flight) : (modFlight s f).dreset = s.dreset := rfl
@[simp] theorem modFlight_dbg (s : State) (f : Flight → Flight) : (modFlight s f).dbg = s.dbg := rfl
@[simp] theorem modFlight_mgmt (s : State) (f : Flight → Flight) : (modFlight s f).mgmt = s.mgmt := rfl

/-! ## bumpId -/

@[simp] theorem bumpId_clk (s : State) : (bumpId s).clk = s.clk := rfl
@[simp] theorem bumpId_agenda (s : State) : (bumpId s).agenda = s.agenda := rfl
@[simp] theorem bumpId_cur (s : State) : (bumpId s).cur = s.cur := rfl
@[simp] theorem bumpId_free (s : State) : (bumpId s).free = s.free := rfl
@[simp] theorem bumpId_mode (s : State) : (bumpId s).mode = s.mode := rfl
@[simp] theorem bumpId_mem (s : State) : (bumpId s).mem = s.mem := rfl
@[simp] theorem bumpId_bad (s : State) : (bumpId s).bad = s.bad := rfl
@[simp] theorem bumpId_badMeta (s : State) : (bumpId s).badMeta = s.badMeta := rfl
@[simp] theorem bumpId_evals (s : State) : (bumpId s).evals = s.evals := rfl
@[simp] theorem bumpId_done (s : State) : (bumpId s).done = s.done := rfl
@[simp] theorem bumpId_cores (s : State) : (bumpId s).cores = s.cores := rfl
@[simp] theorem bumpId_dies (s : State) : (bumpId s).dies = s.dies := rfl
@[simp] theorem bumpId_ctxs (s : State) : (bumpId s).ctxs = s.ctxs := rfl
@[simp] theorem bumpId_sched (s : State) : (bumpId s).sched = s.sched := rfl
@[simp] theorem bumpId_pages (s : State) : (bumpId s).pages = s.pages := rfl
@[simp] theorem bumpId_links (s : State) : (bumpId s).links = s.links := rfl
@[simp] theorem bumpId_host (s : State) : (bumpId s).host = s.host := rfl
@[simp] theorem bumpId_dreset (s : State) : (bumpId s).dreset = s.dreset := rfl
@[simp] theorem bumpId_dbg (s : State) : (bumpId s).dbg = s.dbg := rfl
@[simp] theorem bumpId_mgmt (s : State) : (bumpId s).mgmt = s.mgmt := rfl

/-! ## bumpFree -/

@[simp] theorem bumpFree_clk (s : State) : (bumpFree s).clk = s.clk := rfl
@[simp] theorem bumpFree_agenda (s : State) : (bumpFree s).agenda = s.agenda := rfl
@[simp] theorem bumpFree_cur (s : State) : (bumpFree s).cur = s.cur := rfl
@[simp] theorem bumpFree_mode (s : State) : (bumpFree s).mode = s.mode := rfl
@[simp] theorem bumpFree_mem (s : State) : (bumpFree s).mem = s.mem := rfl
@[simp] theorem bumpFree_bad (s : State) : (bumpFree s).bad = s.bad := rfl
@[simp] theorem bumpFree_badMeta (s : State) : (bumpFree s).badMeta = s.badMeta := rfl
@[simp] theorem bumpFree_evals (s : State) : (bumpFree s).evals = s.evals := rfl
@[simp] theorem bumpFree_done (s : State) : (bumpFree s).done = s.done := rfl
@[simp] theorem bumpFree_cores (s : State) : (bumpFree s).cores = s.cores := rfl
@[simp] theorem bumpFree_dies (s : State) : (bumpFree s).dies = s.dies := rfl
@[simp] theorem bumpFree_ctxs (s : State) : (bumpFree s).ctxs = s.ctxs := rfl
@[simp] theorem bumpFree_sched (s : State) : (bumpFree s).sched = s.sched := rfl
@[simp] theorem bumpFree_flight (s : State) : (bumpFree s).flight = s.flight := rfl
@[simp] theorem bumpFree_pages (s : State) : (bumpFree s).pages = s.pages := rfl
@[simp] theorem bumpFree_links (s : State) : (bumpFree s).links = s.links := rfl
@[simp] theorem bumpFree_host (s : State) : (bumpFree s).host = s.host := rfl
@[simp] theorem bumpFree_dreset (s : State) : (bumpFree s).dreset = s.dreset := rfl
@[simp] theorem bumpFree_dbg (s : State) : (bumpFree s).dbg = s.dbg := rfl
@[simp] theorem bumpFree_mgmt (s : State) : (bumpFree s).mgmt = s.mgmt := rfl

/-! ## raiseMsix -/

@[simp] theorem raiseMsix_clk (s : State) (v : Nat) : (raiseMsix s v).clk = s.clk := rfl
@[simp] theorem raiseMsix_agenda (s : State) (v : Nat) : (raiseMsix s v).agenda = s.agenda := rfl
@[simp] theorem raiseMsix_cur (s : State) (v : Nat) : (raiseMsix s v).cur = s.cur := rfl
@[simp] theorem raiseMsix_free (s : State) (v : Nat) : (raiseMsix s v).free = s.free := rfl
@[simp] theorem raiseMsix_mode (s : State) (v : Nat) : (raiseMsix s v).mode = s.mode := rfl
@[simp] theorem raiseMsix_mem (s : State) (v : Nat) : (raiseMsix s v).mem = s.mem := rfl
@[simp] theorem raiseMsix_bad (s : State) (v : Nat) : (raiseMsix s v).bad = s.bad := rfl
@[simp] theorem raiseMsix_badMeta (s : State) (v : Nat) : (raiseMsix s v).badMeta = s.badMeta := rfl
@[simp] theorem raiseMsix_evals (s : State) (v : Nat) : (raiseMsix s v).evals = s.evals := rfl
@[simp] theorem raiseMsix_done (s : State) (v : Nat) : (raiseMsix s v).done = s.done := rfl
@[simp] theorem raiseMsix_cores (s : State) (v : Nat) : (raiseMsix s v).cores = s.cores := rfl
@[simp] theorem raiseMsix_dies (s : State) (v : Nat) : (raiseMsix s v).dies = s.dies := rfl
@[simp] theorem raiseMsix_ctxs (s : State) (v : Nat) : (raiseMsix s v).ctxs = s.ctxs := rfl
@[simp] theorem raiseMsix_sched (s : State) (v : Nat) : (raiseMsix s v).sched = s.sched := rfl
@[simp] theorem raiseMsix_flight (s : State) (v : Nat) : (raiseMsix s v).flight = s.flight := rfl
@[simp] theorem raiseMsix_pages (s : State) (v : Nat) : (raiseMsix s v).pages = s.pages := rfl
@[simp] theorem raiseMsix_links (s : State) (v : Nat) : (raiseMsix s v).links = s.links := rfl
@[simp] theorem raiseMsix_dreset (s : State) (v : Nat) : (raiseMsix s v).dreset = s.dreset := rfl
@[simp] theorem raiseMsix_dbg (s : State) (v : Nat) : (raiseMsix s v).dbg = s.dbg := rfl
@[simp] theorem raiseMsix_mgmt (s : State) (v : Nat) : (raiseMsix s v).mgmt = s.mgmt := rfl

/-! ## raiseIrq -/

@[simp] theorem raiseIrq_clk (s : State) (i : Nat) : (raiseIrq s i).clk = s.clk := rfl
@[simp] theorem raiseIrq_agenda (s : State) (i : Nat) : (raiseIrq s i).agenda = s.agenda := rfl
@[simp] theorem raiseIrq_cur (s : State) (i : Nat) : (raiseIrq s i).cur = s.cur := rfl
@[simp] theorem raiseIrq_free (s : State) (i : Nat) : (raiseIrq s i).free = s.free := rfl
@[simp] theorem raiseIrq_mode (s : State) (i : Nat) : (raiseIrq s i).mode = s.mode := rfl
@[simp] theorem raiseIrq_mem (s : State) (i : Nat) : (raiseIrq s i).mem = s.mem := rfl
@[simp] theorem raiseIrq_bad (s : State) (i : Nat) : (raiseIrq s i).bad = s.bad := rfl
@[simp] theorem raiseIrq_badMeta (s : State) (i : Nat) : (raiseIrq s i).badMeta = s.badMeta := rfl
@[simp] theorem raiseIrq_evals (s : State) (i : Nat) : (raiseIrq s i).evals = s.evals := rfl
@[simp] theorem raiseIrq_done (s : State) (i : Nat) : (raiseIrq s i).done = s.done := rfl
@[simp] theorem raiseIrq_cores (s : State) (i : Nat) : (raiseIrq s i).cores = s.cores := rfl
@[simp] theorem raiseIrq_dies (s : State) (i : Nat) : (raiseIrq s i).dies = s.dies := rfl
@[simp] theorem raiseIrq_ctxs (s : State) (i : Nat) : (raiseIrq s i).ctxs = s.ctxs := rfl
@[simp] theorem raiseIrq_sched (s : State) (i : Nat) : (raiseIrq s i).sched = s.sched := rfl
@[simp] theorem raiseIrq_flight (s : State) (i : Nat) : (raiseIrq s i).flight = s.flight := rfl
@[simp] theorem raiseIrq_pages (s : State) (i : Nat) : (raiseIrq s i).pages = s.pages := rfl
@[simp] theorem raiseIrq_links (s : State) (i : Nat) : (raiseIrq s i).links = s.links := rfl
@[simp] theorem raiseIrq_dreset (s : State) (i : Nat) : (raiseIrq s i).dreset = s.dreset := rfl
@[simp] theorem raiseIrq_dbg (s : State) (i : Nat) : (raiseIrq s i).dbg = s.dbg := rfl
@[simp] theorem raiseIrq_mgmt (s : State) (i : Nat) : (raiseIrq s i).mgmt = s.mgmt := rfl

/-! ## modInst -/

@[simp] theorem modInst_clk (s : State) (i : Nat) (f : PoolInst → PoolInst) : (modInst s i f).clk = s.clk := rfl
@[simp] theorem modInst_agenda (s : State) (i : Nat) (f : PoolInst → PoolInst) : (modInst s i f).agenda = s.agenda := rfl
@[simp] theorem modInst_cur (s : State) (i : Nat) (f : PoolInst → PoolInst) : (modInst s i f).cur = s.cur := rfl
@[simp] theorem modInst_free (s : State) (i : Nat) (f : PoolInst → PoolInst) : (modInst s i f).free = s.free := rfl
@[simp] theorem modInst_mode (s : State) (i : Nat) (f : PoolInst → PoolInst) : (modInst s i f).mode = s.mode := rfl
@[simp] theorem modInst_mem (s : State) (i : Nat) (f : PoolInst → PoolInst) : (modInst s i f).mem = s.mem := rfl
@[simp] theorem modInst_bad (s : State) (i : Nat) (f : PoolInst → PoolInst) : (modInst s i f).bad = s.bad := rfl
@[simp] theorem modInst_badMeta (s : State) (i : Nat) (f : PoolInst → PoolInst) : (modInst s i f).badMeta = s.badMeta := rfl
@[simp] theorem modInst_evals (s : State) (i : Nat) (f : PoolInst → PoolInst) : (modInst s i f).evals = s.evals := rfl
@[simp] theorem modInst_done (s : State) (i : Nat) (f : PoolInst → PoolInst) : (modInst s i f).done = s.done := rfl
@[simp] theorem modInst_cores (s : State) (i : Nat) (f : PoolInst → PoolInst) : (modInst s i f).cores = s.cores := rfl
@[simp] theorem modInst_dies (s : State) (i : Nat) (f : PoolInst → PoolInst) : (modInst s i f).dies = s.dies := rfl
@[simp] theorem modInst_ctxs (s : State) (i : Nat) (f : PoolInst → PoolInst) : (modInst s i f).ctxs = s.ctxs := rfl
@[simp] theorem modInst_sched (s : State) (i : Nat) (f : PoolInst → PoolInst) : (modInst s i f).sched = s.sched := rfl
@[simp] theorem modInst_pages (s : State) (i : Nat) (f : PoolInst → PoolInst) : (modInst s i f).pages = s.pages := rfl
@[simp] theorem modInst_links (s : State) (i : Nat) (f : PoolInst → PoolInst) : (modInst s i f).links = s.links := rfl
@[simp] theorem modInst_host (s : State) (i : Nat) (f : PoolInst → PoolInst) : (modInst s i f).host = s.host := rfl
@[simp] theorem modInst_dreset (s : State) (i : Nat) (f : PoolInst → PoolInst) : (modInst s i f).dreset = s.dreset := rfl
@[simp] theorem modInst_dbg (s : State) (i : Nat) (f : PoolInst → PoolInst) : (modInst s i f).dbg = s.dbg := rfl
@[simp] theorem modInst_mgmt (s : State) (i : Nat) (f : PoolInst → PoolInst) : (modInst s i f).mgmt = s.mgmt := rfl

/-! ## writeReg -/

@[simp] theorem writeReg_clk (s : State) (c : GC) (n : Nat) (ls : List Nat) (f : Nat → Word) : (writeReg s c n ls f).clk = s.clk := rfl
@[simp] theorem writeReg_agenda (s : State) (c : GC) (n : Nat) (ls : List Nat) (f : Nat → Word) : (writeReg s c n ls f).agenda = s.agenda := rfl
@[simp] theorem writeReg_cur (s : State) (c : GC) (n : Nat) (ls : List Nat) (f : Nat → Word) : (writeReg s c n ls f).cur = s.cur := rfl
@[simp] theorem writeReg_free (s : State) (c : GC) (n : Nat) (ls : List Nat) (f : Nat → Word) : (writeReg s c n ls f).free = s.free := rfl
@[simp] theorem writeReg_mode (s : State) (c : GC) (n : Nat) (ls : List Nat) (f : Nat → Word) : (writeReg s c n ls f).mode = s.mode := rfl
@[simp] theorem writeReg_mem (s : State) (c : GC) (n : Nat) (ls : List Nat) (f : Nat → Word) : (writeReg s c n ls f).mem = s.mem := rfl
@[simp] theorem writeReg_bad (s : State) (c : GC) (n : Nat) (ls : List Nat) (f : Nat → Word) : (writeReg s c n ls f).bad = s.bad := rfl
@[simp] theorem writeReg_badMeta (s : State) (c : GC) (n : Nat) (ls : List Nat) (f : Nat → Word) : (writeReg s c n ls f).badMeta = s.badMeta := rfl
@[simp] theorem writeReg_evals (s : State) (c : GC) (n : Nat) (ls : List Nat) (f : Nat → Word) : (writeReg s c n ls f).evals = s.evals := rfl
@[simp] theorem writeReg_done (s : State) (c : GC) (n : Nat) (ls : List Nat) (f : Nat → Word) : (writeReg s c n ls f).done = s.done := rfl
@[simp] theorem writeReg_dies (s : State) (c : GC) (n : Nat) (ls : List Nat) (f : Nat → Word) : (writeReg s c n ls f).dies = s.dies := rfl
@[simp] theorem writeReg_ctxs (s : State) (c : GC) (n : Nat) (ls : List Nat) (f : Nat → Word) : (writeReg s c n ls f).ctxs = s.ctxs := rfl
@[simp] theorem writeReg_sched (s : State) (c : GC) (n : Nat) (ls : List Nat) (f : Nat → Word) : (writeReg s c n ls f).sched = s.sched := rfl
@[simp] theorem writeReg_flight (s : State) (c : GC) (n : Nat) (ls : List Nat) (f : Nat → Word) : (writeReg s c n ls f).flight = s.flight := rfl
@[simp] theorem writeReg_pages (s : State) (c : GC) (n : Nat) (ls : List Nat) (f : Nat → Word) : (writeReg s c n ls f).pages = s.pages := rfl
@[simp] theorem writeReg_links (s : State) (c : GC) (n : Nat) (ls : List Nat) (f : Nat → Word) : (writeReg s c n ls f).links = s.links := rfl
@[simp] theorem writeReg_host (s : State) (c : GC) (n : Nat) (ls : List Nat) (f : Nat → Word) : (writeReg s c n ls f).host = s.host := rfl
@[simp] theorem writeReg_dreset (s : State) (c : GC) (n : Nat) (ls : List Nat) (f : Nat → Word) : (writeReg s c n ls f).dreset = s.dreset := rfl
@[simp] theorem writeReg_dbg (s : State) (c : GC) (n : Nat) (ls : List Nat) (f : Nat → Word) : (writeReg s c n ls f).dbg = s.dbg := rfl
@[simp] theorem writeReg_mgmt (s : State) (c : GC) (n : Nat) (ls : List Nat) (f : Nat → Word) : (writeReg s c n ls f).mgmt = s.mgmt := rfl

/-! ## writePred -/

@[simp] theorem writePred_clk (s : State) (c g p : Nat) (ls vs : Word) : (writePred s c g p ls vs).clk = s.clk := rfl
@[simp] theorem writePred_agenda (s : State) (c g p : Nat) (ls vs : Word) : (writePred s c g p ls vs).agenda = s.agenda := rfl
@[simp] theorem writePred_cur (s : State) (c g p : Nat) (ls vs : Word) : (writePred s c g p ls vs).cur = s.cur := rfl
@[simp] theorem writePred_free (s : State) (c g p : Nat) (ls vs : Word) : (writePred s c g p ls vs).free = s.free := rfl
@[simp] theorem writePred_mode (s : State) (c g p : Nat) (ls vs : Word) : (writePred s c g p ls vs).mode = s.mode := rfl
@[simp] theorem writePred_mem (s : State) (c g p : Nat) (ls vs : Word) : (writePred s c g p ls vs).mem = s.mem := rfl
@[simp] theorem writePred_bad (s : State) (c g p : Nat) (ls vs : Word) : (writePred s c g p ls vs).bad = s.bad := rfl
@[simp] theorem writePred_badMeta (s : State) (c g p : Nat) (ls vs : Word) : (writePred s c g p ls vs).badMeta = s.badMeta := rfl
@[simp] theorem writePred_evals (s : State) (c g p : Nat) (ls vs : Word) : (writePred s c g p ls vs).evals = s.evals := rfl
@[simp] theorem writePred_done (s : State) (c g p : Nat) (ls vs : Word) : (writePred s c g p ls vs).done = s.done := rfl
@[simp] theorem writePred_dies (s : State) (c g p : Nat) (ls vs : Word) : (writePred s c g p ls vs).dies = s.dies := rfl
@[simp] theorem writePred_ctxs (s : State) (c g p : Nat) (ls vs : Word) : (writePred s c g p ls vs).ctxs = s.ctxs := rfl
@[simp] theorem writePred_sched (s : State) (c g p : Nat) (ls vs : Word) : (writePred s c g p ls vs).sched = s.sched := rfl
@[simp] theorem writePred_flight (s : State) (c g p : Nat) (ls vs : Word) : (writePred s c g p ls vs).flight = s.flight := rfl
@[simp] theorem writePred_pages (s : State) (c g p : Nat) (ls vs : Word) : (writePred s c g p ls vs).pages = s.pages := rfl
@[simp] theorem writePred_links (s : State) (c g p : Nat) (ls vs : Word) : (writePred s c g p ls vs).links = s.links := rfl
@[simp] theorem writePred_host (s : State) (c g p : Nat) (ls vs : Word) : (writePred s c g p ls vs).host = s.host := rfl
@[simp] theorem writePred_dreset (s : State) (c g p : Nat) (ls vs : Word) : (writePred s c g p ls vs).dreset = s.dreset := rfl
@[simp] theorem writePred_dbg (s : State) (c g p : Nat) (ls vs : Word) : (writePred s c g p ls vs).dbg = s.dbg := rfl
@[simp] theorem writePred_mgmt (s : State) (c g p : Nat) (ls vs : Word) : (writePred s c g p ls vs).mgmt = s.mgmt := rfl

/-! ## raiseFlags -/

@[simp] theorem raiseFlags_clk (s : State) (c g : Nat) (f : BitVec 5) : (raiseFlags s c g f).clk = s.clk := rfl
@[simp] theorem raiseFlags_agenda (s : State) (c g : Nat) (f : BitVec 5) : (raiseFlags s c g f).agenda = s.agenda := rfl
@[simp] theorem raiseFlags_cur (s : State) (c g : Nat) (f : BitVec 5) : (raiseFlags s c g f).cur = s.cur := rfl
@[simp] theorem raiseFlags_free (s : State) (c g : Nat) (f : BitVec 5) : (raiseFlags s c g f).free = s.free := rfl
@[simp] theorem raiseFlags_mode (s : State) (c g : Nat) (f : BitVec 5) : (raiseFlags s c g f).mode = s.mode := rfl
@[simp] theorem raiseFlags_mem (s : State) (c g : Nat) (f : BitVec 5) : (raiseFlags s c g f).mem = s.mem := rfl
@[simp] theorem raiseFlags_bad (s : State) (c g : Nat) (f : BitVec 5) : (raiseFlags s c g f).bad = s.bad := rfl
@[simp] theorem raiseFlags_badMeta (s : State) (c g : Nat) (f : BitVec 5) : (raiseFlags s c g f).badMeta = s.badMeta := rfl
@[simp] theorem raiseFlags_evals (s : State) (c g : Nat) (f : BitVec 5) : (raiseFlags s c g f).evals = s.evals := rfl
@[simp] theorem raiseFlags_done (s : State) (c g : Nat) (f : BitVec 5) : (raiseFlags s c g f).done = s.done := rfl
@[simp] theorem raiseFlags_dies (s : State) (c g : Nat) (f : BitVec 5) : (raiseFlags s c g f).dies = s.dies := rfl
@[simp] theorem raiseFlags_ctxs (s : State) (c g : Nat) (f : BitVec 5) : (raiseFlags s c g f).ctxs = s.ctxs := rfl
@[simp] theorem raiseFlags_sched (s : State) (c g : Nat) (f : BitVec 5) : (raiseFlags s c g f).sched = s.sched := rfl
@[simp] theorem raiseFlags_flight (s : State) (c g : Nat) (f : BitVec 5) : (raiseFlags s c g f).flight = s.flight := rfl
@[simp] theorem raiseFlags_pages (s : State) (c g : Nat) (f : BitVec 5) : (raiseFlags s c g f).pages = s.pages := rfl
@[simp] theorem raiseFlags_links (s : State) (c g : Nat) (f : BitVec 5) : (raiseFlags s c g f).links = s.links := rfl
@[simp] theorem raiseFlags_host (s : State) (c g : Nat) (f : BitVec 5) : (raiseFlags s c g f).host = s.host := rfl
@[simp] theorem raiseFlags_dreset (s : State) (c g : Nat) (f : BitVec 5) : (raiseFlags s c g f).dreset = s.dreset := rfl
@[simp] theorem raiseFlags_dbg (s : State) (c g : Nat) (f : BitVec 5) : (raiseFlags s c g f).dbg = s.dbg := rfl
@[simp] theorem raiseFlags_mgmt (s : State) (c g : Nat) (f : BitVec 5) : (raiseFlags s c g f).mgmt = s.mgmt := rfl

/-! ## onSplit -/

@[simp] theorem onSplit_clk (s : State) (c : GC) (f : Split → Split) : (onSplit s c f).clk = s.clk := rfl
@[simp] theorem onSplit_agenda (s : State) (c : GC) (f : Split → Split) : (onSplit s c f).agenda = s.agenda := rfl
@[simp] theorem onSplit_cur (s : State) (c : GC) (f : Split → Split) : (onSplit s c f).cur = s.cur := rfl
@[simp] theorem onSplit_free (s : State) (c : GC) (f : Split → Split) : (onSplit s c f).free = s.free := rfl
@[simp] theorem onSplit_mode (s : State) (c : GC) (f : Split → Split) : (onSplit s c f).mode = s.mode := rfl
@[simp] theorem onSplit_mem (s : State) (c : GC) (f : Split → Split) : (onSplit s c f).mem = s.mem := rfl
@[simp] theorem onSplit_bad (s : State) (c : GC) (f : Split → Split) : (onSplit s c f).bad = s.bad := rfl
@[simp] theorem onSplit_badMeta (s : State) (c : GC) (f : Split → Split) : (onSplit s c f).badMeta = s.badMeta := rfl
@[simp] theorem onSplit_evals (s : State) (c : GC) (f : Split → Split) : (onSplit s c f).evals = s.evals := rfl
@[simp] theorem onSplit_done (s : State) (c : GC) (f : Split → Split) : (onSplit s c f).done = s.done := rfl
@[simp] theorem onSplit_dies (s : State) (c : GC) (f : Split → Split) : (onSplit s c f).dies = s.dies := rfl
@[simp] theorem onSplit_ctxs (s : State) (c : GC) (f : Split → Split) : (onSplit s c f).ctxs = s.ctxs := rfl
@[simp] theorem onSplit_sched (s : State) (c : GC) (f : Split → Split) : (onSplit s c f).sched = s.sched := rfl
@[simp] theorem onSplit_flight (s : State) (c : GC) (f : Split → Split) : (onSplit s c f).flight = s.flight := rfl
@[simp] theorem onSplit_pages (s : State) (c : GC) (f : Split → Split) : (onSplit s c f).pages = s.pages := rfl
@[simp] theorem onSplit_links (s : State) (c : GC) (f : Split → Split) : (onSplit s c f).links = s.links := rfl
@[simp] theorem onSplit_host (s : State) (c : GC) (f : Split → Split) : (onSplit s c f).host = s.host := rfl
@[simp] theorem onSplit_dreset (s : State) (c : GC) (f : Split → Split) : (onSplit s c f).dreset = s.dreset := rfl
@[simp] theorem onSplit_dbg (s : State) (c : GC) (f : Split → Split) : (onSplit s c f).dbg = s.dbg := rfl
@[simp] theorem onSplit_mgmt (s : State) (c : GC) (f : Split → Split) : (onSplit s c f).mgmt = s.mgmt := rfl

/-! ## retireGrp -/

@[simp] theorem retireGrp_clk (s : State) (c : GC) : (retireGrp s c).clk = s.clk := rfl
@[simp] theorem retireGrp_agenda (s : State) (c : GC) : (retireGrp s c).agenda = s.agenda := rfl
@[simp] theorem retireGrp_cur (s : State) (c : GC) : (retireGrp s c).cur = s.cur := rfl
@[simp] theorem retireGrp_free (s : State) (c : GC) : (retireGrp s c).free = s.free := rfl
@[simp] theorem retireGrp_mode (s : State) (c : GC) : (retireGrp s c).mode = s.mode := rfl
@[simp] theorem retireGrp_mem (s : State) (c : GC) : (retireGrp s c).mem = s.mem := rfl
@[simp] theorem retireGrp_bad (s : State) (c : GC) : (retireGrp s c).bad = s.bad := rfl
@[simp] theorem retireGrp_badMeta (s : State) (c : GC) : (retireGrp s c).badMeta = s.badMeta := rfl
@[simp] theorem retireGrp_evals (s : State) (c : GC) : (retireGrp s c).evals = s.evals := rfl
@[simp] theorem retireGrp_done (s : State) (c : GC) : (retireGrp s c).done = s.done := rfl
@[simp] theorem retireGrp_dies (s : State) (c : GC) : (retireGrp s c).dies = s.dies := rfl
@[simp] theorem retireGrp_ctxs (s : State) (c : GC) : (retireGrp s c).ctxs = s.ctxs := rfl
@[simp] theorem retireGrp_sched (s : State) (c : GC) : (retireGrp s c).sched = s.sched := rfl
@[simp] theorem retireGrp_flight (s : State) (c : GC) : (retireGrp s c).flight = s.flight := rfl
@[simp] theorem retireGrp_pages (s : State) (c : GC) : (retireGrp s c).pages = s.pages := rfl
@[simp] theorem retireGrp_links (s : State) (c : GC) : (retireGrp s c).links = s.links := rfl
@[simp] theorem retireGrp_host (s : State) (c : GC) : (retireGrp s c).host = s.host := rfl
@[simp] theorem retireGrp_dreset (s : State) (c : GC) : (retireGrp s c).dreset = s.dreset := rfl
@[simp] theorem retireGrp_dbg (s : State) (c : GC) : (retireGrp s c).dbg = s.dbg := rfl
@[simp] theorem retireGrp_mgmt (s : State) (c : GC) : (retireGrp s c).mgmt = s.mgmt := rfl

/-! ## jumpGrp -/

@[simp] theorem jumpGrp_clk (s : State) (c : GC) : (jumpGrp s c).clk = s.clk := rfl
@[simp] theorem jumpGrp_agenda (s : State) (c : GC) : (jumpGrp s c).agenda = s.agenda := rfl
@[simp] theorem jumpGrp_cur (s : State) (c : GC) : (jumpGrp s c).cur = s.cur := rfl
@[simp] theorem jumpGrp_free (s : State) (c : GC) : (jumpGrp s c).free = s.free := rfl
@[simp] theorem jumpGrp_mode (s : State) (c : GC) : (jumpGrp s c).mode = s.mode := rfl
@[simp] theorem jumpGrp_mem (s : State) (c : GC) : (jumpGrp s c).mem = s.mem := rfl
@[simp] theorem jumpGrp_bad (s : State) (c : GC) : (jumpGrp s c).bad = s.bad := rfl
@[simp] theorem jumpGrp_badMeta (s : State) (c : GC) : (jumpGrp s c).badMeta = s.badMeta := rfl
@[simp] theorem jumpGrp_evals (s : State) (c : GC) : (jumpGrp s c).evals = s.evals := rfl
@[simp] theorem jumpGrp_done (s : State) (c : GC) : (jumpGrp s c).done = s.done := rfl
@[simp] theorem jumpGrp_dies (s : State) (c : GC) : (jumpGrp s c).dies = s.dies := rfl
@[simp] theorem jumpGrp_ctxs (s : State) (c : GC) : (jumpGrp s c).ctxs = s.ctxs := rfl
@[simp] theorem jumpGrp_sched (s : State) (c : GC) : (jumpGrp s c).sched = s.sched := rfl
@[simp] theorem jumpGrp_flight (s : State) (c : GC) : (jumpGrp s c).flight = s.flight := rfl
@[simp] theorem jumpGrp_pages (s : State) (c : GC) : (jumpGrp s c).pages = s.pages := rfl
@[simp] theorem jumpGrp_links (s : State) (c : GC) : (jumpGrp s c).links = s.links := rfl
@[simp] theorem jumpGrp_host (s : State) (c : GC) : (jumpGrp s c).host = s.host := rfl
@[simp] theorem jumpGrp_dreset (s : State) (c : GC) : (jumpGrp s c).dreset = s.dreset := rfl
@[simp] theorem jumpGrp_dbg (s : State) (c : GC) : (jumpGrp s c).dbg = s.dbg := rfl
@[simp] theorem jumpGrp_mgmt (s : State) (c : GC) : (jumpGrp s c).mgmt = s.mgmt := rfl

/-! ## waitGrp -/

@[simp] theorem waitGrp_clk (s : State) (c : GC) : (waitGrp s c).clk = s.clk := rfl
@[simp] theorem waitGrp_agenda (s : State) (c : GC) : (waitGrp s c).agenda = s.agenda := rfl
@[simp] theorem waitGrp_cur (s : State) (c : GC) : (waitGrp s c).cur = s.cur := rfl
@[simp] theorem waitGrp_free (s : State) (c : GC) : (waitGrp s c).free = s.free := rfl
@[simp] theorem waitGrp_mode (s : State) (c : GC) : (waitGrp s c).mode = s.mode := rfl
@[simp] theorem waitGrp_mem (s : State) (c : GC) : (waitGrp s c).mem = s.mem := rfl
@[simp] theorem waitGrp_bad (s : State) (c : GC) : (waitGrp s c).bad = s.bad := rfl
@[simp] theorem waitGrp_badMeta (s : State) (c : GC) : (waitGrp s c).badMeta = s.badMeta := rfl
@[simp] theorem waitGrp_evals (s : State) (c : GC) : (waitGrp s c).evals = s.evals := rfl
@[simp] theorem waitGrp_done (s : State) (c : GC) : (waitGrp s c).done = s.done := rfl
@[simp] theorem waitGrp_dies (s : State) (c : GC) : (waitGrp s c).dies = s.dies := rfl
@[simp] theorem waitGrp_ctxs (s : State) (c : GC) : (waitGrp s c).ctxs = s.ctxs := rfl
@[simp] theorem waitGrp_sched (s : State) (c : GC) : (waitGrp s c).sched = s.sched := rfl
@[simp] theorem waitGrp_flight (s : State) (c : GC) : (waitGrp s c).flight = s.flight := rfl
@[simp] theorem waitGrp_pages (s : State) (c : GC) : (waitGrp s c).pages = s.pages := rfl
@[simp] theorem waitGrp_links (s : State) (c : GC) : (waitGrp s c).links = s.links := rfl
@[simp] theorem waitGrp_host (s : State) (c : GC) : (waitGrp s c).host = s.host := rfl
@[simp] theorem waitGrp_dreset (s : State) (c : GC) : (waitGrp s c).dreset = s.dreset := rfl
@[simp] theorem waitGrp_dbg (s : State) (c : GC) : (waitGrp s c).dbg = s.dbg := rfl
@[simp] theorem waitGrp_mgmt (s : State) (c : GC) : (waitGrp s c).mgmt = s.mgmt := rfl

/-! ## retireFe -/

@[simp] theorem retireFe_clk (s : State) (c : FC) : (retireFe s c).clk = s.clk := rfl
@[simp] theorem retireFe_agenda (s : State) (c : FC) : (retireFe s c).agenda = s.agenda := rfl
@[simp] theorem retireFe_cur (s : State) (c : FC) : (retireFe s c).cur = s.cur := rfl
@[simp] theorem retireFe_free (s : State) (c : FC) : (retireFe s c).free = s.free := rfl
@[simp] theorem retireFe_mode (s : State) (c : FC) : (retireFe s c).mode = s.mode := rfl
@[simp] theorem retireFe_mem (s : State) (c : FC) : (retireFe s c).mem = s.mem := rfl
@[simp] theorem retireFe_bad (s : State) (c : FC) : (retireFe s c).bad = s.bad := rfl
@[simp] theorem retireFe_badMeta (s : State) (c : FC) : (retireFe s c).badMeta = s.badMeta := rfl
@[simp] theorem retireFe_evals (s : State) (c : FC) : (retireFe s c).evals = s.evals := rfl
@[simp] theorem retireFe_done (s : State) (c : FC) : (retireFe s c).done = s.done := rfl
@[simp] theorem retireFe_dies (s : State) (c : FC) : (retireFe s c).dies = s.dies := rfl
@[simp] theorem retireFe_ctxs (s : State) (c : FC) : (retireFe s c).ctxs = s.ctxs := rfl
@[simp] theorem retireFe_sched (s : State) (c : FC) : (retireFe s c).sched = s.sched := rfl
@[simp] theorem retireFe_flight (s : State) (c : FC) : (retireFe s c).flight = s.flight := rfl
@[simp] theorem retireFe_pages (s : State) (c : FC) : (retireFe s c).pages = s.pages := rfl
@[simp] theorem retireFe_links (s : State) (c : FC) : (retireFe s c).links = s.links := rfl
@[simp] theorem retireFe_host (s : State) (c : FC) : (retireFe s c).host = s.host := rfl
@[simp] theorem retireFe_dreset (s : State) (c : FC) : (retireFe s c).dreset = s.dreset := rfl
@[simp] theorem retireFe_dbg (s : State) (c : FC) : (retireFe s c).dbg = s.dbg := rfl
@[simp] theorem retireFe_mgmt (s : State) (c : FC) : (retireFe s c).mgmt = s.mgmt := rfl

/-! ## jumpFe -/

@[simp] theorem jumpFe_clk (s : State) (c : FC) : (jumpFe s c).clk = s.clk := rfl
@[simp] theorem jumpFe_agenda (s : State) (c : FC) : (jumpFe s c).agenda = s.agenda := rfl
@[simp] theorem jumpFe_cur (s : State) (c : FC) : (jumpFe s c).cur = s.cur := rfl
@[simp] theorem jumpFe_free (s : State) (c : FC) : (jumpFe s c).free = s.free := rfl
@[simp] theorem jumpFe_mode (s : State) (c : FC) : (jumpFe s c).mode = s.mode := rfl
@[simp] theorem jumpFe_mem (s : State) (c : FC) : (jumpFe s c).mem = s.mem := rfl
@[simp] theorem jumpFe_bad (s : State) (c : FC) : (jumpFe s c).bad = s.bad := rfl
@[simp] theorem jumpFe_badMeta (s : State) (c : FC) : (jumpFe s c).badMeta = s.badMeta := rfl
@[simp] theorem jumpFe_evals (s : State) (c : FC) : (jumpFe s c).evals = s.evals := rfl
@[simp] theorem jumpFe_done (s : State) (c : FC) : (jumpFe s c).done = s.done := rfl
@[simp] theorem jumpFe_dies (s : State) (c : FC) : (jumpFe s c).dies = s.dies := rfl
@[simp] theorem jumpFe_ctxs (s : State) (c : FC) : (jumpFe s c).ctxs = s.ctxs := rfl
@[simp] theorem jumpFe_sched (s : State) (c : FC) : (jumpFe s c).sched = s.sched := rfl
@[simp] theorem jumpFe_flight (s : State) (c : FC) : (jumpFe s c).flight = s.flight := rfl
@[simp] theorem jumpFe_pages (s : State) (c : FC) : (jumpFe s c).pages = s.pages := rfl
@[simp] theorem jumpFe_links (s : State) (c : FC) : (jumpFe s c).links = s.links := rfl
@[simp] theorem jumpFe_host (s : State) (c : FC) : (jumpFe s c).host = s.host := rfl
@[simp] theorem jumpFe_dreset (s : State) (c : FC) : (jumpFe s c).dreset = s.dreset := rfl
@[simp] theorem jumpFe_dbg (s : State) (c : FC) : (jumpFe s c).dbg = s.dbg := rfl
@[simp] theorem jumpFe_mgmt (s : State) (c : FC) : (jumpFe s c).mgmt = s.mgmt := rfl

/-! ## waitFe -/

@[simp] theorem waitFe_clk (s : State) (c : FC) : (waitFe s c).clk = s.clk := rfl
@[simp] theorem waitFe_agenda (s : State) (c : FC) : (waitFe s c).agenda = s.agenda := rfl
@[simp] theorem waitFe_cur (s : State) (c : FC) : (waitFe s c).cur = s.cur := rfl
@[simp] theorem waitFe_free (s : State) (c : FC) : (waitFe s c).free = s.free := rfl
@[simp] theorem waitFe_mode (s : State) (c : FC) : (waitFe s c).mode = s.mode := rfl
@[simp] theorem waitFe_mem (s : State) (c : FC) : (waitFe s c).mem = s.mem := rfl
@[simp] theorem waitFe_bad (s : State) (c : FC) : (waitFe s c).bad = s.bad := rfl
@[simp] theorem waitFe_badMeta (s : State) (c : FC) : (waitFe s c).badMeta = s.badMeta := rfl
@[simp] theorem waitFe_evals (s : State) (c : FC) : (waitFe s c).evals = s.evals := rfl
@[simp] theorem waitFe_done (s : State) (c : FC) : (waitFe s c).done = s.done := rfl
@[simp] theorem waitFe_dies (s : State) (c : FC) : (waitFe s c).dies = s.dies := rfl
@[simp] theorem waitFe_ctxs (s : State) (c : FC) : (waitFe s c).ctxs = s.ctxs := rfl
@[simp] theorem waitFe_sched (s : State) (c : FC) : (waitFe s c).sched = s.sched := rfl
@[simp] theorem waitFe_flight (s : State) (c : FC) : (waitFe s c).flight = s.flight := rfl
@[simp] theorem waitFe_pages (s : State) (c : FC) : (waitFe s c).pages = s.pages := rfl
@[simp] theorem waitFe_links (s : State) (c : FC) : (waitFe s c).links = s.links := rfl
@[simp] theorem waitFe_host (s : State) (c : FC) : (waitFe s c).host = s.host := rfl
@[simp] theorem waitFe_dreset (s : State) (c : FC) : (waitFe s c).dreset = s.dreset := rfl
@[simp] theorem waitFe_dbg (s : State) (c : FC) : (waitFe s c).dbg = s.dbg := rfl
@[simp] theorem waitFe_mgmt (s : State) (c : FC) : (waitFe s c).mgmt = s.mgmt := rfl

/-! ## queueRecord -/

@[simp] theorem queueRecord_clk (s : State) (n : Nat) (r : FaultRec) : (queueRecord s n r).clk = s.clk := rfl
@[simp] theorem queueRecord_agenda (s : State) (n : Nat) (r : FaultRec) : (queueRecord s n r).agenda = s.agenda := rfl
@[simp] theorem queueRecord_cur (s : State) (n : Nat) (r : FaultRec) : (queueRecord s n r).cur = s.cur := rfl
@[simp] theorem queueRecord_free (s : State) (n : Nat) (r : FaultRec) : (queueRecord s n r).free = s.free := rfl
@[simp] theorem queueRecord_mode (s : State) (n : Nat) (r : FaultRec) : (queueRecord s n r).mode = s.mode := rfl
@[simp] theorem queueRecord_mem (s : State) (n : Nat) (r : FaultRec) : (queueRecord s n r).mem = s.mem := rfl
@[simp] theorem queueRecord_bad (s : State) (n : Nat) (r : FaultRec) : (queueRecord s n r).bad = s.bad := rfl
@[simp] theorem queueRecord_badMeta (s : State) (n : Nat) (r : FaultRec) : (queueRecord s n r).badMeta = s.badMeta := rfl
@[simp] theorem queueRecord_evals (s : State) (n : Nat) (r : FaultRec) : (queueRecord s n r).evals = s.evals := rfl
@[simp] theorem queueRecord_done (s : State) (n : Nat) (r : FaultRec) : (queueRecord s n r).done = s.done := rfl
@[simp] theorem queueRecord_cores (s : State) (n : Nat) (r : FaultRec) : (queueRecord s n r).cores = s.cores := rfl
@[simp] theorem queueRecord_dies (s : State) (n : Nat) (r : FaultRec) : (queueRecord s n r).dies = s.dies := rfl
@[simp] theorem queueRecord_sched (s : State) (n : Nat) (r : FaultRec) : (queueRecord s n r).sched = s.sched := rfl
@[simp] theorem queueRecord_flight (s : State) (n : Nat) (r : FaultRec) : (queueRecord s n r).flight = s.flight := rfl
@[simp] theorem queueRecord_pages (s : State) (n : Nat) (r : FaultRec) : (queueRecord s n r).pages = s.pages := rfl
@[simp] theorem queueRecord_links (s : State) (n : Nat) (r : FaultRec) : (queueRecord s n r).links = s.links := rfl
@[simp] theorem queueRecord_host (s : State) (n : Nat) (r : FaultRec) : (queueRecord s n r).host = s.host := rfl
@[simp] theorem queueRecord_dreset (s : State) (n : Nat) (r : FaultRec) : (queueRecord s n r).dreset = s.dreset := rfl
@[simp] theorem queueRecord_dbg (s : State) (n : Nat) (r : FaultRec) : (queueRecord s n r).dbg = s.dbg := rfl
@[simp] theorem queueRecord_mgmt (s : State) (n : Nat) (r : FaultRec) : (queueRecord s n r).mgmt = s.mgmt := rfl

/-! ## restOf -/

@[simp] theorem restOf_clk (s : State) : (restOf s).clk = s.clk := rfl
@[simp] theorem restOf_cur (s : State) : (restOf s).cur = s.cur := rfl
@[simp] theorem restOf_free (s : State) : (restOf s).free = s.free := rfl
@[simp] theorem restOf_mode (s : State) : (restOf s).mode = s.mode := rfl
@[simp] theorem restOf_mem (s : State) : (restOf s).mem = s.mem := rfl
@[simp] theorem restOf_bad (s : State) : (restOf s).bad = s.bad := rfl
@[simp] theorem restOf_badMeta (s : State) : (restOf s).badMeta = s.badMeta := rfl
@[simp] theorem restOf_evals (s : State) : (restOf s).evals = s.evals := rfl
@[simp] theorem restOf_done (s : State) : (restOf s).done = s.done := rfl
@[simp] theorem restOf_cores (s : State) : (restOf s).cores = s.cores := rfl
@[simp] theorem restOf_dies (s : State) : (restOf s).dies = s.dies := rfl
@[simp] theorem restOf_ctxs (s : State) : (restOf s).ctxs = s.ctxs := rfl
@[simp] theorem restOf_sched (s : State) : (restOf s).sched = s.sched := rfl
@[simp] theorem restOf_flight (s : State) : (restOf s).flight = s.flight := rfl
@[simp] theorem restOf_pages (s : State) : (restOf s).pages = s.pages := rfl
@[simp] theorem restOf_links (s : State) : (restOf s).links = s.links := rfl
@[simp] theorem restOf_host (s : State) : (restOf s).host = s.host := rfl
@[simp] theorem restOf_dreset (s : State) : (restOf s).dreset = s.dreset := rfl
@[simp] theorem restOf_dbg (s : State) : (restOf s).dbg = s.dbg := rfl
@[simp] theorem restOf_mgmt (s : State) : (restOf s).mgmt = s.mgmt := rfl

/-! ## cycleGoes -/

@[simp] theorem cycleGoes_agenda (s : State) : (cycleGoes s).agenda = s.agenda := rfl
@[simp] theorem cycleGoes_cur (s : State) : (cycleGoes s).cur = s.cur := rfl
@[simp] theorem cycleGoes_free (s : State) : (cycleGoes s).free = s.free := rfl
@[simp] theorem cycleGoes_mode (s : State) : (cycleGoes s).mode = s.mode := rfl
@[simp] theorem cycleGoes_mem (s : State) : (cycleGoes s).mem = s.mem := rfl
@[simp] theorem cycleGoes_bad (s : State) : (cycleGoes s).bad = s.bad := rfl
@[simp] theorem cycleGoes_badMeta (s : State) : (cycleGoes s).badMeta = s.badMeta := rfl
@[simp] theorem cycleGoes_evals (s : State) : (cycleGoes s).evals = s.evals := rfl
@[simp] theorem cycleGoes_dies (s : State) : (cycleGoes s).dies = s.dies := rfl
@[simp] theorem cycleGoes_ctxs (s : State) : (cycleGoes s).ctxs = s.ctxs := rfl
@[simp] theorem cycleGoes_flight (s : State) : (cycleGoes s).flight = s.flight := rfl
@[simp] theorem cycleGoes_pages (s : State) : (cycleGoes s).pages = s.pages := rfl
@[simp] theorem cycleGoes_links (s : State) : (cycleGoes s).links = s.links := rfl
@[simp] theorem cycleGoes_host (s : State) : (cycleGoes s).host = s.host := rfl
@[simp] theorem cycleGoes_dreset (s : State) : (cycleGoes s).dreset = s.dreset := rfl
@[simp] theorem cycleGoes_dbg (s : State) : (cycleGoes s).dbg = s.dbg := rfl
@[simp] theorem cycleGoes_mgmt (s : State) : (cycleGoes s).mgmt = s.mgmt := rfl

/-! ## noteRank -/

@[simp] theorem noteRank_clk (s : State) (r : Rank) : (noteRank s r).clk = s.clk := rfl
@[simp] theorem noteRank_agenda (s : State) (r : Rank) : (noteRank s r).agenda = s.agenda := rfl
@[simp] theorem noteRank_cur (s : State) (r : Rank) : (noteRank s r).cur = s.cur := rfl
@[simp] theorem noteRank_free (s : State) (r : Rank) : (noteRank s r).free = s.free := rfl
@[simp] theorem noteRank_mode (s : State) (r : Rank) : (noteRank s r).mode = s.mode := rfl
@[simp] theorem noteRank_mem (s : State) (r : Rank) : (noteRank s r).mem = s.mem := rfl
@[simp] theorem noteRank_bad (s : State) (r : Rank) : (noteRank s r).bad = s.bad := rfl
@[simp] theorem noteRank_badMeta (s : State) (r : Rank) : (noteRank s r).badMeta = s.badMeta := rfl
@[simp] theorem noteRank_evals (s : State) (r : Rank) : (noteRank s r).evals = s.evals := rfl
@[simp] theorem noteRank_cores (s : State) (r : Rank) : (noteRank s r).cores = s.cores := rfl
@[simp] theorem noteRank_dies (s : State) (r : Rank) : (noteRank s r).dies = s.dies := rfl
@[simp] theorem noteRank_ctxs (s : State) (r : Rank) : (noteRank s r).ctxs = s.ctxs := rfl
@[simp] theorem noteRank_sched (s : State) (r : Rank) : (noteRank s r).sched = s.sched := rfl
@[simp] theorem noteRank_flight (s : State) (r : Rank) : (noteRank s r).flight = s.flight := rfl
@[simp] theorem noteRank_pages (s : State) (r : Rank) : (noteRank s r).pages = s.pages := rfl
@[simp] theorem noteRank_links (s : State) (r : Rank) : (noteRank s r).links = s.links := rfl
@[simp] theorem noteRank_host (s : State) (r : Rank) : (noteRank s r).host = s.host := rfl
@[simp] theorem noteRank_dreset (s : State) (r : Rank) : (noteRank s r).dreset = s.dreset := rfl
@[simp] theorem noteRank_dbg (s : State) (r : Rank) : (noteRank s r).dbg = s.dbg := rfl
@[simp] theorem noteRank_mgmt (s : State) (r : Rank) : (noteRank s r).mgmt = s.mgmt := rfl

/-! ## writeS -/

@[simp] theorem writeS_clk (s : State) (c n : Nat) (v : DWord) : (writeS s c n v).clk = s.clk := by
  unfold writeS; split <;> rfl
@[simp] theorem writeS_agenda (s : State) (c n : Nat) (v : DWord) : (writeS s c n v).agenda = s.agenda := by
  unfold writeS; split <;> rfl
@[simp] theorem writeS_cur (s : State) (c n : Nat) (v : DWord) : (writeS s c n v).cur = s.cur := by
  unfold writeS; split <;> rfl
@[simp] theorem writeS_free (s : State) (c n : Nat) (v : DWord) : (writeS s c n v).free = s.free := by
  unfold writeS; split <;> rfl
@[simp] theorem writeS_mode (s : State) (c n : Nat) (v : DWord) : (writeS s c n v).mode = s.mode := by
  unfold writeS; split <;> rfl
@[simp] theorem writeS_mem (s : State) (c n : Nat) (v : DWord) : (writeS s c n v).mem = s.mem := by
  unfold writeS; split <;> rfl
@[simp] theorem writeS_bad (s : State) (c n : Nat) (v : DWord) : (writeS s c n v).bad = s.bad := by
  unfold writeS; split <;> rfl
@[simp] theorem writeS_badMeta (s : State) (c n : Nat) (v : DWord) : (writeS s c n v).badMeta = s.badMeta := by
  unfold writeS; split <;> rfl
@[simp] theorem writeS_evals (s : State) (c n : Nat) (v : DWord) : (writeS s c n v).evals = s.evals := by
  unfold writeS; split <;> rfl
@[simp] theorem writeS_done (s : State) (c n : Nat) (v : DWord) : (writeS s c n v).done = s.done := by
  unfold writeS; split <;> rfl
@[simp] theorem writeS_dies (s : State) (c n : Nat) (v : DWord) : (writeS s c n v).dies = s.dies := by
  unfold writeS; split <;> rfl
@[simp] theorem writeS_ctxs (s : State) (c n : Nat) (v : DWord) : (writeS s c n v).ctxs = s.ctxs := by
  unfold writeS; split <;> rfl
@[simp] theorem writeS_sched (s : State) (c n : Nat) (v : DWord) : (writeS s c n v).sched = s.sched := by
  unfold writeS; split <;> rfl
@[simp] theorem writeS_flight (s : State) (c n : Nat) (v : DWord) : (writeS s c n v).flight = s.flight := by
  unfold writeS; split <;> rfl
@[simp] theorem writeS_pages (s : State) (c n : Nat) (v : DWord) : (writeS s c n v).pages = s.pages := by
  unfold writeS; split <;> rfl
@[simp] theorem writeS_links (s : State) (c n : Nat) (v : DWord) : (writeS s c n v).links = s.links := by
  unfold writeS; split <;> rfl
@[simp] theorem writeS_host (s : State) (c n : Nat) (v : DWord) : (writeS s c n v).host = s.host := by
  unfold writeS; split <;> rfl
@[simp] theorem writeS_dreset (s : State) (c n : Nat) (v : DWord) : (writeS s c n v).dreset = s.dreset := by
  unfold writeS; split <;> rfl
@[simp] theorem writeS_dbg (s : State) (c n : Nat) (v : DWord) : (writeS s c n v).dbg = s.dbg := by
  unfold writeS; split <;> rfl
@[simp] theorem writeS_mgmt (s : State) (c n : Nat) (v : DWord) : (writeS s c n v).mgmt = s.mgmt := by
  unfold writeS; split <;> rfl

/-! ## writeFpred -/

@[simp] theorem writeFpred_clk (s : State) (c p : Nat) (v : Bool) : (writeFpred s c p v).clk = s.clk := by
  unfold writeFpred; split <;> rfl
@[simp] theorem writeFpred_agenda (s : State) (c p : Nat) (v : Bool) : (writeFpred s c p v).agenda = s.agenda := by
  unfold writeFpred; split <;> rfl
@[simp] theorem writeFpred_cur (s : State) (c p : Nat) (v : Bool) : (writeFpred s c p v).cur = s.cur := by
  unfold writeFpred; split <;> rfl
@[simp] theorem writeFpred_free (s : State) (c p : Nat) (v : Bool) : (writeFpred s c p v).free = s.free := by
  unfold writeFpred; split <;> rfl
@[simp] theorem writeFpred_mode (s : State) (c p : Nat) (v : Bool) : (writeFpred s c p v).mode = s.mode := by
  unfold writeFpred; split <;> rfl
@[simp] theorem writeFpred_mem (s : State) (c p : Nat) (v : Bool) : (writeFpred s c p v).mem = s.mem := by
  unfold writeFpred; split <;> rfl
@[simp] theorem writeFpred_bad (s : State) (c p : Nat) (v : Bool) : (writeFpred s c p v).bad = s.bad := by
  unfold writeFpred; split <;> rfl
@[simp] theorem writeFpred_badMeta (s : State) (c p : Nat) (v : Bool) : (writeFpred s c p v).badMeta = s.badMeta := by
  unfold writeFpred; split <;> rfl
@[simp] theorem writeFpred_evals (s : State) (c p : Nat) (v : Bool) : (writeFpred s c p v).evals = s.evals := by
  unfold writeFpred; split <;> rfl
@[simp] theorem writeFpred_done (s : State) (c p : Nat) (v : Bool) : (writeFpred s c p v).done = s.done := by
  unfold writeFpred; split <;> rfl
@[simp] theorem writeFpred_dies (s : State) (c p : Nat) (v : Bool) : (writeFpred s c p v).dies = s.dies := by
  unfold writeFpred; split <;> rfl
@[simp] theorem writeFpred_ctxs (s : State) (c p : Nat) (v : Bool) : (writeFpred s c p v).ctxs = s.ctxs := by
  unfold writeFpred; split <;> rfl
@[simp] theorem writeFpred_sched (s : State) (c p : Nat) (v : Bool) : (writeFpred s c p v).sched = s.sched := by
  unfold writeFpred; split <;> rfl
@[simp] theorem writeFpred_flight (s : State) (c p : Nat) (v : Bool) : (writeFpred s c p v).flight = s.flight := by
  unfold writeFpred; split <;> rfl
@[simp] theorem writeFpred_pages (s : State) (c p : Nat) (v : Bool) : (writeFpred s c p v).pages = s.pages := by
  unfold writeFpred; split <;> rfl
@[simp] theorem writeFpred_links (s : State) (c p : Nat) (v : Bool) : (writeFpred s c p v).links = s.links := by
  unfold writeFpred; split <;> rfl
@[simp] theorem writeFpred_host (s : State) (c p : Nat) (v : Bool) : (writeFpred s c p v).host = s.host := by
  unfold writeFpred; split <;> rfl
@[simp] theorem writeFpred_dreset (s : State) (c p : Nat) (v : Bool) : (writeFpred s c p v).dreset = s.dreset := by
  unfold writeFpred; split <;> rfl
@[simp] theorem writeFpred_dbg (s : State) (c p : Nat) (v : Bool) : (writeFpred s c p v).dbg = s.dbg := by
  unfold writeFpred; split <;> rfl
@[simp] theorem writeFpred_mgmt (s : State) (c p : Nat) (v : Bool) : (writeFpred s c p v).mgmt = s.mgmt := by
  unfold writeFpred; split <;> rfl

/-! ## setUniform -/

@[simp] theorem setUniform_clk (s : State) (c : GC) (p : Nat) (v : Bool) : (setUniform s c p v).clk = s.clk := by
  unfold setUniform; split <;> rfl
@[simp] theorem setUniform_agenda (s : State) (c : GC) (p : Nat) (v : Bool) : (setUniform s c p v).agenda = s.agenda := by
  unfold setUniform; split <;> rfl
@[simp] theorem setUniform_cur (s : State) (c : GC) (p : Nat) (v : Bool) : (setUniform s c p v).cur = s.cur := by
  unfold setUniform; split <;> rfl
@[simp] theorem setUniform_free (s : State) (c : GC) (p : Nat) (v : Bool) : (setUniform s c p v).free = s.free := by
  unfold setUniform; split <;> rfl
@[simp] theorem setUniform_mode (s : State) (c : GC) (p : Nat) (v : Bool) : (setUniform s c p v).mode = s.mode := by
  unfold setUniform; split <;> rfl
@[simp] theorem setUniform_mem (s : State) (c : GC) (p : Nat) (v : Bool) : (setUniform s c p v).mem = s.mem := by
  unfold setUniform; split <;> rfl
@[simp] theorem setUniform_bad (s : State) (c : GC) (p : Nat) (v : Bool) : (setUniform s c p v).bad = s.bad := by
  unfold setUniform; split <;> rfl
@[simp] theorem setUniform_badMeta (s : State) (c : GC) (p : Nat) (v : Bool) : (setUniform s c p v).badMeta = s.badMeta := by
  unfold setUniform; split <;> rfl
@[simp] theorem setUniform_evals (s : State) (c : GC) (p : Nat) (v : Bool) : (setUniform s c p v).evals = s.evals := by
  unfold setUniform; split <;> rfl
@[simp] theorem setUniform_done (s : State) (c : GC) (p : Nat) (v : Bool) : (setUniform s c p v).done = s.done := by
  unfold setUniform; split <;> rfl
@[simp] theorem setUniform_dies (s : State) (c : GC) (p : Nat) (v : Bool) : (setUniform s c p v).dies = s.dies := by
  unfold setUniform; split <;> rfl
@[simp] theorem setUniform_ctxs (s : State) (c : GC) (p : Nat) (v : Bool) : (setUniform s c p v).ctxs = s.ctxs := by
  unfold setUniform; split <;> rfl
@[simp] theorem setUniform_sched (s : State) (c : GC) (p : Nat) (v : Bool) : (setUniform s c p v).sched = s.sched := by
  unfold setUniform; split <;> rfl
@[simp] theorem setUniform_flight (s : State) (c : GC) (p : Nat) (v : Bool) : (setUniform s c p v).flight = s.flight := by
  unfold setUniform; split <;> rfl
@[simp] theorem setUniform_pages (s : State) (c : GC) (p : Nat) (v : Bool) : (setUniform s c p v).pages = s.pages := by
  unfold setUniform; split <;> rfl
@[simp] theorem setUniform_links (s : State) (c : GC) (p : Nat) (v : Bool) : (setUniform s c p v).links = s.links := by
  unfold setUniform; split <;> rfl
@[simp] theorem setUniform_host (s : State) (c : GC) (p : Nat) (v : Bool) : (setUniform s c p v).host = s.host := by
  unfold setUniform; split <;> rfl
@[simp] theorem setUniform_dreset (s : State) (c : GC) (p : Nat) (v : Bool) : (setUniform s c p v).dreset = s.dreset := by
  unfold setUniform; split <;> rfl
@[simp] theorem setUniform_dbg (s : State) (c : GC) (p : Nat) (v : Bool) : (setUniform s c p v).dbg = s.dbg := by
  unfold setUniform; split <;> rfl
@[simp] theorem setUniform_mgmt (s : State) (c : GC) (p : Nat) (v : Bool) : (setUniform s c p v).mgmt = s.mgmt := by
  unfold setUniform; split <;> rfl

end Sys2Proof.Machine
end

