-- ==== Sys2Proof/Laws/Issue.lean ====
section
/-! SUPPORT. What the shared operations of issue do: checks, an instruction of a group or of the front-end, one lemma
each. -/
namespace Sys2Proof.Machine

/-! ## Checks -/

@[simp] theorem chk_nil (e : Eff) : chk [] e = e := rfl
@[simp] theorem chk_false (b : Byte) (l : List (Bool × Byte)) (e : Eff) : chk ((false, b) :: l) e = chk l e := rfl
@[simp] theorem chk_true (b : Byte) (l : List (Bool × Byte)) (e : Eff) : chk ((true, b) :: l) e = .fault { code := b } := rfl

/-- Checks that find nothing let the effect happen. -/
theorem chk_pass {l : List (Bool × Byte)} (e : Eff) (h : ∀ x ∈ l, x.1 = false) : chk l e = e := by
  induction l with
  | nil => rfl
  | cons x r ih =>
    obtain ⟨b, c⟩ := x
    have hb : b = false := h (b, c) (by simp)
    subst hb
    exact ih fun y hy => h y (by simp [hy])

/-! ## Who issues -/

/-- The issuing thread is a group or the front-end, not both. -/
theorem groupCtx_of_feCtx {s : State} {c : FC} (h : feCtx s = some c) : groupCtx s = none := by
  unfold feCtx at h
  unfold groupCtx
  cases hw : s.cur.who <;> simp_all

/-- An instruction of groups, executed by a split. -/
theorem grpInstr_run {s : State} {c : GC} {lit : Bool} {f : GC → Eff} (h : groupCtx s = some c)
    (hl : lit = true ∨ c.spl.pre.lit = none) : grpInstr s lit f = .next (endGrp s c (f c)) := by
  unfold grpInstr instr
  simp only [h]
  rcases hl with hl | hl <;> simp [hl]

/-- An instruction of the front-end, executed by it. -/
theorem feInstr_run {s : State} {c : FC} {lit : Bool} {f : FC → Eff} (h : feCtx s = some c)
    (hl : lit = true ∨ c.blk.fe.pre.lit = none) : feInstr s lit f = .next (endFe s c (f c)) := by
  unfold feInstr instr
  simp only [groupCtx_of_feCtx h, h]
  rcases hl with hl | hl <;> simp [hl]

/-- An instruction of both, executed by a split. -/
theorem instr_grp {s : State} {c : GC} {lit : Bool} {f : GC → Eff} {k : Option (FC → Eff)} (h : groupCtx s = some c)
    (hl : lit = true ∨ c.spl.pre.lit = none) : instr s lit (some f) k = .next (endGrp s c (f c)) := by
  unfold instr
  simp only [h]
  rcases hl with hl | hl <;> simp [hl]

/-- An instruction of both, executed by the front-end. -/
theorem instr_fe {s : State} {c : FC} {lit : Bool} {f : FC → Eff} {k : Option (GC → Eff)} (h : feCtx s = some c)
    (hl : lit = true ∨ c.blk.fe.pre.lit = none) : instr s lit k (some f) = .next (endFe s c (f c)) := by
  unfold instr
  simp only [groupCtx_of_feCtx h, h]
  rcases hl with hl | hl <;> simp [hl]

@[simp] theorem endGrp_retire (s t : State) (c : GC) : endGrp s c (.retire t) = retireGrp t c := rfl
@[simp] theorem endGrp_jump (s t : State) (c : GC) : endGrp s c (.jump t) = jumpGrp t c := rfl
@[simp] theorem endGrp_wait (s t : State) (c : GC) : endGrp s c (.wait t) = waitGrp t c := rfl
@[simp] theorem endGrp_whole (s t : State) (c : GC) : endGrp s c (.whole t) = t := rfl
@[simp] theorem endGrp_fault (s : State) (c : GC) (f : Flt) : endGrp s c (.fault f) = faultGrp s c f := rfl
@[simp] theorem endFe_retire (s t : State) (c : FC) : endFe s c (.retire t) = retireFe t c := rfl
@[simp] theorem endFe_jump (s t : State) (c : FC) : endFe s c (.jump t) = jumpFe t c := rfl
@[simp] theorem endFe_wait (s t : State) (c : FC) : endFe s c (.wait t) = waitFe t c := rfl
@[simp] theorem endFe_whole (s t : State) (c : FC) : endFe s c (.whole t) = t := rfl
@[simp] theorem endFe_fault (s : State) (c : FC) (f : Flt) : endFe s c (.fault f) = feFault s c.core f := rfl

/-! ## The order of a cycle -/

/-- A turn comes about as a whole, or not at all. -/
theorem ordered_cases (s t : State) (rs : List Rank) : ordered s t rs = rs.foldl noteRank t ∨ ordered s t rs = s := by
  unfold ordered
  split
  · exact .inl rfl
  · exact .inr rfl

/-- A turn that nothing of its cycle precludes comes about. -/
theorem ordered_pass {s : State} {rs : List Rank} (t : State) (h : rs.all (mayRank s) = true) :
    ordered s t rs = rs.foldl noteRank t := by
  unfold ordered
  rw [if_pos h]

/-- Noting ranks changes what the cycle has done and nothing else. -/
theorem noteRanks_eq (rs : List Rank) (t : State) : rs.foldl noteRank t = { t with done := (rs.foldl noteRank t).done } := by
  induction rs generalizing t with
  | nil => rfl
  | cons r l ih =>
    rw [List.foldl_cons, ih]
    rfl

/-- An instruction that is none of the special-function unit's does not meet it. -/
theorem sfuTurn_other {i : Instr} (s t : State) (a : Agent) (h : sfuCycles i = 0) : sfuTurn s t a i = t := by
  unfold sfuTurn
  split <;> simp [h]

end Sys2Proof.Machine
end

