-- ==== Sys2Proof/Laws/Checks.lean ====
section
/-! SUPPORT. The shared checks of instructions, one lemma each: when they find no fault. -/
namespace Sys2Proof.Machine

/-- With no bank lost no access faults for one. -/
@[simp] theorem bankCheck_pass {c : GC} (h : c.blk.banksLost = []) (g : Nat) (ns : List Nat) (e : Eff) :
    chk [bankCheck c g ns] e = e := by
  apply chk_pass
  simp [bankCheck, h]

/-- The checks on vector registers pass. -/
theorem vecChecks_pass {c : GC} {dests srcs : List (Nat × Nat)} {res : Shape} (h : RegsLegal c dests srcs res) (g : Nat)
    (ns : List Nat) (e : Eff) : chk (vecChecks c dests srcs res ++ [bankCheck c g ns]) e = e := by
  apply chk_pass
  simp only [vecChecks, bankCheck, List.cons_append, List.nil_append, List.mem_cons, List.not_mem_nil, or_false,
    forall_eq_or_imp, forall_eq, h.bank, List.isEmpty_nil, Bool.not_true, Bool.false_and, and_true]
  refine ⟨?_, ?_⟩
  · simp only [List.any_eq_false, outOfRange, decide_eq_true_eq, Nat.not_lt]
    exact h.range
  · simp only [List.any_eq_false, List.mem_range, decide_eq_true_eq, Nat.not_lt, Bool.not_eq_true]
    exact fun r hr j hj => h.shape r hr j hj

/-- The checks on pool addresses pass. -/
theorem poolChecks_pass {s : State} {core align n : Nat} {ls : List (Nat × Word)} (h : PoolReach s core align n ls) (e : Eff) :
    poolChecks s core ls align n e = e := by
  unfold poolChecks
  have h1 : ls.find? (fun e => !aligned e.2.toNat align) = none := by
    simp only [List.find?_eq_none, aligned, Bool.not_eq_true', decide_eq_false_iff_not, Decidable.not_not]
    exact h.aligned
  have h2 : ls.find? (fun e => (poolTarget s core e.2 n).isNone) = none := by
    simp only [List.find?_eq_none]
    intro x hx
    have := h.legal x hx
    cases hp : poolTarget s core x.2 n <;> simp_all
  have h3 : ls.find? (fun e => poolCut s core e.2 n) = none := by
    simp only [List.find?_eq_none]
    intro x hx
    simp [h.route x hx]
  simp only [h1, h2, h3]

/-- A whole-split guard that is true in every lane lets the effect happen. -/
theorem wholeGuard_pass {s : State} {c : GC} {g : Nat} (h : WholeSplit c g) (e : Eff) : wholeGuard s c g e = e := by
  obtain ⟨h1, h2⟩ := h
  unfold wholeGuard predMixed
  rw [if_neg (by rw [h1]; exact h2)]
  simp [h1]

/-- What becomes of an instruction of the issuing thread. -/
def endIss (s : State) : Iss → Eff → State
  | .grp c, e => endGrp s c e
  | .fe c, e => endFe s c e

@[simp] theorem endIss_retire (s t : State) (i : Iss) : endIss s i (.retire t) = issRetire t i := by cases i <;> rfl
@[simp] theorem endIss_wait (s t : State) (i : Iss) : endIss s i (.wait t) = issWait t i := by cases i <;> rfl
@[simp] theorem endIss_fault (s : State) (i : Iss) (f : Flt) : endIss s i (.fault f) = issFault s f i := by cases i <;> rfl
@[simp] theorem endIss_whole (s t : State) (i : Iss) : endIss s i (.whole t) = t := by cases i <;> rfl

/-- An instruction of a shared class that may execute has its effect. -/
theorem sharedInstr_run {s : State} {i : Iss} {lit : Bool} {regs : List (Nat × Nat)} {sregs : List Nat} {bad badFe : Bool}
    {priv : State → Nat → Bool} {fld : Field23} {f : Iss → Eff} (h : SharedIssues s i lit regs sregs fld)
    (hb : bad = false) (hf : ∀ c, i = .fe c → badFe = false) (hp : priv s (issCore i) = true) :
    sharedInstr s lit regs sregs bad badFe priv fld f = .next (endIss s i (f i)) := by
  cases i with
  | grp c =>
    obtain ⟨hc, hl, hr, hd, hu, hk, hg⟩ := h
    simp only [issCore] at hp
    unfold sharedInstr
    rw [instr_grp hc hl]
    have h1 : (regs.any fun r => outOfRange c r.1 r.2) = false := by
      simp only [List.any_eq_false, outOfRange, decide_eq_true_eq, Nat.not_lt]
      exact hd
    have h2 : ((regNames regs).any fun n => !decide (vtag c n = .uniform)) = false := by
      simp only [List.any_eq_false, Bool.not_eq_true', decide_eq_false_iff_not, Decidable.not_not]
      exact hu
    cases fld with
    | dest p => simp [hr, hb, hp, h1, h2, show predStaged c p.toNat = false from hg, hk, endIss, -ne_eq]
    | guard g => simp [hr, hb, hp, h1, h2, wholeGuard_pass (show WholeSplit c g.toNat from hg), hk, endIss, -ne_eq]
  | fe c =>
    obtain ⟨hc, hl, hr, hg⟩ := h
    simp only [issCore] at hp
    unfold sharedInstr
    rw [instr_fe hc hl]
    have := hf c rfl
    cases fld <;> simp_all [endIss]

end Sys2Proof.Machine
end

