-- ==== Sys2Proof/Laws/Table.lean ====
section
/-! SUPPORT. The laws of the canonical finite maps: reading after writing, and that every update keeps the canonical
form. -/
namespace Sys2Proof.Machine

variable {α : Type}

/-! ## Reading after writing -/

theorem tfind_tput_same (k : Nat) (v : α) : ∀ t : Table α, tfind k (tput k v t) = some v
  | [] => by simp [tput, tfind]
  | (k', v') :: r => by
    unfold tput
    split
    · simp [tfind]
    · split
      · simp [tfind]
      · simp [tfind, *, tfind_tput_same k v r]

theorem tfind_tput_other {k k' : Nat} (v : α) (h : k' ≠ k) : ∀ t : Table α, tfind k' (tput k v t) = tfind k' t
  | [] => by simp [tput, tfind, h]
  | (j, v') :: r => by
    unfold tput
    split
    · simp [tfind, h]
    · split
      · rename_i hj
        subst hj
        simp [tfind, h]
      · simp only [tfind]
        split
        · rfl
        · exact tfind_tput_other v h r

theorem tfind_tdel_other {k k' : Nat} (h : k' ≠ k) : ∀ t : Table α, tfind k' (tdel k t) = tfind k' t
  | [] => rfl
  | (j, v') :: r => by
    unfold tdel
    split
    · rename_i hj
      subst hj
      simp [tfind, h]
    · simp only [tfind]
      split
      · rfl
      · exact tfind_tdel_other h r

/-! ## The canonical form -/

theorem sortedFrom_mono : ∀ {t : Table α} {a b : Nat}, a ≤ b → Table.sortedFrom b t = true → Table.sortedFrom a t = true
  | [], _, _, _, _ => rfl
  | (k, _) :: r, a, b, h, hs => by
    simp only [Table.sortedFrom, Bool.and_eq_true, decide_eq_true_eq] at hs ⊢
    exact ⟨Nat.le_trans h hs.1, hs.2⟩

/-- A map whose keys all lie above a key does not list it. -/
theorem tfind_below : ∀ {t : Table α} {b k : Nat}, Table.sortedFrom b t = true → k < b → tfind k t = none
  | [], _, _, _, _ => rfl
  | (j, _) :: r, b, k, hs, h => by
    simp only [Table.sortedFrom, Bool.and_eq_true, decide_eq_true_eq] at hs
    have : k ≠ j := by omega
    simp [tfind, this, tfind_below hs.2 (show k < j + 1 by omega)]

theorem tput_sorted (k : Nat) (v : α) :
    ∀ {t : Table α} {b : Nat}, Table.sortedFrom b t = true → b ≤ k → Table.sortedFrom b (tput k v t) = true
  | [], b, _, h => by simp [tput, Table.sortedFrom, h]
  | (j, v') :: r, b, hs, h => by
    simp only [Table.sortedFrom, Bool.and_eq_true, decide_eq_true_eq] at hs
    unfold tput
    split
    · simp only [Table.sortedFrom, Bool.and_eq_true, decide_eq_true_eq]
      exact ⟨h, by omega, hs.2⟩
    · split
      · rename_i hj
        subst hj
        simp only [Table.sortedFrom, Bool.and_eq_true, decide_eq_true_eq]
        exact ⟨h, hs.2⟩
      · simp only [Table.sortedFrom, Bool.and_eq_true, decide_eq_true_eq]
        exact ⟨hs.1, tput_sorted k v hs.2 (by omega)⟩

theorem tdel_sorted (k : Nat) :
    ∀ {t : Table α} {b : Nat}, Table.sortedFrom b t = true → Table.sortedFrom b (tdel k t) = true
  | [], _, _ => rfl
  | (j, v') :: r, b, hs => by
    simp only [Table.sortedFrom, Bool.and_eq_true, decide_eq_true_eq] at hs
    unfold tdel
    split
    · exact sortedFrom_mono (by omega) hs.2
    · simp only [Table.sortedFrom, Bool.and_eq_true, decide_eq_true_eq]
      exact ⟨hs.1, tdel_sorted k hs.2⟩

theorem tfind_tdel_same (k : Nat) : ∀ {t : Table α} {b : Nat}, Table.sortedFrom b t = true → tfind k (tdel k t) = none
  | [], _, _ => rfl
  | (j, _) :: r, b, hs => by
    simp only [Table.sortedFrom, Bool.and_eq_true, decide_eq_true_eq] at hs
    unfold tdel
    split
    · rename_i hj
      subst hj
      exact tfind_below hs.2 (Nat.lt_succ_self _)
    · simp [tfind, *, tfind_tdel_same k hs.2]

theorem tput_all (p : Nat × α → Bool) (k : Nat) (v : α) (hv : p (k, v) = true) :
    ∀ {t : Table α}, t.all p = true → (tput k v t).all p = true
  | [], _ => by simp [tput, hv]
  | (j, v') :: r, h => by
    simp only [List.all_cons, Bool.and_eq_true] at h
    unfold tput
    split
    · simp [hv, h.1, h.2]
    · split
      · rename_i hj
        subst hj
        simp [hv, h.2]
      · simp [h.1, tput_all p k v hv h.2]

theorem tdel_all (p : Nat × α → Bool) (k : Nat) : ∀ {t : Table α}, t.all p = true → (tdel k t).all p = true
  | [], _ => rfl
  | (j, v') :: r, h => by
    simp only [List.all_cons, Bool.and_eq_true] at h
    unfold tdel
    split
    · exact h.2
    · simp [h.1, tdel_all p k h.2]

theorem filter_sorted (p : Nat × α → Bool) :
    ∀ {t : Table α} {b : Nat}, Table.sortedFrom b t = true → Table.sortedFrom b (t.filter p) = true
  | [], _, _ => rfl
  | (j, v') :: r, b, hs => by
    simp only [Table.sortedFrom, Bool.and_eq_true, decide_eq_true_eq] at hs
    rw [List.filter_cons]
    split
    · simp only [Table.sortedFrom, Bool.and_eq_true, decide_eq_true_eq]
      exact ⟨hs.1, filter_sorted p hs.2⟩
    · exact sortedFrom_mono (by omega) (filter_sorted p hs.2)

variable [DecidableEq α]

/-- Writing a total map keeps its canonical form. -/
theorem tputD_wf (d : α) (k : Nat) (v : α) {t : Table α} (h : t.wf d = true) : (tputD d k v t).wf d = true := by
  simp only [Table.wf, Bool.and_eq_true] at h ⊢
  unfold tputD
  split
  · exact ⟨tdel_sorted k h.1, tdel_all _ k h.2⟩
  · rename_i hv
    exact ⟨tput_sorted k v h.1 (Nat.zero_le k), tput_all _ k v (by simpa using hv) h.2⟩

/-- Reading what has just been written. -/
theorem tgetD_tputD_same (d : α) (k : Nat) (v : α) {t : Table α} (h : t.wf d = true) :
    tgetD d k (tputD d k v t) = v := by
  simp only [Table.wf, Bool.and_eq_true] at h
  unfold tputD tgetD
  split
  · rename_i hv
    simp [tfind_tdel_same k h.1, hv]
  · simp [tfind_tput_same]

/-- A write leaves every other place alone. -/
theorem tgetD_tputD_other (d : α) {k k' : Nat} (v : α) (h : k' ≠ k) (t : Table α) :
    tgetD d k' (tputD d k v t) = tgetD d k' t := by
  unfold tputD tgetD
  split
  · rw [tfind_tdel_other h]
  · rw [tfind_tput_other v h]

/-- Leaving entries out keeps the canonical form. -/
theorem filter_wf (d : α) (p : Nat × α → Bool) {t : Table α} (h : t.wf d = true) : Table.wf d (t.filter p) = true := by
  simp only [Table.wf, Bool.and_eq_true] at h ⊢
  refine ⟨filter_sorted p h.1, ?_⟩
  simp only [List.all_eq_true] at h ⊢
  intro x hx
  exact h.2 x (List.mem_filter.mp hx).1

end Sys2Proof.Machine
end

