-- ==== Sys2Proof/Laws/Memory.lean ====
section
/-! SUPPORT. Memory and pools: every operation that writes them keeps their canonical form. -/
namespace Sys2Proof.Machine

/-- A fold keeps what each of its steps keeps. -/
theorem foldSt_keeps {σ α : Type} {f : σ → α → σ} {P : σ → Prop} (h : ∀ s a, P s → P (f s a)) :
    ∀ (l : List α) (s : σ), P s → P (foldSt f s l)
  | [], _, hs => hs
  | a :: r, s, hs => foldSt_keeps h r (f s a) (h s a hs)

/-! ## Memory behind the L2 -/

theorem memPut_wf : ∀ (bs : List Byte) (s : State) (n : Nat), Memory.wf s.mem = true → Memory.wf (memPut s n bs).mem = true
  | [], _, _, h => h
  | b :: r, s, n, h => memPut_wf r { s with mem := tputD 0 n b s.mem } (n + 1) (tputD_wf 0 n b h)

@[simp] theorem clearBad_mem (s : State) (loc n : Nat) : (clearBad s loc n).mem = s.mem := rfl
@[simp] theorem modReg_mem (s : State) (p : Word) (a : Nat) (f : RegWord → RegWord) : (modReg s p a f).mem = s.mem := rfl
@[simp] theorem markDirty_mem (s : State) (p : Word) (a : Nat) : (markDirty s p a).mem = s.mem := rfl
@[simp] theorem storesReturned_mem (s : State) (d : Nat) (p : Word) (a : Nat) : (storesReturned s d p a).mem = s.mem := rfl

@[simp] theorem ownerClean_mem (s : State) (o : BitVec 3) (p : Word) (a : Nat) : (ownerClean s o p a).mem = s.mem := by
  unfold ownerClean
  dsimp only
  split
  · rfl
  · split <;> rfl

@[simp] theorem clearWord_mem (s : State) (p : Word) (a : Nat) : (clearWord s p a).mem = s.mem := by
  unfold clearWord
  dsimp only
  split <;> rfl

theorem writeBack_wf {s : State} (k : Nat) (l : HomeLine) (h : Memory.wf s.mem = true) :
    Memory.wf (writeBack s k l).mem = true := by
  unfold writeBack
  split
  · exact memPut_wf _ _ _ h
  · exact h

theorem evictHome_wf {s : State} (d k : Nat) (h : Memory.wf s.mem = true) : Memory.wf (evictHome s d k).mem = true := by
  unfold evictHome
  split
  · exact writeBack_wf k _ h
  · exact h

theorem putHome_wf {s : State} (p : Word) (a : Nat) (l : HomeLine) (h : Memory.wf s.mem = true) :
    Memory.wf (putHome s p a l).mem = true := by
  unfold putHome
  dsimp only
  split
  · exact h
  · split
    · exact h
    · split
      · exact evictHome_wf (s := bumpFree s) _ _ h
      · exact writeBack_wf _ _ h

theorem putHomeWord_wf {s : State} (p : Word) (a : Nat) (w : Word) (h : Memory.wf s.mem = true) :
    Memory.wf (putHomeWord s p a w).mem = true :=
  putHome_wf (s := markDirty (clearBad s (locNum p (alignDown a 4)) 4) p a) p a _ h

theorem recallWord_wf {s : State} (p : Word) (a : Nat) (h : Memory.wf s.mem = true) :
    Memory.wf (recallWord s p a).mem = true := by
  unfold recallWord
  dsimp only
  split
  · exact h
  · split
    · simpa using putHomeWord_wf p a _ h
    · exact h

theorem homePutByte_wf {s : State} (p : Word) (a : Nat) (b : Byte) (h : Memory.wf s.mem = true) :
    Memory.wf (homePutByte s p a b).mem = true := by
  unfold homePutByte
  split
  · exact tputD_wf 0 _ b h
  · split
    · exact h
    · exact putHome_wf (s := markDirty (recallWord s p a) p a) p a _ (recallWord_wf p a h)

theorem putPhys_wf (p : Word) : ∀ (bs : List Byte) (s : State) (a : Nat), Memory.wf s.mem = true →
    Memory.wf (putPhys s p a bs).mem = true
  | [], _, _, h => h
  | b :: r, s, a, h => putPhys_wf p r (homePutByte s p a b) (a + 1) (homePutByte_wf p a b h)

theorem physPut_wf {s : State} (p : Word) (a : Nat) (bs : List Byte) (h : Memory.wf s.mem = true) :
    Memory.wf (physPut s p a bs).mem = true := by
  unfold physPut
  apply putPhys_wf
  refine foldSt_keeps (P := fun t : State => Memory.wf t.mem = true) ?_ _ _ h
  exact fun t i ht => by simpa using ht

theorem drainLine_wf {s : State} (d k : Nat) (which : Nat → Bool) (h : Memory.wf s.mem = true) :
    Memory.wf (drainLine s d k which).mem = true := by
  unfold drainLine
  split
  · refine foldSt_keeps (P := fun t : State => Memory.wf t.mem = true) ?_ _ _ h
    intro t i ht
    dsimp only
    split
    · split
      · exact ht
      · rw [modReg_mem, ownerClean_mem]
        split
        · exact putHomeWord_wf _ _ _ ht
        · exact ht
    · exact ht
  · exact h

theorem evictVisitor_wf {s : State} (d k : Nat) (h : Memory.wf s.mem = true) :
    Memory.wf (evictVisitor s d k).mem = true := drainLine_wf (s := s) d k _ h

theorem zeroPart_wf {s : State} (p : Word) (pa : Nat) (h : Memory.wf s.mem = true) : Memory.wf (zeroPart s p pa).mem = true :=
  filter_wf 0 _ h

theorem takeFrames_wf {s : State} (ctx : Nat) (l : Leaf) (h : Memory.wf s.mem = true) :
    Memory.wf (takeFrames s ctx l).mem = true := by
  unfold takeFrames
  refine foldSt_keeps (P := fun t : State => Memory.wf t.mem = true) ?_ _ _ h
  exact fun t pa ht => zeroPart_wf (s := t) l.place pa ht

/-- The memory after reset has the form. -/
theorem reset_mem_wf : Memory.wf State.reset.mem = true := rfl

/-! ## Pools -/

theorem putBytes_wf : ∀ (bs : List Byte) (m : List Host.Cell) (n : Nat), Memory.wf m = true → Memory.wf (putBytes m n bs) = true
  | [], _, _, h => h
  | b :: r, m, n, h => putBytes_wf r (tputD 0 n b m) (n + 1) (tputD_wf 0 n b h)

/-- A pool keeps its form when its bytes are written. -/
theorem poolPut_wf {s : State} {c off : Nat} {bs : List Byte} (k : Nat) (h : ∀ k, Memory.wf (getCore s k).pool = true) :
    Memory.wf (getCore (poolPut s c off bs) k).pool = true := by
  show Memory.wf (tgetD ({} : CoreSt) k (tput c _ s.cores)).pool = true
  by_cases hk : k = c
  · subst hk
    simp only [tgetD, tfind_tput_same, Option.getD_some]
    exact putBytes_wf bs _ off (h k)
  · simp only [tgetD, tfind_tput_other _ hk]
    exact h k

end Sys2Proof.Machine
end

