-- ==== Sys2Proof/Laws/PerInstr.lean ====
section
/-! SUPPORT. Statements about every instruction as syntax, one lemma per constructor. -/
namespace Sys2Proof.Laws

/-- An instruction has one word, and a step of the device or of the outside world none (03 R64). -/
def WordCount.Statement (i : Instr) : Prop := (encode i).length ≤ 1

theorem WordCount.sadd : ∀ a b c d, WordCount.Statement (.sadd a b c d) := fun _ _ _ _ => Nat.le_refl 1
theorem WordCount.ssub : ∀ a b c d, WordCount.Statement (.ssub a b c d) := fun _ _ _ _ => Nat.le_refl 1
theorem WordCount.smul : ∀ a b c d, WordCount.Statement (.smul a b c d) := fun _ _ _ _ => Nat.le_refl 1
theorem WordCount.smulh : ∀ a b c d e, WordCount.Statement (.smulh a b c d e) := fun _ _ _ _ _ => Nat.le_refl 1
theorem WordCount.sand : ∀ a b c d, WordCount.Statement (.sand a b c d) := fun _ _ _ _ => Nat.le_refl 1
theorem WordCount.sor : ∀ a b c d, WordCount.Statement (.sor a b c d) := fun _ _ _ _ => Nat.le_refl 1
theorem WordCount.sxor : ∀ a b c d, WordCount.Statement (.sxor a b c d) := fun _ _ _ _ => Nat.le_refl 1
theorem WordCount.sshl : ∀ a b c d e, WordCount.Statement (.sshl a b c d e) := fun _ _ _ _ _ => Nat.le_refl 1
theorem WordCount.sshr : ∀ a b c d e, WordCount.Statement (.sshr a b c d e) := fun _ _ _ _ _ => Nat.le_refl 1
theorem WordCount.ssar : ∀ a b c d e, WordCount.Statement (.ssar a b c d e) := fun _ _ _ _ _ => Nat.le_refl 1
theorem WordCount.smin : ∀ a b c d e, WordCount.Statement (.smin a b c d e) := fun _ _ _ _ _ => Nat.le_refl 1
theorem WordCount.smax : ∀ a b c d e, WordCount.Statement (.smax a b c d e) := fun _ _ _ _ _ => Nat.le_refl 1
theorem WordCount.scmp : ∀ a b c d e, WordCount.Statement (.scmp a b c d e) := fun _ _ _ _ _ => Nat.le_refl 1
theorem WordCount.ssel : ∀ a b c d, WordCount.Statement (.ssel a b c d) := fun _ _ _ _ => Nat.le_refl 1
theorem WordCount.sclz : ∀ a b c, WordCount.Statement (.sclz a b c) := fun _ _ _ => Nat.le_refl 1
theorem WordCount.spop : ∀ a b c, WordCount.Statement (.spop a b c) := fun _ _ _ => Nat.le_refl 1
theorem WordCount.saddi : ∀ a b, WordCount.Statement (.saddi a b) := fun _ _ => Nat.le_refl 1
theorem WordCount.sli : ∀ a b, WordCount.Statement (.sli a b) := fun _ _ => Nat.le_refl 1
theorem WordCount.slih : ∀ a b, WordCount.Statement (.slih a b) := fun _ _ => Nat.le_refl 1
theorem WordCount.sldp : ∀ a b c d, WordCount.Statement (.sldp a b c d) := fun _ _ _ _ => Nat.le_refl 1
theorem WordCount.sstp : ∀ a b c, WordCount.Statement (.sstp a b c) := fun _ _ _ => Nat.le_refl 1
theorem WordCount.sj : ∀ a, WordCount.Statement (.sj a) := fun _ => Nat.le_refl 1
theorem WordCount.sbz : ∀ a b, WordCount.Statement (.sbz a b) := fun _ _ => Nat.le_refl 1
theorem WordCount.sbnz : ∀ a b, WordCount.Statement (.sbnz a b) := fun _ _ => Nat.le_refl 1
theorem WordCount.scall : ∀ a, WordCount.Statement (.scall a) := fun _ => Nat.le_refl 1
theorem WordCount.sret : WordCount.Statement .sret := Nat.le_refl 1
theorem WordCount.stime : ∀ a, WordCount.Statement (.stime a) := fun _ => Nat.le_refl 1
theorem WordCount.smfsy : ∀ a b, WordCount.Statement (.smfsy a b) := fun _ _ => Nat.le_refl 1
theorem WordCount.smtsy : ∀ a b, WordCount.Statement (.smtsy a b) := fun _ _ => Nat.le_refl 1
theorem WordCount.sexit : WordCount.Statement .sexit := Nat.le_refl 1
theorem WordCount.dqpush : ∀ a b, WordCount.Statement (.dqpush a b) := fun _ _ => Nat.le_refl 1
theorem WordCount.swait : ∀ a, WordCount.Statement (.swait a) := fun _ => Nat.le_refl 1
theorem WordCount.vadd : ∀ a b c d, WordCount.Statement (.vadd a b c d) := fun _ _ _ _ => Nat.le_refl 1
theorem WordCount.vsub : ∀ a b c d, WordCount.Statement (.vsub a b c d) := fun _ _ _ _ => Nat.le_refl 1
theorem WordCount.vmul : ∀ a b c d, WordCount.Statement (.vmul a b c d) := fun _ _ _ _ => Nat.le_refl 1
theorem WordCount.vmulhI : ∀ a b c d, WordCount.Statement (.vmulhI a b c d) := fun _ _ _ _ => Nat.le_refl 1
theorem WordCount.vmulhN : ∀ a b c d, WordCount.Statement (.vmulhN a b c d) := fun _ _ _ _ => Nat.le_refl 1
theorem WordCount.vmad : ∀ a b c d, WordCount.Statement (.vmad a b c d) := fun _ _ _ _ => Nat.le_refl 1
theorem WordCount.vand : ∀ a b c d, WordCount.Statement (.vand a b c d) := fun _ _ _ _ => Nat.le_refl 1
theorem WordCount.vor : ∀ a b c d, WordCount.Statement (.vor a b c d) := fun _ _ _ _ => Nat.le_refl 1
theorem WordCount.vxor : ∀ a b c d, WordCount.Statement (.vxor a b c d) := fun _ _ _ _ => Nat.le_refl 1
theorem WordCount.vandn : ∀ a b c d, WordCount.Statement (.vandn a b c d) := fun _ _ _ _ => Nat.le_refl 1
theorem WordCount.vshl : ∀ a b c d, WordCount.Statement (.vshl a b c d) := fun _ _ _ _ => Nat.le_refl 1
theorem WordCount.vshr : ∀ a b c d, WordCount.Statement (.vshr a b c d) := fun _ _ _ _ => Nat.le_refl 1
theorem WordCount.vsar : ∀ a b c d, WordCount.Statement (.vsar a b c d) := fun _ _ _ _ => Nat.le_refl 1
theorem WordCount.vminI : ∀ a b c d, WordCount.Statement (.vminI a b c d) := fun _ _ _ _ => Nat.le_refl 1
theorem WordCount.vminN : ∀ a b c d, WordCount.Statement (.vminN a b c d) := fun _ _ _ _ => Nat.le_refl 1
theorem WordCount.vmaxI : ∀ a b c d, WordCount.Statement (.vmaxI a b c d) := fun _ _ _ _ => Nat.le_refl 1
theorem WordCount.vmaxN : ∀ a b c d, WordCount.Statement (.vmaxN a b c d) := fun _ _ _ _ => Nat.le_refl 1
theorem WordCount.vabs : ∀ a b c, WordCount.Statement (.vabs a b c) := fun _ _ _ => Nat.le_refl 1
theorem WordCount.vclz : ∀ a b c, WordCount.Statement (.vclz a b c) := fun _ _ _ => Nat.le_refl 1
theorem WordCount.vpop : ∀ a b c, WordCount.Statement (.vpop a b c) := fun _ _ _ => Nat.le_refl 1
theorem WordCount.vbrev : ∀ a b c, WordCount.Statement (.vbrev a b c) := fun _ _ _ => Nat.le_refl 1
theorem WordCount.vbfe : ∀ a b c d, WordCount.Statement (.vbfe a b c d) := fun _ _ _ _ => Nat.le_refl 1
theorem WordCount.vbfi : ∀ a b c d, WordCount.Statement (.vbfi a b c d) := fun _ _ _ _ => Nat.le_refl 1
theorem WordCount.vaddi : ∀ a b c d, WordCount.Statement (.vaddi a b c d) := fun _ _ _ _ => Nat.le_refl 1
theorem WordCount.vli : ∀ a b c, WordCount.Statement (.vli a b c) := fun _ _ _ => Nat.le_refl 1
theorem WordCount.vmov : ∀ a b c, WordCount.Statement (.vmov a b c) := fun _ _ _ => Nat.le_refl 1
theorem WordCount.vcmp : ∀ a b c d e, WordCount.Statement (.vcmp a b c d e) := fun _ _ _ _ _ => Nat.le_refl 1
theorem WordCount.vsel : ∀ a b c d, WordCount.Statement (.vsel a b c d) := fun _ _ _ _ => Nat.le_refl 1
theorem WordCount.vlane : ∀ a b, WordCount.Statement (.vlane a b) := fun _ _ => Nat.le_refl 1
theorem WordCount.vshflIdx : ∀ a b c d, WordCount.Statement (.vshflIdx a b c d) := fun _ _ _ _ => Nat.le_refl 1
theorem WordCount.vshflUp : ∀ a b c d, WordCount.Statement (.vshflUp a b c d) := fun _ _ _ _ => Nat.le_refl 1
theorem WordCount.vshflDown : ∀ a b c d, WordCount.Statement (.vshflDown a b c d) := fun _ _ _ _ => Nat.le_refl 1
theorem WordCount.vshflXor : ∀ a b c d, WordCount.Statement (.vshflXor a b c d) := fun _ _ _ _ => Nat.le_refl 1
theorem WordCount.vballot : ∀ a b c, WordCount.Statement (.vballot a b c) := fun _ _ _ => Nat.le_refl 1
theorem WordCount.vvote : ∀ a b c d, WordCount.Statement (.vvote a b c d) := fun _ _ _ _ => Nat.le_refl 1
theorem WordCount.vredadd : ∀ a b c, WordCount.Statement (.vredadd a b c) := fun _ _ _ => Nat.le_refl 1
theorem WordCount.vredmin : ∀ a b c d, WordCount.Statement (.vredmin a b c d) := fun _ _ _ _ => Nat.le_refl 1
theorem WordCount.vredmax : ∀ a b c d, WordCount.Statement (.vredmax a b c d) := fun _ _ _ _ => Nat.le_refl 1
theorem WordCount.vscan : ∀ a b c d e f, WordCount.Statement (.vscan a b c d e f) := fun _ _ _ _ _ _ => Nat.le_refl 1
theorem WordCount.pand : ∀ a b c d, WordCount.Statement (.pand a b c d) := fun _ _ _ _ => Nat.le_refl 1
theorem WordCount.por : ∀ a b c d, WordCount.Statement (.por a b c d) := fun _ _ _ _ => Nat.le_refl 1
theorem WordCount.pxor : ∀ a b c d, WordCount.Statement (.pxor a b c d) := fun _ _ _ _ => Nat.le_refl 1
theorem WordCount.pnot : ∀ a b c, WordCount.Statement (.pnot a b c) := fun _ _ _ => Nat.le_refl 1
theorem WordCount.vmfsy : ∀ a b c d e, WordCount.Statement (.vmfsy a b c d e) := fun _ _ _ _ _ => Nat.le_refl 1
theorem WordCount.vtime : ∀ a b c, WordCount.Statement (.vtime a b c) := fun _ _ _ => Nat.le_refl 1
theorem WordCount.fadd : ∀ a b c d, WordCount.Statement (.fadd a b c d) := fun _ _ _ _ => Nat.le_refl 1
theorem WordCount.fsub : ∀ a b c d, WordCount.Statement (.fsub a b c d) := fun _ _ _ _ => Nat.le_refl 1
theorem WordCount.fmul : ∀ a b c d, WordCount.Statement (.fmul a b c d) := fun _ _ _ _ => Nat.le_refl 1
theorem WordCount.ffma : ∀ a b c d, WordCount.Statement (.ffma a b c d) := fun _ _ _ _ => Nat.le_refl 1
theorem WordCount.ffms : ∀ a b c d, WordCount.Statement (.ffms a b c d) := fun _ _ _ _ => Nat.le_refl 1
theorem WordCount.fnma : ∀ a b c d, WordCount.Statement (.fnma a b c d) := fun _ _ _ _ => Nat.le_refl 1
theorem WordCount.fmin : ∀ a b c d, WordCount.Statement (.fmin a b c d) := fun _ _ _ _ => Nat.le_refl 1
theorem WordCount.fmax : ∀ a b c d, WordCount.Statement (.fmax a b c d) := fun _ _ _ _ => Nat.le_refl 1
theorem WordCount.fabs : ∀ a b c, WordCount.Statement (.fabs a b c) := fun _ _ _ => Nat.le_refl 1
theorem WordCount.fneg : ∀ a b c, WordCount.Statement (.fneg a b c) := fun _ _ _ => Nat.le_refl 1
theorem WordCount.fcmp : ∀ a b c d e, WordCount.Statement (.fcmp a b c d e) := fun _ _ _ _ _ => Nat.le_refl 1
theorem WordCount.fclass : ∀ a b c, WordCount.Statement (.fclass a b c) := fun _ _ _ => Nat.le_refl 1
theorem WordCount.fround : ∀ a b c d, WordCount.Statement (.fround a b c d) := fun _ _ _ _ => Nat.le_refl 1
theorem WordCount.cvt : ∀ a b c d e, WordCount.Statement (.cvt a b c d e) := fun _ _ _ _ _ => Nat.le_refl 1
theorem WordCount.cvtx : ∀ a b c d, WordCount.Statement (.cvtx a b c d) := fun _ _ _ _ => Nat.le_refl 1
theorem WordCount.hadd2F16 : ∀ a b c d, WordCount.Statement (.hadd2F16 a b c d) := fun _ _ _ _ => Nat.le_refl 1
theorem WordCount.hmul2F16 : ∀ a b c d, WordCount.Statement (.hmul2F16 a b c d) := fun _ _ _ _ => Nat.le_refl 1
theorem WordCount.hfma2F16 : ∀ a b c d, WordCount.Statement (.hfma2F16 a b c d) := fun _ _ _ _ => Nat.le_refl 1
theorem WordCount.hadd2Bf16 : ∀ a b c d, WordCount.Statement (.hadd2Bf16 a b c d) := fun _ _ _ _ => Nat.le_refl 1
theorem WordCount.hmul2Bf16 : ∀ a b c d, WordCount.Statement (.hmul2Bf16 a b c d) := fun _ _ _ _ => Nat.le_refl 1
theorem WordCount.hfma2Bf16 : ∀ a b c d, WordCount.Statement (.hfma2Bf16 a b c d) := fun _ _ _ _ => Nat.le_refl 1
theorem WordCount.dot4E4m3 : ∀ a b c d, WordCount.Statement (.dot4E4m3 a b c d) := fun _ _ _ _ => Nat.le_refl 1
theorem WordCount.dot4E5m2 : ∀ a b c d, WordCount.Statement (.dot4E5m2 a b c d) := fun _ _ _ _ => Nat.le_refl 1
theorem WordCount.dot2Bf16 : ∀ a b c d, WordCount.Statement (.dot2Bf16 a b c d) := fun _ _ _ _ => Nat.le_refl 1
theorem WordCount.idp4I8 : ∀ a b c d, WordCount.Statement (.idp4I8 a b c d) := fun _ _ _ _ => Nat.le_refl 1
theorem WordCount.frcp : ∀ a b c, WordCount.Statement (.frcp a b c) := fun _ _ _ => Nat.le_refl 1
theorem WordCount.frsq : ∀ a b c, WordCount.Statement (.frsq a b c) := fun _ _ _ => Nat.le_refl 1
theorem WordCount.fsqrt : ∀ a b c, WordCount.Statement (.fsqrt a b c) := fun _ _ _ => Nat.le_refl 1
theorem WordCount.fexp2 : ∀ a b c, WordCount.Statement (.fexp2 a b c) := fun _ _ _ => Nat.le_refl 1
theorem WordCount.flog2 : ∀ a b c, WordCount.Statement (.flog2 a b c) := fun _ _ _ => Nat.le_refl 1
theorem WordCount.fsinp : ∀ a b c, WordCount.Statement (.fsinp a b c) := fun _ _ _ => Nat.le_refl 1
theorem WordCount.fcosp : ∀ a b c, WordCount.Statement (.fcosp a b c) := fun _ _ _ => Nat.le_refl 1
theorem WordCount.twid : ∀ a b c d, WordCount.Statement (.twid a b c d) := fun _ _ _ _ => Nat.le_refl 1
theorem WordCount.bfly2 : ∀ a b c d, WordCount.Statement (.bfly2 a b c d) := fun _ _ _ _ => Nat.le_refl 1
theorem WordCount.cmul : ∀ a b c d, WordCount.Statement (.cmul a b c d) := fun _ _ _ _ => Nat.le_refl 1
theorem WordCount.cmad : ∀ a b c d, WordCount.Statement (.cmad a b c d) := fun _ _ _ _ => Nat.le_refl 1
theorem WordCount.fredadd : ∀ a b c, WordCount.Statement (.fredadd a b c) := fun _ _ _ => Nat.le_refl 1
theorem WordCount.fredmax : ∀ a b c, WordCount.Statement (.fredmax a b c) := fun _ _ _ => Nat.le_refl 1
theorem WordCount.fredmin : ∀ a b c, WordCount.Statement (.fredmin a b c) := fun _ _ _ => Nat.le_refl 1
theorem WordCount.br : ∀ a b, WordCount.Statement (.br a b) := fun _ _ => Nat.le_refl 1
theorem WordCount.bru : ∀ a b, WordCount.Statement (.bru a b) := fun _ _ => Nat.le_refl 1
theorem WordCount.brx : ∀ a b, WordCount.Statement (.brx a b) := fun _ _ => Nat.le_refl 1
theorem WordCount.join : WordCount.Statement .join := Nat.le_refl 1
theorem WordCount.waitj : ∀ a b, WordCount.Statement (.waitj a b) := fun _ _ => Nat.le_refl 1
theorem WordCount.call : ∀ a b, WordCount.Statement (.call a b) := fun _ _ => Nat.le_refl 1
theorem WordCount.ret : WordCount.Statement .ret := Nat.le_refl 1
theorem WordCount.loop : ∀ a b c, WordCount.Statement (.loop a b c) := fun _ _ _ => Nat.le_refl 1
theorem WordCount.loops : ∀ a b c d, WordCount.Statement (.loops a b c d) := fun _ _ _ _ => Nat.le_refl 1
theorem WordCount.rot : ∀ a b, WordCount.Statement (.rot a b) := fun _ _ => Nat.le_refl 1
theorem WordCount.lbrk : ∀ a, WordCount.Statement (.lbrk a) := fun _ => Nat.le_refl 1
theorem WordCount.lsave : ∀ a, WordCount.Statement (.lsave a) := fun _ => Nat.le_refl 1
theorem WordCount.lrest : ∀ a, WordCount.Statement (.lrest a) := fun _ => Nat.le_refl 1
theorem WordCount.dqpop : ∀ a b, WordCount.Statement (.dqpop a b) := fun _ _ => Nat.le_refl 1
theorem WordCount.exit : WordCount.Statement .exit := Nat.le_refl 1
theorem WordCount.yield : WordCount.Statement .yield := Nat.le_refl 1
theorem WordCount.ldp : ∀ a b c d e f g, WordCount.Statement (.ldp a b c d e f g) := fun _ _ _ _ _ _ _ => Nat.le_refl 1
theorem WordCount.stp : ∀ a b c d e f g, WordCount.Statement (.stp a b c d e f g) := fun _ _ _ _ _ _ _ => Nat.le_refl 1
theorem WordCount.atp : ∀ a b c d e f, WordCount.Statement (.atp a b c d e f) := fun _ _ _ _ _ _ => Nat.le_refl 1
theorem WordCount.stg : ∀ a b c d e f, WordCount.Statement (.stg a b c d e f) := fun _ _ _ _ _ _ => Nat.le_refl 1
theorem WordCount.atg : ∀ a b c d e f, WordCount.Statement (.atg a b c d e f) := fun _ _ _ _ _ _ => Nat.le_refl 1
theorem WordCount.drainst : ∀ a, WordCount.Statement (.drainst a) := fun _ => Nat.le_refl 1
theorem WordCount.fence : ∀ a b c, WordCount.Statement (.fence a b c) := fun _ _ _ => Nat.le_refl 1
theorem WordCount.invr : ∀ a b c d, WordCount.Statement (.invr a b c d) := fun _ _ _ _ => Nat.le_refl 1
theorem WordCount.afence : ∀ a, WordCount.Statement (.afence a) := fun _ => Nat.le_refl 1
theorem WordCount.pfill : ∀ a b c d, WordCount.Statement (.pfill a b c d) := fun _ _ _ _ => Nat.le_refl 1
theorem WordCount.tcopy : ∀ a b c, WordCount.Statement (.tcopy a b c) := fun _ _ _ => Nat.le_refl 1
theorem WordCount.tcopym : ∀ a b c, WordCount.Statement (.tcopym a b c) := fun _ _ _ => Nat.le_refl 1
theorem WordCount.tfill : ∀ a b c, WordCount.Statement (.tfill a b c) := fun _ _ _ => Nat.le_refl 1
theorem WordCount.tslot : ∀ a b c, WordCount.Statement (.tslot a b c) := fun _ _ _ => Nat.le_refl 1
theorem WordCount.tstore : ∀ a b c, WordCount.Statement (.tstore a b c) := fun _ _ _ => Nat.le_refl 1
theorem WordCount.tgather : ∀ a b c, WordCount.Statement (.tgather a b c) := fun _ _ _ => Nat.le_refl 1
theorem WordCount.tscatter : ∀ a b c, WordCount.Statement (.tscatter a b c) := fun _ _ _ => Nat.le_refl 1
theorem WordCount.tstream : ∀ a b c, WordCount.Statement (.tstream a b c) := fun _ _ _ => Nat.le_refl 1
theorem WordCount.twait : ∀ a b, WordCount.Statement (.twait a b) := fun _ _ => Nat.le_refl 1
theorem WordCount.tquery : ∀ a b c, WordCount.Statement (.tquery a b c) := fun _ _ _ => Nat.le_refl 1
theorem WordCount.mclaim : ∀ a b c, WordCount.Statement (.mclaim a b c) := fun _ _ _ => Nat.le_refl 1
theorem WordCount.mrel : ∀ a b c, WordCount.Statement (.mrel a b c) := fun _ _ _ => Nat.le_refl 1
theorem WordCount.mma : ∀ a b c d e f g, WordCount.Statement (.mma a b c d e f g) := fun _ _ _ _ _ _ _ => Nat.le_refl 1
theorem WordCount.mfence : ∀ a b, WordCount.Statement (.mfence a b) := fun _ _ => Nat.le_refl 1
theorem WordCount.accld : ∀ a b c d e, WordCount.Statement (.accld a b c d e) := fun _ _ _ _ _ => Nat.le_refl 1
theorem WordCount.accst : ∀ a b c d e, WordCount.Statement (.accst a b c d e) := fun _ _ _ _ _ => Nat.le_refl 1
theorem WordCount.accz : ∀ a b c, WordCount.Statement (.accz a b c) := fun _ _ _ => Nat.le_refl 1
theorem WordCount.accwait : ∀ a b, WordCount.Statement (.accwait a b) := fun _ _ => Nat.le_refl 1
theorem WordCount.mquery : ∀ a b c d, WordCount.Statement (.mquery a b c d) := fun _ _ _ _ => Nat.le_refl 1
theorem WordCount.binit : ∀ a b c d e, WordCount.Statement (.binit a b c d e) := fun _ _ _ _ _ => Nat.le_refl 1
theorem WordCount.bjoin : ∀ a b, WordCount.Statement (.bjoin a b) := fun _ _ => Nat.le_refl 1
theorem WordCount.bleave : ∀ a b, WordCount.Statement (.bleave a b) := fun _ _ => Nat.le_refl 1
theorem WordCount.barr : ∀ a b c, WordCount.Statement (.barr a b c) := fun _ _ _ => Nat.le_refl 1
theorem WordCount.bwait : ∀ a b c, WordCount.Statement (.bwait a b c) := fun _ _ _ => Nat.le_refl 1
theorem WordCount.barrw : ∀ a b c, WordCount.Statement (.barrw a b c) := fun _ _ _ => Nat.le_refl 1
theorem WordCount.btwait : ∀ a b c d, WordCount.Statement (.btwait a b c d) := fun _ _ _ _ => Nat.le_refl 1
theorem WordCount.bexpect : ∀ a b c, WordCount.Statement (.bexpect a b c) := fun _ _ _ => Nat.le_refl 1
theorem WordCount.bquery : ∀ a b c d e, WordCount.Statement (.bquery a b c d e) := fun _ _ _ _ _ => Nat.le_refl 1
theorem WordCount.jenq : ∀ a b c d, WordCount.Statement (.jenq a b c d) := fun _ _ _ _ => Nat.le_refl 1
theorem WordCount.jspawn : ∀ a b c, WordCount.Statement (.jspawn a b c) := fun _ _ _ => Nat.le_refl 1
theorem WordCount.jdone : ∀ a b, WordCount.Statement (.jdone a b) := fun _ _ => Nat.le_refl 1
theorem WordCount.jyield : ∀ a, WordCount.Statement (.jyield a) := fun _ => Nat.le_refl 1
theorem WordCount.waitw : ∀ a b c, WordCount.Statement (.waitw a b c) := fun _ _ _ => Nat.le_refl 1
theorem WordCount.jself : ∀ a b c d, WordCount.Statement (.jself a b c d) := fun _ _ _ _ => Nat.le_refl 1
theorem WordCount.msend : ∀ a b c d e f, WordCount.Statement (.msend a b c d e f) := fun _ _ _ _ _ _ => Nat.le_refl 1
theorem WordCount.mrecv : ∀ a b c d e f, WordCount.Statement (.mrecv a b c d e f) := fun _ _ _ _ _ _ => Nat.le_refl 1
theorem WordCount.mprobe : ∀ a b c, WordCount.Statement (.mprobe a b c) := fun _ _ _ => Nat.le_refl 1
theorem WordCount.mcancel : ∀ a b, WordCount.Statement (.mcancel a b) := fun _ _ => Nat.le_refl 1
theorem WordCount.mwake : ∀ a b c d e f, WordCount.Statement (.mwake a b c d e f) := fun _ _ _ _ _ _ => Nat.le_refl 1
theorem WordCount.trap : ∀ a b c, WordCount.Statement (.trap a b c) := fun _ _ _ => Nat.le_refl 1
theorem WordCount.bkpt : ∀ a b c, WordCount.Statement (.bkpt a b c) := fun _ _ _ => Nat.le_refl 1
theorem WordCount.greplay : ∀ a b c, WordCount.Statement (.greplay a b c) := fun _ _ _ => Nat.le_refl 1
theorem WordCount.gkill : ∀ a b, WordCount.Statement (.gkill a b) := fun _ _ => Nat.le_refl 1
theorem WordCount.gstate : ∀ a b c d e, WordCount.Statement (.gstate a b c d e) := fun _ _ _ _ _ => Nat.le_refl 1
theorem WordCount.pgprobe : ∀ a b c, WordCount.Statement (.pgprobe a b c) := fun _ _ _ => Nat.le_refl 1
theorem WordCount.pgmig : ∀ a b c d e, WordCount.Statement (.pgmig a b c d e) := fun _ _ _ _ _ => Nat.le_refl 1
theorem WordCount.pgscrub : ∀ a b, WordCount.Statement (.pgscrub a b) := fun _ _ => Nat.le_refl 1
theorem WordCount.clause : ∀ a b c d, WordCount.Statement (.clause a b c d) := fun _ _ _ _ => Nat.le_refl 1
theorem WordCount.lit : ∀ a, WordCount.Statement (.lit a) := fun _ => Nat.le_refl 1
theorem WordCount.mod : ∀ a b c, WordCount.Statement (.mod a b c) := fun _ _ _ => Nat.le_refl 1
theorem WordCount.prio : ∀ a, WordCount.Statement (.prio a) := fun _ => Nat.le_refl 1
theorem WordCount.definedHint : ∀ a, WordCount.Statement (.definedHint a) := fun _ => Nat.le_refl 1
theorem WordCount.illegalEncoding : ∀ a, WordCount.Statement (.illegalEncoding a) := fun _ => Nat.le_refl 1
theorem WordCount.instructionFetchFill : WordCount.Statement .instructionFetchFill := Nat.zero_le 1
theorem WordCount.registerWrite : ∀ a b, WordCount.Statement (.registerWrite a b) := fun _ _ => Nat.zero_le 1
theorem WordCount.coldReset : WordCount.Statement .coldReset := Nat.zero_le 1
theorem WordCount.recoveryImage : ∀ a, WordCount.Statement (.recoveryImage a) := fun _ => Nat.zero_le 1
theorem WordCount.attestationRequest : ∀ a, WordCount.Statement (.attestationRequest a) := fun _ => Nat.zero_le 1
theorem WordCount.ctxOpen : ∀ a b, WordCount.Statement (.ctxOpen a b) := fun _ _ => Nat.zero_le 1
theorem WordCount.ctxSuspend : ∀ a, WordCount.Statement (.ctxSuspend a) := fun _ => Nat.zero_le 1
theorem WordCount.ctxResume : ∀ a, WordCount.Statement (.ctxResume a) := fun _ => Nat.zero_le 1
theorem WordCount.ctxClose : ∀ a, WordCount.Statement (.ctxClose a) := fun _ => Nat.zero_le 1
theorem WordCount.ctxUpdate : ∀ a b, WordCount.Statement (.ctxUpdate a b) := fun _ _ => Nat.zero_le 1
theorem WordCount.suspendComplete : ∀ a, WordCount.Statement (.suspendComplete a) := fun _ => Nat.zero_le 1
theorem WordCount.zeroingComplete : ∀ a, WordCount.Statement (.zeroingComplete a) := fun _ => Nat.zero_le 1
theorem WordCount.faultRecordAppend : ∀ a, WordCount.Statement (.faultRecordAppend a) := fun _ => Nat.zero_le 1
theorem WordCount.faultMailboxFree : WordCount.Statement .faultMailboxFree := Nat.zero_le 1
theorem WordCount.queueSubmit : ∀ a b, WordCount.Statement (.queueSubmit a b) := fun _ _ => Nat.zero_le 1
theorem WordCount.queuePause : ∀ a, WordCount.Statement (.queuePause a) := fun _ => Nat.zero_le 1
theorem WordCount.queueUnpause : ∀ a, WordCount.Statement (.queueUnpause a) := fun _ => Nat.zero_le 1
theorem WordCount.queueFlush : ∀ a, WordCount.Statement (.queueFlush a) := fun _ => Nat.zero_le 1
theorem WordCount.acceptanceDraw : WordCount.Statement .acceptanceDraw := Nat.zero_le 1
theorem WordCount.jobAccept : ∀ a, WordCount.Statement (.jobAccept a) := fun _ => Nat.zero_le 1
theorem WordCount.jspawnResolve : ∀ a, WordCount.Statement (.jspawnResolve a) := fun _ => Nat.zero_le 1
theorem WordCount.dispatch : WordCount.Statement .dispatch := Nat.zero_le 1
theorem WordCount.placementMailboxGo : ∀ a, WordCount.Statement (.placementMailboxGo a) := fun _ => Nat.zero_le 1
theorem WordCount.coreZeroingComplete : ∀ a, WordCount.Statement (.coreZeroingComplete a) := fun _ => Nat.zero_le 1
theorem WordCount.clusterLaunch : ∀ a, WordCount.Statement (.clusterLaunch a) := fun _ => Nat.zero_le 1
theorem WordCount.budgetExhausted : ∀ a, WordCount.Statement (.budgetExhausted a) := fun _ => Nat.zero_le 1
theorem WordCount.clusterSave : ∀ a, WordCount.Statement (.clusterSave a) := fun _ => Nat.zero_le 1
theorem WordCount.idempotentDiscard : ∀ a, WordCount.Statement (.idempotentDiscard a) := fun _ => Nat.zero_le 1
theorem WordCount.blockRetire : ∀ a, WordCount.Statement (.blockRetire a) := fun _ => Nat.zero_le 1
theorem WordCount.wakeWritePerform : ∀ a, WordCount.Statement (.wakeWritePerform a) := fun _ => Nat.zero_le 1
theorem WordCount.waitwCompare : ∀ a, WordCount.Statement (.waitwCompare a) := fun _ => Nat.zero_le 1
theorem WordCount.activeSetRefill : ∀ a b, WordCount.Statement (.activeSetRefill a b) := fun _ _ => Nat.zero_le 1
theorem WordCount.activeSetLeave : ∀ a b, WordCount.Statement (.activeSetLeave a b) := fun _ _ => Nat.zero_le 1
theorem WordCount.waitjTimeout : ∀ a b c, WordCount.Statement (.waitjTimeout a b c) := fun _ _ _ => Nat.zero_le 1
theorem WordCount.poolPortAccess : ∀ a, WordCount.Statement (.poolPortAccess a) := fun _ => Nat.zero_le 1
theorem WordCount.poolLoadReply : ∀ a, WordCount.Statement (.poolLoadReply a) := fun _ => Nat.zero_le 1
theorem WordCount.remoteStoreAck : ∀ a, WordCount.Statement (.remoteStoreAck a) := fun _ => Nat.zero_le 1
theorem WordCount.serviceRequestArrive : ∀ a, WordCount.Statement (.serviceRequestArrive a) := fun _ => Nat.zero_le 1
theorem WordCount.serviceReply : ∀ a, WordCount.Statement (.serviceReply a) := fun _ => Nat.zero_le 1
theorem WordCount.homeStore : ∀ a, WordCount.Statement (.homeStore a) := fun _ => Nat.zero_le 1
theorem WordCount.storeAck : ∀ a, WordCount.Statement (.storeAck a) := fun _ => Nat.zero_le 1
theorem WordCount.recall : ∀ a, WordCount.Statement (.recall a) := fun _ => Nat.zero_le 1
theorem WordCount.forwardedRead : ∀ a, WordCount.Statement (.forwardedRead a) := fun _ => Nat.zero_le 1
theorem WordCount.visitorFill : ∀ a, WordCount.Statement (.visitorFill a) := fun _ => Nat.zero_le 1
theorem WordCount.atomicAtHome : ∀ a, WordCount.Statement (.atomicAtHome a) := fun _ => Nat.zero_le 1
theorem WordCount.globalAtomicReply : ∀ a, WordCount.Statement (.globalAtomicReply a) := fun _ => Nat.zero_le 1
theorem WordCount.drainOrder : ∀ a, WordCount.Statement (.drainOrder a) := fun _ => Nat.zero_le 1
theorem WordCount.drainAck : ∀ a, WordCount.Statement (.drainAck a) := fun _ => Nat.zero_le 1
theorem WordCount.linkBufferStore : ∀ a b c, WordCount.Statement (.linkBufferStore a b c) := fun _ _ _ => Nat.zero_le 1
theorem WordCount.linkBufferWriteback : ∀ a, WordCount.Statement (.linkBufferWriteback a) := fun _ => Nat.zero_le 1
theorem WordCount.staleGenerationReturn : ∀ a, WordCount.Statement (.staleGenerationReturn a) := fun _ => Nat.zero_le 1
theorem WordCount.storeFaultReport : ∀ a, WordCount.Statement (.storeFaultReport a) := fun _ => Nat.zero_le 1
theorem WordCount.l2splitWrite : ∀ a b, WordCount.Statement (.l2splitWrite a b) := fun _ _ => Nat.zero_le 1
theorem WordCount.l2splitDone : ∀ a, WordCount.Statement (.l2splitDone a) := fun _ => Nat.zero_le 1
theorem WordCount.pageWalk : ∀ a, WordCount.Statement (.pageWalk a) := fun _ => Nat.zero_le 1
theorem WordCount.frameOwnerZeroing : ∀ a, WordCount.Statement (.frameOwnerZeroing a) := fun _ => Nat.zero_le 1
theorem WordCount.walkMailboxDone : ∀ a, WordCount.Statement (.walkMailboxDone a) := fun _ => Nat.zero_le 1
theorem WordCount.walkMailboxFault : WordCount.Statement .walkMailboxFault := Nat.zero_le 1
theorem WordCount.shootdown : ∀ a b, WordCount.Statement (.shootdown a b) := fun _ _ => Nat.zero_le 1
theorem WordCount.shootdownComplete : WordCount.Statement .shootdownComplete := Nat.zero_le 1
theorem WordCount.restripeCheck : ∀ a, WordCount.Statement (.restripeCheck a) := fun _ => Nat.zero_le 1
theorem WordCount.restripePassEnd : ∀ a, WordCount.Statement (.restripePassEnd a) := fun _ => Nat.zero_le 1
theorem WordCount.restripeFinalCopy : ∀ a, WordCount.Statement (.restripeFinalCopy a) := fun _ => Nat.zero_le 1
theorem WordCount.restripeShootdownAck : ∀ a b, WordCount.Statement (.restripeShootdownAck a b) := fun _ _ => Nat.zero_le 1
theorem WordCount.restripeAbort : ∀ a b, WordCount.Statement (.restripeAbort a b) := fun _ _ => Nat.zero_le 1
theorem WordCount.copyDataLand : ∀ a b c, WordCount.Statement (.copyDataLand a b c) := fun _ _ _ => Nat.zero_le 1
theorem WordCount.copyTransferFault : ∀ a b c, WordCount.Statement (.copyTransferFault a b c) := fun _ _ _ => Nat.zero_le 1
theorem WordCount.copyCommandComplete : ∀ a b, WordCount.Statement (.copyCommandComplete a b) := fun _ _ => Nat.zero_le 1
theorem WordCount.mcidReplicaUpdate : ∀ a, WordCount.Statement (.mcidReplicaUpdate a) := fun _ => Nat.zero_le 1
theorem WordCount.mcidRelease : ∀ a b, WordCount.Statement (.mcidRelease a b) := fun _ _ => Nat.zero_le 1
theorem WordCount.streamPrefetch : ∀ a b, WordCount.Statement (.streamPrefetch a b) := fun _ _ => Nat.zero_le 1
theorem WordCount.mmaStart : ∀ a, WordCount.Statement (.mmaStart a) := fun _ => Nat.zero_le 1
theorem WordCount.mmaComplete : ∀ a b, WordCount.Statement (.mmaComplete a b) := fun _ _ => Nat.zero_le 1
theorem WordCount.batchArrival : ∀ a b, WordCount.Statement (.batchArrival a b) := fun _ _ => Nat.zero_le 1
theorem WordCount.accTransferComplete : ∀ a b, WordCount.Statement (.accTransferComplete a b) := fun _ _ => Nat.zero_le 1
theorem WordCount.remoteBarrierOp : ∀ a, WordCount.Statement (.remoteBarrierOp a) := fun _ => Nat.zero_le 1
theorem WordCount.barrierReply : ∀ a, WordCount.Statement (.barrierReply a) := fun _ => Nat.zero_le 1
theorem WordCount.childArrival : ∀ a, WordCount.Statement (.childArrival a) := fun _ => Nat.zero_le 1
theorem WordCount.phaseNotice : ∀ a, WordCount.Statement (.phaseNotice a) := fun _ => Nat.zero_le 1
theorem WordCount.errorArrival : ∀ a, WordCount.Statement (.errorArrival a) := fun _ => Nat.zero_le 1
theorem WordCount.absWaitPoll : ∀ a, WordCount.Statement (.absWaitPoll a) := fun _ => Nat.zero_le 1
theorem WordCount.btwaitTimeout : ∀ a b c, WordCount.Statement (.btwaitTimeout a b c) := fun _ _ _ => Nat.zero_le 1
theorem WordCount.msgHeaderArrive : ∀ a, WordCount.Statement (.msgHeaderArrive a) := fun _ => Nat.zero_le 1
theorem WordCount.msgPull : ∀ a, WordCount.Statement (.msgPull a) := fun _ => Nat.zero_le 1
theorem WordCount.msgDataLand : ∀ a, WordCount.Statement (.msgDataLand a) := fun _ => Nat.zero_le 1
theorem WordCount.msgCompletion : ∀ a, WordCount.Statement (.msgCompletion a) := fun _ => Nat.zero_le 1
theorem WordCount.mwakeAck : ∀ a, WordCount.Statement (.mwakeAck a) := fun _ => Nat.zero_le 1
theorem WordCount.linkEnable : ∀ a, WordCount.Statement (.linkEnable a) := fun _ => Nat.zero_le 1
theorem WordCount.linkQuiesce : ∀ a, WordCount.Statement (.linkQuiesce a) := fun _ => Nat.zero_le 1
theorem WordCount.linkDisable : ∀ a, WordCount.Statement (.linkDisable a) := fun _ => Nat.zero_le 1
theorem WordCount.trainingSuccess : ∀ a, WordCount.Statement (.trainingSuccess a) := fun _ => Nat.zero_le 1
theorem WordCount.trainingFailure : ∀ a, WordCount.Statement (.trainingFailure a) := fun _ => Nat.zero_le 1
theorem WordCount.linkQuiesced : ∀ a, WordCount.Statement (.linkQuiesced a) := fun _ => Nat.zero_le 1
theorem WordCount.replayLimit : ∀ a, WordCount.Statement (.replayLimit a) := fun _ => Nat.zero_le 1
theorem WordCount.crcFailure : ∀ a, WordCount.Statement (.crcFailure a) := fun _ => Nat.zero_le 1
theorem WordCount.timeExchange : ∀ a b c d e, WordCount.Statement (.timeExchange a b c d e) := fun _ _ _ _ _ => Nat.zero_le 1
theorem WordCount.dieResetStart : ∀ a, WordCount.Statement (.dieResetStart a) := fun _ => Nat.zero_le 1
theorem WordCount.dieResetContinue : WordCount.Statement .dieResetContinue := Nat.zero_le 1
theorem WordCount.dbgStop : ∀ a, WordCount.Statement (.dbgStop a) := fun _ => Nat.zero_le 1
theorem WordCount.dbgRelease : ∀ a, WordCount.Statement (.dbgRelease a) := fun _ => Nat.zero_le 1
theorem WordCount.dbgStep : ∀ a b c, WordCount.Statement (.dbgStep a b c) := fun _ _ _ => Nat.zero_le 1
theorem WordCount.dbgDump : ∀ a b c, WordCount.Statement (.dbgDump a b c) := fun _ _ _ => Nat.zero_le 1
theorem WordCount.dbgWrite : ∀ a b c, WordCount.Statement (.dbgWrite a b c) := fun _ _ _ => Nat.zero_le 1
theorem WordCount.stepTimeout : WordCount.Statement .stepTimeout := Nat.zero_le 1
theorem WordCount.stopArrive : ∀ a, WordCount.Statement (.stopArrive a) := fun _ => Nat.zero_le 1
theorem WordCount.traceSample : ∀ a, WordCount.Statement (.traceSample a) := fun _ => Nat.zero_le 1
theorem WordCount.millpondUpdate : ∀ a, WordCount.Statement (.millpondUpdate a) := fun _ => Nat.zero_le 1
theorem WordCount.clockCheck : WordCount.Statement .clockCheck := Nat.zero_le 1
theorem WordCount.currentLimit : ∀ a, WordCount.Statement (.currentLimit a) := fun _ => Nat.zero_le 1
theorem WordCount.correctedError : ∀ a b c, WordCount.Statement (.correctedError a b c) := fun _ _ _ => Nat.zero_le 1
theorem WordCount.selftestVerdict : ∀ a b c d, WordCount.Statement (.selftestVerdict a b c d) := fun _ _ _ _ => Nat.zero_le 1
theorem WordCount.selftestAccept : WordCount.Statement .selftestAccept := Nat.zero_le 1
theorem WordCount.currentLimitEnd : ∀ a, WordCount.Statement (.currentLimitEnd a) := fun _ => Nat.zero_le 1
theorem WordCount.peerRequest : ∀ a b c d e, WordCount.Statement (.peerRequest a b c d e) := fun _ _ _ _ _ => Nat.zero_le 1
theorem WordCount.afenceDieAck : ∀ a b, WordCount.Statement (.afenceDieAck a b) := fun _ _ => Nat.zero_le 1
theorem WordCount.pgscrubScanDone : ∀ a, WordCount.Statement (.pgscrubScanDone a) := fun _ => Nat.zero_le 1
theorem WordCount.devnumWrite : ∀ a, WordCount.Statement (.devnumWrite a) := fun _ => Nat.zero_le 1

end Sys2Proof.Laws
end

