-- ==== Sys2Proof/Tests/Slice0.lean ====
section
/-! SUPPORT. Tests: words written out from the encoding tables, ill-formed terms, a state that meets the hypotheses of
each statement, and single steps whose results are worked out by hand from the rules. -/
namespace Sys2Proof.Tests
open Sys2Proof Sys2Proof.Machine
set_option Elab.async false

/-! ## Words (03 R64 to R67, spec/opcode_table.json): every field holds a value of its own -/

theorem test_decode_front_end : ([
  (0x015DD8C0, .sadd 23 29 35 0),
  (0x020883A0, .ssub 2 8 14 1),
  (0x03B73E40, .smul 45 51 57 0),
  (0x0461E920, .smulh 24 30 36 1 0),
  (0x050C93C0, .sand 3 9 15 0),
  (0x06BB4EA0, .sor 46 52 58 1),
  (0x0765F940, .sxor 25 31 37 0),
  (0x0810A43C, .sshl 4 10 16 1 28),
  (0x09BF5EC7, .sshr 47 53 59 0 7),
  (0x0A6A09B2, .ssar 26 32 38 1 18),
  (0x0B14B441, .smin 5 11 17 0 1),
  (0x0CC36F20, .smax 48 54 60 1 0),
  (0x0D6219C3, .scmp 3 33 39 0 3),
  (0x0E18C480, .ssel 6 12 18 0),
  (0x0FC77020, .sclz 49 55 1),
  (0x10722000, .spop 28 34 0),
  (0x111C038D, .saddi 7 909),
  (0x12C803B8, .sli 50 952),
  (0x137403E3, .slih 29 995),
  (0x1420E008, .sldp 8 14 0 1),
  (0x15033E70, .sstp 51 57 3),
  (0x160003DE, .sj 990),
  (0x1724048F, .sbz 9 1167),
  (0x18D004BA, .sbnz 52 1210),
  (0x1900045F, .scall 1119),
  (0x1A000000, .sret),
  (0x1BD40000, .stime 53),
  (0x1C800566, .smfsy 32 1382),
  (0x1D2C0591, .smtsy 11 1425),
  (0x1E000000, .sexit),
  (0x1F338000, .dqpush 1 39),
  (0x2000058C, .swait 1420)
  ] : List (Word × Instr)).all (fun e => decodeWord e.1 = e.2 ∧ encode e.2 = [e.1]) = true := by decide +kernel

theorem test_decode_vector : ([
  (0x30EF61C9, .vadd 7 61 67 73),
  (0x315A3774, .vsub 2 104 110 116),
  (0x32A4CC9F, .vmul 5 19 25 31),
  (0x330FA24A, .vmulhI 0 62 68 74),
  (0x347A77F5, .vmulhN 3 105 111 117),
  (0x35C50D20, .vmad 6 20 26 32),
  (0x362FE2CB, .vand 1 63 69 75),
  (0x379AB876, .vor 4 106 112 118),
  (0x38E54DA1, .vxor 7 21 27 33),
  (0x3950234C, .vandn 2 64 70 76),
  (0x3ABAF8F7, .vshl 5 107 113 119),
  (0x3B058E22, .vshr 0 22 28 34),
  (0x3C7063CD, .vsar 3 65 71 77),
  (0x3DDB3978, .vminI 6 108 114 120),
  (0x3E25CEA3, .vminN 1 23 29 35),
  (0x3F90A44E, .vmaxI 4 66 72 78),
  (0x40FB79F9, .vmaxN 7 109 115 121),
  (0x41460F00, .vabs 2 24 30),
  (0x42B0E480, .vclz 5 67 73),
  (0x431BBA00, .vpop 0 110 116),
  (0x44664F80, .vbrev 3 25 31),
  (0x45D12550, .vbfe 6 68 74 80),
  (0x463BFAFB, .vbfi 1 111 117 123),
  (0x47869026, .vaddi 4 26 32 38),
  (0x48F14ACB, .vli 7 69 2763),
  (0x495C3B00, .vmov 2 112 118),
  (0x4AAC53AD, .vcmp 5 3 1 39 45)
  ] : List (Word × Instr)).all (fun e => decodeWord e.1 = e.2 ∧ encode e.2 = [e.1]) = true := by decide +kernel

theorem test_decode_vector_reductions : ([
  (0x4B11A652, .vsel 0 70 76 82),
  (0x4C7C4000, .vlane 3 113),
  (0x4DC71128, .vshflIdx 6 28 34 40),
  (0x4E31E6D3, .vshflUp 1 71 77 83),
  (0x4F9CBC7E, .vshflDown 4 114 120 126),
  (0x50E751A9, .vshflXor 7 29 35 41),
  (0x51520300, .vballot 2 72 6),
  (0x52AE4380, .vvote 5 3 9 7),
  (0x53079200, .vredadd 0 30 36),
  (0x54726780, .vredmin 3 73 79 0),
  (0x55DD3D01, .vredmax 6 116 122 1),
  (0x5627D287, .vscan 1 31 37 0 1 3),
  (0x57880006, .pand 4 2 0 6),
  (0x58F40181, .por 7 5 3 1),
  (0x59400304, .pxor 2 0 6 4),
  (0x5AAC0080, .pnot 5 3 1),
  (0x5B1D9F08, .vmfsy 0 118 0 1 3848),
  (0x5C684001, .vtime 3 33 1)
  ] : List (Word × Instr)).all (fun e => decodeWord e.1 = e.2 ∧ encode e.2 = [e.1]) = true := by decide +kernel

theorem test_decode_float : ([
  (0x60D32958, .fadd 6 76 82 88),
  (0x613DFE83, .fsub 1 119 125 3),
  (0x6288942E, .fmul 4 34 40 46),
  (0x63F369D9, .ffma 7 77 83 89),
  (0x645E3F04, .ffms 2 120 126 4),
  (0x65A8D4AF, .fnma 5 35 41 47),
  (0x6613AA5A, .fmin 0 78 84 90),
  (0x677E7F85, .fmax 3 121 127 5),
  (0x68C91500, .fabs 6 36 42),
  (0x6933EA80, .fneg 1 79 85),
  (0x6A88030C, .fcmp 4 2 0 6 12),
  (0x6BE95580, .fclass 7 37 43),
  (0x6C542B01, .fround 2 80 86 1),
  (0x6DBEC0BD, .cvt 5 123 1 7 5),
  (0x6E099632, .cvtx 0 38 44 50),
  (0x6F746BDD, .hadd2F16 3 81 87 93),
  (0x70DF0108, .hmul2F16 6 124 2 8),
  (0x7129D6B3, .hfma2F16 1 39 45 51),
  (0x7294AC5E, .hadd2Bf16 4 82 88 94),
  (0x73FF4189, .hmul2Bf16 7 125 3 9)
  ] : List (Word × Instr)).all (fun e => decodeWord e.1 = e.2 ∧ encode e.2 = [e.1]) = true := by decide +kernel

theorem test_decode_float_special : ([
  (0x744A1734, .hfma2Bf16 2 40 46 52),
  (0x75B4ECDF, .dot4E4m3 5 83 89 95),
  (0x761F820A, .dot4E5m2 0 126 4 10),
  (0x776A57B5, .dot2Bf16 3 41 47 53),
  (0x78D52D60, .idp4I8 6 84 90 96),
  (0x793FC280, .frcp 1 127 5),
  (0x7A8A9800, .frsq 4 42 48),
  (0x7BF56D80, .fsqrt 7 85 91),
  (0x7C400300, .fexp2 2 0 6),
  (0x7DAAD880, .flog2 5 43 49),
  (0x7E15AE00, .fsinp 0 86 92),
  (0x7F604380, .fcosp 3 1 7),
  (0x80CB1938, .twid 6 44 50 56),
  (0x8135EEE3, .bfly2 1 87 93 99),
  (0x8280840E, .cmul 4 2 8 14),
  (0x83EB59B9, .cmad 7 45 51 57),
  (0x84562F00, .fredadd 2 88 94),
  (0x85A0C480, .fredmax 5 3 9),
  (0x860B9A00, .fredmin 0 46 52)
  ] : List (Word × Instr)).all (fun e => decodeWord e.1 = e.2 ∧ encode e.2 = [e.1]) = true := by decide +kernel

theorem test_decode_control : ([
  (0x90601459, .br 3 5209),
  (0x91C01484, .bru 6 5252),
  (0x92201780, .brx 1 47),
  (0x93000000, .join),
  (0x94E01505, .waitj 7 5381),
  (0x95401530, .call 2 5424),
  (0x96000000, .ret),
  (0x9703160C, .loop 0 6 5644),
  (0x98D8F6BD, .loops 3 49 3 5821),
  (0x9915805C, .rot 86 92),
  (0x9A200000, .lbrk 1),
  (0x9B001600, .lsave 44),
  (0x9C002B80, .lrest 87),
  (0x9D420000, .dqpop 2 8),
  (0x9E000000, .exit),
  (0x9F000000, .yield)
  ] : List (Word × Instr)).all (fun e => decodeWord e.1 = e.2 ∧ encode e.2 = [e.1]) = true := by decide +kernel

theorem test_decode_memory : ([
  (0xA06247BB, .ldp 3 9 15 1 3 0 3),
  (0xA1CD1D16, .stp 6 52 58 0 2 1 2),
  (0xA237F2DF, .atp 1 95 101 11 1 3),
  (0xA3828852, .stg 4 10 16 2 4 2),
  (0xA4ED5D8D, .atg 7 53 59 1 1 1),
  (0xA5400000, .drainst 2),
  (0xA6A0000D, .fence 5 3 1),
  (0xA70D9E02, .invr 0 54 60 2),
  (0xA8600000, .afence 3),
  (0xA9C30904, .pfill 6 12 18 1)
  ] : List (Word × Instr)).all (fun e => decodeWord e.1 = e.2 ∧ encode e.2 = [e.1]) = true := by decide +kernel

theorem test_decode_copy : ([
  (0xB03BFA00, .tcopy 1 55 61),
  (0xB1915000, .tcopym 4 34 40),
  (0xB2E6A600, .tfill 7 13 19),
  (0xB35C7C00, .tslot 2 56 62),
  (0xB4B1D200, .tstore 5 35 41),
  (0xB5072800, .tgather 0 14 20),
  (0xB67CFE00, .tscatter 3 57 63),
  (0xB7D25400, .tstream 6 36 42),
  (0xB820000F, .twait 1 15),
  (0xB99D00C0, .tquery 4 58 192)
  ] : List (Word × Instr)).all (fun e => decodeWord e.1 = e.2 ∧ encode e.2 = [e.1]) = true := by decide +kernel

theorem test_decode_matrix : ([
  (0xC0F95AEB, .mclaim 7 101 6891),
  (0xC1400816, .mrel 2 16 22),
  (0xC2BD82F5, .mma 5 59 1 7 5 0 1),
  (0xC3000026, .mfence 0 38),
  (0xC4644BD3, .accld 3 17 23 5 3),
  (0xC5CF210E, .accst 6 60 66 0 14),
  (0xC620007D, .accz 1 7 13),
  (0xC7801B92, .accwait 4 7058),
  (0xC8EF4301, .mquery 7 61 3 1)
  ] : List (Word × Instr)).all (fun e => decodeWord e.1 = e.2 ∧ encode e.2 = [e.1]) = true := by decide +kernel

theorem test_decode_barrier_job : ([
  (0xD054007A, .binit 2 40 0 1 58),
  (0xD1A00013, .bjoin 5 19),
  (0xD200003E, .bleave 0 62),
  (0xD374802F, .barr 3 41 47),
  (0xD4CA3400, .bwait 6 20 26),
  (0xD53F8005, .barrw 1 63 5),
  (0xD69561F6, .btwait 4 42 48 502),
  (0xD7EAB600, .bexpect 7 21 27),
  (0xD8400D02, .bquery 2 0 6 1 2),
  (0xD9B5E237, .jenq 5 43 49 55),
  (0xDA0B3800, .jspawn 0 22 28),
  (0xDB608000, .jdone 3 1),
  (0xDCC00000, .jyield 6),
  (0xDD2BBA00, .waitw 1 23 29),
  (0xDE81000E, .jself 4 2 0 14)
  ] : List (Word × Instr)).all (fun e => decodeWord e.1 = e.2 ∧ encode e.2 = [e.1]) = true := by decide +kernel

theorem test_decode_message : ([
  (0xE0F6E645, .msend 7 45 51 0 1 5),
  (0xE14C3CB0, .mrecv 2 24 30 1 0 48),
  (0xE2A19200, .mprobe 5 3 9),
  (0xE3170000, .mcancel 0 46),
  (0xE46CBE71, .mwake 3 25 31 0 1 49)
  ] : List (Word × Instr)).all (fun e => decodeWord e.1 = e.2 ∧ encode e.2 = [e.1]) = true := by decide +kernel

theorem test_decode_system : ([
  (0xE8C201CA, .trap 6 4 458),
  (0xE93781F5, .bkpt 1 47 501),
  (0xEA8D0000, .greplay 4 26 0),
  (0xEBE28000, .gkill 7 5),
  (0xEC586C02, .gstate 2 48 54 0 2),
  (0xEDADC200, .pgprobe 5 27 33),
  (0xEE031918, .pgmig 0 6 12 1 24),
  (0xEF788000, .pgscrub 3 49)
  ] : List (Word × Instr)).all (fun e => decodeWord e.1 = e.2 ∧ encode e.2 = [e.1]) = true := by decide +kernel

theorem test_decode_hint : ([
  (0xF0016C28, .clause 22 12 2 8),
  (0xF1002041, .lit 8257),
  (0xF2000004, .mod 0 1 0),
  (0xF3000003, .prio 3)
  ] : List (Word × Instr)).all (fun e => decodeWord e.1 = e.2 ∧ encode e.2 = [e.1]) = true := by decide +kernel

/-! ## Ill-formed terms: one for each check, beside the last value the rule allows -/

/-- Comparison codes, status register numbers, operators, counts and selectors of the arithmetic families (07, 08, 09). -/
theorem test_ill_formed_arithmetic :
    [Instr.scmp 1 2 3 0 10, .smfsy 1 0x19, .smtsy 1 0x19, .vcmp 0 1 10 2 3, .vvote 0 1 4 2, .vscan 0 1 2 0 0 3, .vmfsy 0 1 0 0 0x19, .vmfsy 0 1 0 1 7,
     .fcmp 0 1 8 2 3, .cvt 0 1 2 12 0, .cvt 0 1 2 3 1, .cvt 0 1 2 7 2, .cvt 0 1 2 11 4].all (fun i => !i.wellFormed) &&
    [Instr.scmp 1 2 3 0 9, .smfsy 1 0x18, .smtsy 1 0x18, .vcmp 0 1 9 2 3, .vvote 0 1 3 2, .vscan 0 1 2 0 0 2, .vmfsy 0 1 0 0 0x18, .vmfsy 0 1 0 1 8,
     .fcmp 0 1 7 2 3, .cvt 0 1 2 3 0, .cvt 0 1 2 7 1, .cvt 0 1 2 11 3].all Instr.wellFormed := by decide

/-- Offsets, rotations, atomic operators and qualifiers of the control, pool and global families (05, 10). -/
theorem test_ill_formed_control_and_memory :
    [Instr.loop 0 1 0, .loops 0 1 0 0, .rot 1 0, .rot 1 33, .atp 0 1 2 14 0 0, .stg 0 1 2 3 4 0, .stg 0 1 2 2 2 0, .atg 0 1 2 14 0 0,
     .fence 0 0 0, .fence 0 4 0, .invr 0 1 2 1].all (fun i => !i.wellFormed) &&
    [Instr.loop 0 1 1, .loops 0 1 0 1, .rot 1 1, .rot 1 32, .atp 0 1 2 13 0 0, .stg 0 1 2 3 3 0, .stg 0 1 2 2 1 0, .atg 0 1 2 13 0 0,
     .fence 0 1 0, .fence 0 3 0, .invr 0 1 2 2].all Instr.wellFormed := by decide

/-- Descriptors past s60, selectors, counts and modes of the copy, matrix, barrier and job families (11 to 14), a CLAUSE of no length,
and words that are not of the kind they stand for. -/
theorem test_ill_formed_engines_and_words :
    [Instr.tcopy 1 61 2, .tcopym 1 61 2, .tfill 1 61 2, .tslot 1 61 2, .tstore 1 61 2, .tgather 1 61 2, .tscatter 1 61 2, .tstream 1 61 2,
     .tquery 0 1 3, .mclaim 1 2 0, .mclaim 1 2 65, .mrel 0 1 0, .mma 1 2 3 4 7 0 0, .accld 0 1 2 7 3, .accst 0 1 2 7 3, .accz 0 7 3,
     .bquery 0 1 2 0 6, .jself 0 1 0 4, .clause 0 0 0 0, .definedHint 0xF3FFFFFF, .illegalEncoding 0x30000000].all (fun i => !i.wellFormed) &&
    [Instr.tcopy 1 60 2, .tcopym 1 60 2, .tfill 1 60 2, .tslot 1 60 2, .tstore 1 60 2, .tgather 1 60 2, .tscatter 1 60 2, .tstream 1 60 2,
     .tquery 0 1 2, .mclaim 1 2 1, .mclaim 1 2 64, .mrel 0 1 1, .mma 1 2 3 4 6 0 0, .accld 0 1 2 6 3, .accst 0 1 2 6 3, .accz 0 6 3,
     .bquery 0 1 2 0 5, .jself 0 1 0 3, .clause 0 1 0 0, .definedHint 0xF4000000, .illegalEncoding 0].all Instr.wellFormed := by decide


/-! ## Witnesses: for each statement with hypotheses, states and operands that meet them together, clause by clause.
Each is a small state: a block of one group on core 0 of the reset machine, with what the clause needs changed. -/

/-- A group issues. -/
def gS : State := { placeWord State.reset 0x30000000 with cur := ⟨0, .grp 0, 0⟩ }

/-- A front-end issues. -/
def fS : State := { placeWord State.reset 0x01000000 with cur := ⟨0, .fe, 0⟩ }

/-- The group that issues, with its split or itself changed. -/
def gSpl (f : Split → Split) : State := modSpl gS 0 0 0 f

/-- The group that issues, changed. -/
def gGrp (f : Group → Group) : State := modGrp gS 0 0 f

/-- The front-end that issues, changed. -/
def fFe (f : FrontEnd → FrontEnd) : State := modFe fS 0 f

/-- A condition on the group that issues in a state. -/
def onGrp (s : State) (f : GC → Bool) : Bool :=
  match groupCtx s with
  | some c => f c
  | none => false

/-- A condition on the front-end that issues in a state. -/
def onFe (s : State) (f : FC → Bool) : Bool :=
  match feCtx s with
  | some c => f c
  | none => false

theorem onGrp_spec {s : State} {f : GC → Bool} (h : onGrp s f = true) : ∃ c, groupCtx s = some c ∧ f c = true := by
  unfold onGrp at h; split at h
  · exact ⟨_, by assumption, h⟩
  · cases h

theorem onFe_spec {s : State} {f : FC → Bool} (h : onFe s f = true) : ∃ c, feCtx s = some c ∧ f c = true := by
  unfold onFe at h; split at h
  · exact ⟨_, by assumption, h⟩
  · cases h

/-- RegsLegal as a test. -/
def legal (c : GC) (dests srcs : List (Nat × Nat)) (res : Shape) : Bool :=
  ((dests ++ srcs).all fun r => r.1 + r.2 ≤ declared c.blk.hdr)
    && (dests.all fun r => (List.range r.2).all fun j => shapeRank res ≤ shapeRank (vtag c (r.1 + j))) && c.blk.banksLost.isEmpty

theorem legal_spec {c : GC} {a b : List (Nat × Nat)} {r : Shape} (h : legal c a b r = true) : RegsLegal c a b r := by
  simp only [legal, Bool.and_eq_true, List.all_eq_true, decide_eq_true_eq, List.mem_range, List.isEmpty_iff] at h
  exact ⟨h.1.1, h.1.2, h.2⟩

/-- PoolReach as a test. -/
def reach (s : State) (core align n : Nat) (ls : List (Nat × Word)) : Bool :=
  ls.all fun e => e.2.toNat % align = 0 && (poolTarget s core e.2 n).isSome && !poolCut s core e.2 n

theorem reach_spec {s : State} {core align n : Nat} {ls : List (Nat × Word)} (h : reach s core align n ls = true) :
    PoolReach s core align n ls := by
  simp only [reach, List.all_eq_true, Bool.and_eq_true, decide_eq_true_eq, Bool.not_eq_true'] at h
  exact ⟨fun e he => (h e he).1.1, fun e he => (h e he).1.2, fun e he => (h e he).2⟩

/-- SharedIssues for a group as a test. -/
def sharedG (s : State) (c : GC) (lit : Bool) (regs : List (Nat × Nat)) (fld : Field23) : Bool :=
  (lit || c.spl.pre.lit.isNone) && !regsPending s c (regNames regs) && (regs.all fun r => r.1 + r.2 ≤ declared c.blk.hdr)
    && ((regNames regs).all fun n => vtag c n = .uniform) && c.blk.banksLost.isEmpty
    && (match fld with
      | .dest p => predStaged c p.toNat = false
      | .guard g => guarded c g.toNat = c.spl.lanes && c.spl.lanes ≠ 0)

theorem sharedG_spec {s : State} {c : GC} {lit : Bool} {regs : List (Nat × Nat)} {sregs : List Nat} {fld : Field23}
    (hc : groupCtx s = some c) (h : sharedG s c lit regs fld = true) : SharedIssues s (.grp c) lit regs sregs fld := by
  simp only [sharedG, Bool.and_eq_true, List.all_eq_true, decide_eq_true_eq, Bool.or_eq_true, Option.isNone_iff_eq_none,
    Bool.not_eq_true', List.isEmpty_iff] at h
  obtain ⟨⟨⟨⟨⟨h1, h2⟩, h3⟩, h4⟩, h5⟩, h6⟩ := h
  refine ⟨hc, h1, h2, h3, h4, h5, ?_⟩
  cases fld with
  | dest p => exact of_decide_eq_true h6
  | guard g => simpa [WholeSplit] using h6

/-- SharedIssues for a front-end as a test. -/
def sharedF (s : State) (c : FC) (lit : Bool) (sregs : List Nat) (fld : Field23) : Bool :=
  (lit || c.blk.fe.pre.lit.isNone) && !sregsPending s c sregs
    && (match fld with
      | .dest _ => true
      | .guard g => fpred c g.toNat)

theorem sharedF_spec {s : State} {c : FC} {lit : Bool} {regs : List (Nat × Nat)} {sregs : List Nat} {fld : Field23}
    (hc : feCtx s = some c) (h : sharedF s c lit sregs fld = true) : SharedIssues s (.fe c) lit regs sregs fld := by
  simp only [sharedF, Bool.and_eq_true, Bool.or_eq_true, Option.isNone_iff_eq_none, Bool.not_eq_true'] at h
  obtain ⟨⟨h1, h2⟩, h3⟩ := h
  refine ⟨hc, h1, h2, ?_⟩
  cases fld with
  | dest p => trivial
  | guard g => exact h3

/-- WordsDecode: the first and last opcodes of each unassigned range. -/
theorem test_witness_WordsDecode : [0x00, 0x21, 0x2F, 0x5D, 0x5F, 0x87, 0x8F, 0xAA, 0xAF, 0xBA, 0xBF, 0xC9, 0xCF, 0xDF, 0xE5, 0xE7].all
    (fun op => decodeWord (BitVec.ofNat 32 (op * 2 ^ 24 + 1)) = .illegalEncoding (BitVec.ofNat 32 (op * 2 ^ 24 + 1))) &&
    [0xF4, 0xFF].all (fun op => decodeWord (BitVec.ofNat 32 (op * 2 ^ 24 + 1)) = .definedHint (BitVec.ofNat 32 (op * 2 ^ 24 + 1))) := by
  decide +kernel

/-- DecodeEncodeRoundTrip: operands of all ones. -/
theorem test_witness_DecodeEncodeRoundTrip : (Instr.vadd 7 127 127 127).keepsWord ∧ encode (.vadd 7 127 127 127) = [0x30FFFFFF] := by
  decide +kernel

/-- StepRunsDecodedInstruction, a group: its turn issues the word at its PC. -/
theorem test_witness_StepRunsDecodedInstruction_group :
    let s := placeWord State.reset 0x30000000
    let t : Turn := { dt := 4, act := .issue ⟨0, .grp 0, 0⟩ }
    let u : State := { tick t.dt (restOf s) with cur := ⟨0, .grp 0, 0⟩ }
    let v := modGrp u 0 0 mergeSplits
    (s.agenda.head? = some t) ∧ (getBlk u 0).any (fun b => b.launched && (tfind 0 b.groups).any fun r =>
      r.run = .active && stopAllows b (.grp 0) r.stopped true (grpAtBoundary r) && r.admitted + 4 ≤ u.clk.cycle && !groupHeld v 0 0 r && !groupLoses v 0 0 b r && !splitLoses v 0 r) &&
    !throttled u 0 && onGrp v (fun c => c.spl.wait = .none && decide (c.spl.busyUntil ≤ v.clk.cycle) && inCode c.blk c.spl.pc && atBoundary c.spl.pre &&
      (fetchWord v 0 c.blk c.spl.pc).any fun w => !spawnHolds v ⟨0, .grp 0⟩ (decodeWord w)) := by decide +kernel

/-- StepRunsDecodedInstruction, a front-end. -/
theorem test_witness_StepRunsDecodedInstruction_frontEnd :
    let s := placeWord State.reset 0x01000000
    let t : Turn := { dt := 4, act := .issue ⟨0, .fe, 0⟩ }
    let u : State := { tick t.dt (restOf s) with cur := ⟨0, .fe, 0⟩ }
    (s.agenda.head? = some t) ∧ (getBlk u 0).any (fun b => b.launched && (b.fe.run = .ready || b.fe.run = .active || b.fe.run = .waiting)
      && stopAllows b .fe b.fe.stopped (atBoundary b.fe.pre) true && b.fe.wait = .none &&
      decide (b.fe.issuedAt ≠ some u.clk.cycle) && onFe u fun c => inCode c.blk c.blk.fe.pc && (fetchWord u 0 c.blk c.blk.fe.pc).any fun w =>
        !spawnHolds u ⟨0, .fe⟩ (decodeWord w)) := by decide +kernel

/-- An agenda of one turn. -/
def turnS (a : Act) : State := { State.reset with agenda := [{ dt := 1, act := a }] }

/-- StepRunsDecodedInstruction, the other turns: an empty agenda, an event, a row with an encoding, a reset step, an eviction,
an upset. -/
theorem test_witness_StepRunsDecodedInstruction_turns : State.reset.agenda = [] ∧
    encode .dispatch = [] ∧ (turnS (.event .dispatch)).agenda.head? = some { dt := 1, act := .event .dispatch } ∧
    (match exec .dispatch (tick 1 (restOf (turnS (.event .dispatch)))) with
      | .next _ => true
      | _ => false) = true ∧
    encode .join ≠ [] ∧ (turnS (.event .join)).agenda.head? = some { dt := 1, act := .event .join } ∧
    (turnS .resetStep).agenda.head? = some { dt := 1, act := .resetStep } ∧
    (turnS (.evict 0 false 0)).agenda.head? = some { dt := 1, act := .evict 0 false 0 } ∧
    (turnS (.upset 0)).agenda.head? = some { dt := 1, act := .upset 0 } ∧
    (turnS (.upsetCopy 0 0 0)).agenda.head? = some { dt := 1, act := .upsetCopy 0 0 0 } ∧
    (turnS (.upsetBuffer 0 0)).agenda.head? = some { dt := 1, act := .upsetBuffer 0 0 } ∧
    (turnS (.upsetMeta 0)).agenda.head? = some { dt := 1, act := .upsetMeta 0 } := by decide +kernel

/-- StepKeepsCanonicalMemory and StepKeepsControlsLegal: the state after reset, whose next step is a cycle that passes. -/
theorem test_witness_StepKeeps : Memory.wf State.reset.mem ∧ controlsLegal State.reset ∧ step State.reset =
    .next (settle (tick 1 State.reset)) := ⟨by decide +kernel, by decide +kernel, rfl⟩

/-- PreciseFaultIsTaken, ThreadClassIsEnforced: both kinds of thread issue, and the first and last opcodes of each class. -/
theorem test_witness_PreciseFaultIsTaken : onGrp gS (fun _ => true) ∧ onFe fS (fun _ => true) := by decide +kernel

theorem test_witness_ThreadClassIsEnforced : onGrp gS (fun _ => true) ∧ onFe fS (fun _ => true) ∧
    ([(.sadd 1 2 3 0, 0x01), (.swait 0, 0x20), (.tcopy 1 2 3, 0xB0), (.tquery 0 1 0, 0xB9),
      (.vadd 0 1 2 3, 0x30), (.vtime 0 1 0, 0x5C), (.fadd 0 1 2 3, 0x60), (.fredmin 0 1 2, 0x86), (.br 1 2, 0x90), (.yield, 0x9F),
      (.ldp 0 1 2 2 0 0 0, 0xA0), (.pfill 0 1 2 0, 0xA9), (.mclaim 1 2 3, 0xC0), (.mquery 0 1 0 1, 0xC8)] : List (Instr × Nat)).all (fun e =>
        e.1.keepsWord && (encode e.1).any fun w => opcodeOf w = e.2) := by decide +kernel

/-- ScalarFrames, VectorFrames: an addition, and a floating-point addition, complete. -/
theorem test_witness_Frames : feTarget (.sadd 1 2 3 0) = some (some 1, none) ∧
    onFe fS (fun c => (match exec (.sadd 1 2 3 0) fS with
      | .next t => (getBlk t 0).any fun b => b.fe.run = c.blk.fe.run
      | _ => false)) ∧
    grpTarget (.fadd 0 40 41 42) = some ([40], none, true) ∧
    onGrp gS (fun c => (match exec (.fadd 0 40 41 42) gS with
      | .next t => (getGrp t 0 0).any fun r => r.run = c.grp.run
      | _ => false)) := by decide +kernel

/-- ScalarRegisterResults, ScalarCompareWritesPredicate: the highest registers; a LIT where one extends the row. -/
theorem test_witness_ScalarResults : onFe fS (fun c => !sregsPending fS c [63, 63, 63] && c.blk.fe.pre.lit.isNone) ∧
    onFe (fFe fun e => { e with pre := { lit := some 0xFFFFFF } }) (fun c =>
      !sregsPending (fFe fun e => { e with pre := { lit := some 0xFFFFFF } }) c [63] && c.blk.fe.pre.lit = some 0xFFFFFF) := by decide +kernel

/-- ScalarZeroIsHardwired: a block whose registers are in canonical form. -/
theorem test_witness_ScalarZeroIsHardwired : (getBlk fS 0).any fun b => Table.wf 0 b.fe.regs := by decide +kernel

/-- ScalarControlCompletes: stacks of 0, 7 and 8 entries, an empty and a full queue, flags at zero. -/
theorem test_witness_ScalarControlCompletes :
    onFe fS (fun c => !sregsPending fS c [63] && c.blk.fe.pre.lit.isNone && c.blk.fe.rstack.isEmpty && queueUsed c.blk = 0
      && (spawnOf fS ⟨0, .fe⟩).isNone && (List.range 12).all fun n => tgetD 0 n c.blk.fe.flags = 0) ∧
    onFe (fFe fun e => { e with rstack := List.replicate 7 0x40 }) (fun c => c.blk.fe.rstack.length = 7) ∧
    onFe (fFe fun e => { e with rstack := List.replicate 8 0x40 }) (fun c => 8 ≤ c.blk.fe.rstack.length) ∧
    onFe (modBlk fS 0 fun b => { b with dqTail := 127 }) (fun c => queueUsed c.blk = 127) ∧
    onFe (modBlk fS 0 fun b => { b with dqTail := 128 }) (fun c => queueUsed c.blk = 128) ∧
    fePoolIdle fS 0 := by decide +kernel

/-- VectorIntegerResults, FloatResults, PredicateResults: general destinations and sources, the last registers declared;
every predicate but p0 may be written, and p4 is staged under a pipelined level. -/
theorem test_witness_VectorResults : onGrp gS (fun c => !regsPending gS c [79, 78, 77] && c.spl.pre.lit.isNone
      && legal c (ones [79]) (ones [78, 77, 79]) .general && legal c (ones [79]) (ones [78, 77, 79]) .affine
      && legal c (ones [79]) (ones [78, 77, 79]) .uniform && legal c [] (ones [78, 77]) .uniform && !predStaged c 7) ∧
    onGrp (gSpl fun x => { x with pre := { lit := some 0 } }) (fun c => c.spl.pre.lit = some 0) ∧
    onGrp (gSpl fun x => { x with levels := [{ count := 4, start := 0x40, stop := 0x48, iter := 0, stages := 4, wbase := 0, wsize := 0, woff := 0 }] })
      (fun c => predStaged c 4 && predStaged c 7 && !predStaged c 3) ∧
    [(Instr.vcmp 0 1 0 78 77), .vcmp 0 1 9 78 77, .fcmp 0 1 0 78 77, .vvote 0 1 3 2, .cvt 0 79 78 0 0].all Instr.wellFormed := by
  decide +kernel

/-- VectorSelectAndScanResults: a general destination, and a uniform one under a predicate that is alike in the lanes. -/
theorem test_witness_VectorSelectAndScanResults : onGrp gS (fun c => !regsPending gS c [79, 78, 77] && c.spl.pre.lit.isNone
      && legal c (ones [79]) (ones [78, 77]) .general && vtag c 79 = .general) ∧
    onGrp gS (fun c => isUniformPred c 0 && vtag c 31 = .uniform && legal c (ones [31]) (ones [30, 29]) .uniform
      && lanesOf c.spl.lanes = 0 :: (List.range 31).map (· + 1)) := by decide +kernel

/-- SystemRegisterAccess: the numbers at the ends of each clause, with and without privilege; of VMFSY one that is listed, one that is
not, and a CLR of another register. -/
theorem test_witness_SystemRegisterAccess : onFe fS (fun c => !sregsPending fS c [63] && (imm18 (feLit c) 0x018).toNat = 0x018
      && ([0x009, 0x00D, 0x00F, 0x010, 0x017, 0x019].all fun n => (imm18 (feLit c) (BitVec.ofNat 18 n)).toNat = n) && privileged fS 0 = false) ∧
    0x018 < (0x019 : BitVec 12).toNat ∧ (0x018 : BitVec 12) ≠ 0x008 ∧
    privileged (modCtx fS 0 fun k => { k with mode := 1 }) 0 = true ∧
    onGrp gS (fun c => !regsPending gS c [79] && c.spl.pre.lit.isNone && legal c (ones [79]) [] .uniform) := by decide +kernel

/-- ScaledConversionResults: lanes that expand into a general destination; uniform registers that compress into a uniform one. -/
theorem test_witness_ScaledConversionResults : onGrp gS (fun c => !regsPending gS c [79, 78, 77] && c.spl.pre.lit.isNone
      && legal c (ones [79]) (ones [78, 77]) .uniform && vtag c 79 = .general && vtag c 31 = .uniform
      && legal c (ones [31]) (ones [30, 29]) .uniform && vtag c 30 = .uniform && vtag c 29 = .uniform) ∧
    onGrp (gGrp fun r => { r with regs := putReg probeHeader r.regs 29 (List.range 32) fun _ => 0x80 })
      (fun c => (activeLanes c 0).any fun i => (vreg c 29 i).getLsbD 7) := by decide +kernel

/-- SpecialAndSignalResults: the last pairs and quads of general registers. -/
theorem test_witness_SpecialAndSignalResults : onGrp gS (fun c => c.spl.pre.lit.isNone && !flagFull c.grp.flags c.spl.clause
      && !regsPending gS c [79, 78] && legal c (ones [79]) (ones [78]) .general
      && !regsPending gS c [78, 79, 77, 31] && legal c [(78, 2)] (ones [77, 31]) .general && vtag c 77 = .general && vtag c 31 = .uniform
      && !regsPending gS c (regNames [(76, 4), (74, 2), (70, 4)]) && legal c [(76, 4)] [(74, 2), (70, 4)] .general
      && !regsPending gS c (regNames [(78, 2), (76, 2), (74, 2), (78, 2)]) && legal c [(78, 2)] [(76, 2), (74, 2), (78, 2)] .general) := by
  decide +kernel

/-! ## Witnesses: control flow, hints, pool and global memory -/

/-- BranchResults: taken in no lane, in some, in all; with a split free and with four; the serial stack and the return stack
short of eight entries and full. -/
theorem test_witness_BranchResults :
    onGrp gS (fun c => c.spl.pre.lit.isNone && (c.spl.lanes &&& ~~~ pmask c 0) = 0 && c.spl.rstack.isEmpty) ∧
    onGrp gS (fun c => c.spl.lanes &&& pmask c 1 = 0 && (c.spl.lanes &&& ~~~ pmask c 1) ≠ 0) ∧
    onGrp (gGrp fun r => { r with preds := [(1, 1)] }) (fun c => c.spl.lanes &&& pmask c 1 = 1 && (c.spl.lanes &&& ~~~ pmask c 1) ≠ 0
      && c.grp.splits.length < 4 && ((List.range 4).find? fun k => (tfind k c.grp.splits).isNone) = some 1) ∧
    [7, 8].all (fun n => onGrp (gGrp fun r => { r with
        preds := [(1, 1)], splits := [0, 1, 2, 3].map fun k => (k, { pc := 0x40, lanes := if k = 0 then 0xFF else 0x100 })
        serial := List.replicate n { pc := 0, owner := 0, lanes := 0, running := false } })
      fun c => c.grp.splits.length = 4 && c.grp.serial.length = n && c.spl.lanes &&& pmask c 1 ≠ 0 && (c.spl.lanes &&& ~~~ pmask c 1) ≠ 0) ∧
    [7, 8].all (fun n => onGrp (gSpl fun x => { x with rstack := List.replicate n 0x40 }) fun c => c.spl.rstack.length = n) := by
  decide +kernel

/-- GroupTransferResults: a register alike in the lanes, an aligned top of the stack and an empty stack, no entry of the serial
stack and one of this split. -/
theorem test_witness_GroupTransferResults :
    onGrp gS (fun c => c.spl.pre.lit.isNone && !regsPending gS c [79] && decide (79 < declared c.blk.hdr) && c.blk.banksLost.isEmpty
      && c.spl.lanes &&& pmask c 0 = c.spl.lanes && c.spl.lanes ≠ 0 && (lanesOf c.spl.lanes).all fun i => (vreg c 79 i).toNat % 4 = 0 && vreg c 79 i = 0) ∧
    onGrp (gGrp fun r => { r with preds := [(1, 1)], regs := putReg probeHeader r.regs 31 [0] fun _ => 2 }) (fun c =>
      c.spl.lanes &&& pmask c 1 ≠ 0 && c.spl.lanes &&& pmask c 1 ≠ c.spl.lanes && (lanesOf c.spl.lanes).all fun i => vreg c 31 i = 2) ∧
    onGrp gS (fun c => c.spl.lanes &&& pmask c 1 = 0 && c.spl.rstack.isEmpty && c.grp.serial.isEmpty) ∧
    [0x44, 0x46].all (fun t => onGrp (gSpl fun x => { x with rstack := [0x80, t] }) fun c => c.spl.rstack = [0x80] ++ [t]) ∧
    [true, false].all (fun b => onGrp (gGrp fun r => { r with serial := [{ pc := 0x80, owner := 0, lanes := 1, running := b }] })
      fun c => c.grp.serial = [] ++ [{ pc := 0x80, owner := c.k, lanes := 1, running := b }]) := by decide +kernel

/-- A level open in the split. -/
def level0 : LoopLevel := { count := 4, start := 0x40, stop := 0x48, iter := 0, stages := 1, wbase := 40, wsize := 8, woff := 0 }

/-- LoopResults: a count of zero and another, no level open and one, a window of the most registers, beside another window. -/
theorem test_witness_LoopResults :
    onGrp gS (fun c => c.spl.pre.lit.isNone && !regsPending gS c [79] && c.blk.banksLost.isEmpty && c.spl.levels.isEmpty && lanesOf c.spl.lanes ≠ []
      && ((lanesOf c.spl.lanes).all fun i => vreg c 79 i = 0) && !regMixed c 79 && 48 + 32 ≤ declared c.blk.hdr
      && c.blk.hdr.nu + c.blk.hdr.na ≤ 48 && c.spl.lanes &&& pmask c 0 = c.spl.lanes && c.spl.lanes &&& pmask c 1 = 0) ∧
    onGrp (gGrp fun r => { r with regs := putReg probeHeader r.regs 31 [0] fun _ => 3 })
      (fun c => (lanesOf c.spl.lanes).all fun i => vreg c 31 i = 3) ∧
    onGrp (gSpl fun x => { x with levels := [level0] }) (fun c => c.spl.levels = [level0] && c.spl.levels.length ≠ 0
      && c.spl.pc.toNat + 4 ≤ (c.spl.pc + 8).toNat && (c.spl.pc + 8).toNat ≤ level0.stop.toNat && level0.stages ≤ 1
      && level0.wbase + level0.wsize ≤ 48 && c.spl.levels.length < 4) := by decide +kernel

/-- A group in a loop that ends at its unit, inside one that ends there too, with an entry that waits at the end. -/
def loopS (inner outer : LoopLevel) (e : List SerialEntry) : State :=
  modSpl (gGrp fun r => { r with preds := [(1, 1)], serial := e }) 0 0 0 fun x => { x with levels := [outer, inner] }

/-- LoopResults: the back edge of a level with an iteration left and with none, with an entry to absorb; a guard that holds in some
lanes, a free split, none with room on the serial stack and without; the end of a level elsewhere; a pipelined level. -/
theorem test_witness_LoopResults_back :
    [0, 3].all (fun t =>
      let lv : LoopLevel := { level0 with stop := 0x40, iter := t }
      let s := loopS lv { level0 with stop := 0x40, wsize := 0 } [{ pc := 0x44, owner := 0, lanes := 0x100, running := false }]
      onGrp s fun c => c.spl.pc = 0x40 && unitStart c.spl.pre c.spl.pc = 0x40 && c.spl.levels = [{ level0 with stop := 0x40, wsize := 0 }] ++ [lv]
        && decide (lv.iter.toNat + 1 < lv.count.toNat + lv.stages - 1) = (t = 0) && c.spl.lanes &&& pmask c 1 ≠ 0
        && c.spl.lanes &&& pmask c 1 ≠ c.spl.lanes && c.grp.splits.length < 4) ∧
    onGrp (gSpl fun x => { x with levels := [level0] }) (fun c => c.spl.pc.toNat < level0.stop.toNat) ∧
    [0, 8].all (fun n => onGrp (gGrp fun r => { r with preds := [(1, 1)], serial := List.replicate n { pc := 0, owner := 0, lanes := 0, running := false }
                                                       splits := [0, 1, 2, 3].map fun k => (k, { pc := 0x40, lanes := if k = 0 then 0xFF else 0x100, levels := [level0] }) })
      fun c => 4 ≤ c.grp.splits.length && c.grp.serial.length = n && c.spl.lanes &&& pmask c 1 ≠ 0 && c.spl.lanes &&& pmask c 1 ≠ c.spl.lanes) ∧
    onGrp (gSpl fun x => { x with levels := [{ level0 with stages := 2, iter := 1 }] }) (fun c => c.spl.levels.all (1 < LoopLevel.stages ·)) := by
  decide +kernel

/-- LoopStateSavedAndRestored: the own pool at 0, an image of no level there, and one of a level. -/
theorem test_witness_LoopStateSavedAndRestored :
    onGrp gS (fun c => !regsPending gS c [31] && vtag c 31 = .uniform && c.blk.banksLost.isEmpty && (vreg c 31 0 + poolOffset (grpLit c)).toNat % 16 = 0
      && !coreTested gS 1 0 && poolTarget gS 0 (vreg c 31 0 + poolOffset (grpLit c)) 112 = some (0, 0) && (getInst gS (nextId gS)).isNone
      && !badIn gS (poolNum 0 0) 112 && Memory.wf (getCore gS 0).pool) ∧
    (let y : Split := { pc := 0, lanes := 0, levels := [level0], armBase := 40, armSize := 8 }
     let s := poolPut gS 0 0 (loopImage y)
     poolBytes s 0 0 112 = loopImage y ∧ level0.stages < 256 ∧ level0.wsize < 256 ∧
     onGrp s fun c => level0.stop.toNat < (unitStart c.spl.pre c.spl.pc).toNat || c.spl.pc.toNat < level0.stop.toNat) ∧
    4 < (tgetD (0 : Byte) 96 (getCore (poolPut gS 0 96 [5]) 0).pool).toNat := by decide +kernel

/-- GroupWaitResults: one split and two, a timeout above zero and of zero, an entry in the queue and none. -/
theorem test_witness_GroupWaitResults :
    onGrp gS (fun c => !predStaged c 7 && c.grp.splits.length = 1 && c.spl.pre.lit.isNone && !regsPending gS c [78, 79]
      && 78 + 2 ≤ declared c.blk.hdr && c.blk.banksLost.isEmpty && !flagFull c.grp.flags c.spl.clause && c.spl.lanes &&& pmask c 0 = c.spl.lanes
      && c.grp.pg = c.blk.dqTail && c.spl.lanes &&& pmask c 1 = 0 && (imm14 (grpLit c) 1).toInt = 1 && (imm14 (grpLit c) 0).toInt = 0) ∧
    onGrp (gGrp fun r => { r with splits := [(0, { pc := 0x40, lanes := 0xFF }), (1, { pc := 0x80, lanes := 0xFF00 })] })
      (fun c => c.grp.splits.length = 2 && !othersAtJoin c.grp c.k c.spl c.spl.pc) ∧
    onGrp (modBlk gS 0 fun b => { b with dq := [(0, 7)], dqTail := 1 }) (fun c => c.grp.pg ≠ c.blk.dqTail && waitingPops c.grp = [] && c.blk.dqPushed.isNone) ∧
    onGrp (modBlk gS 0 fun b => { b with dq := [(0, 7)], dqTail := 1, dqPushed := some gS.clk.cycle }) (fun c => c.grp.pg = c.blk.dqTail - 1) ∧
    [0x40, 0x44].all (fun p =>
      let x : Split := { pc := 0x40, lanes := 0xFF }
      let y : Split := { pc := p, lanes := 0xFF00 }
      (x.pc = y.pc) = (p = 0x40) && x.levels = y.levels && x.wait = .none && y.wait = .none && x.pre.start.isNone) := by
  decide +kernel

/-- HintResults: no hint before and one of each; flags at zero. -/
theorem test_witness_HintResults :
    onGrp gS (fun c => c.spl.pre.lit.isNone && c.spl.pre.mod.isNone && (List.range 12).all fun n => tgetD 0 n c.grp.flags = 0) ∧
    onGrp (gSpl fun x => { x with pre := { lit := some 0, mod := some 0 } }) (fun c => c.spl.pre.lit ≠ none && c.spl.pre.mod ≠ none) ∧
    onFe fS (fun c => c.blk.fe.pre.lit.isNone && c.blk.fe.pre.mod.isNone && (List.range 12).all fun n => tgetD 0 n c.blk.fe.flags = 0) := by
  decide +kernel

/-- PoolInstructionsComplete, of a group: no active lane and all; a remote store is none here; a fill of one granule. -/
theorem test_witness_PoolInstructionsComplete_group :
    onGrp gS (fun c =>
      let ls := (activeLanes c 0).map fun i => (i, vreg c 79 i + poolOffset (grpLit c))
      !acquireHolds c && !regsPending gS c [79, 76, 77, 78] && legal c [(76, 4)] (ones [79]) .general && activeLanes c 1 = []
        && activeLanes c 0 ≠ [] && reach gS 0 16 16 ls && (ownError gS 0 (targets gS 0 16 ls fun _ => .load 16)).isNone
        && !flagFull c.grp.flags c.spl.clause && !landingFull gS 0 (targets gS 0 16 ls fun _ => .load 16)
        && legal c [] [(76, 4), (79, 1)] .uniform && !(targets gS 0 16 ls fun _ => .store 16 0 false).any (fun y => y.2.1.1 ≠ 0)
        && grpReleases gS ⟨0, 0, c.k, c.blk, c.grp, c.spl⟩ && legal c [(76, 2)] [(76, 4), (79, 1)] .general) ∧
    onGrp gS (fun c => vtag c 31 = .uniform && legal c [(31, 1)] (ones [30]) .uniform) ∧
    onGrp (gGrp fun r => { r with regs := putReg probeHeader r.regs 30 [0] fun _ => 16 }) (fun c => (vreg c 30 0).toNat = 16
      && vtag c 31 = .uniform && legal c [] (ones [30, 31]) .uniform && guarded c 0 = c.spl.lanes && c.spl.lanes ≠ 0
      && reach gS 0 16 16 [(0, vreg c 31 0)]) := by decide +kernel

/-- PoolInstructionsComplete, of a front-end. -/
theorem test_witness_PoolInstructionsComplete_frontEnd :
    onFe fS (fun c => c.blk.fe.pre.lit.isNone && (sreg c 63).toNat < 2 ^ 32 && reach fS 0 8 8 [(0, (sreg c 63).truncate 32)]
      && !sregsPending fS c [62, 63] && (ownError fS 0 (targets fS 0 8 [(0, 0)] fun _ => .load 8)).isNone
      && !flagFull c.blk.fe.flags c.blk.fe.clause && !landingFull fS 0 (targets fS 0 8 [(0, 0)] fun _ => .load 8)) := by decide +kernel

/-- A pool request at the port of core 0. -/
def portReq (op : PoolOp) : PoolReq := { id := 7, inst := 3, src := ⟨0, .grp 0⟩, dst := 0, off := 0x7FFF0, lane := 31, op := op, pc := 0x40 }

/-- Its instruction. -/
def poolInst0 : PoolInst := { id := 3, src := ⟨0, .grp 0⟩, split := 0, use := .load false, dests := [40], nbytes := 4, lanes := 0xFFFFFFFF, uniform := false, left := 1 }

/-- A state with a request at the port. -/
def portS (op : PoolOp) : State := modFlight gS fun f => { f with pool := [portReq op], poolInsts := [poolInst0] }

/-- PoolPortResults: each operation, at the last granule of the pool; the instruction waits for one access or for none. -/
theorem test_witness_PoolPortResults :
    ([.load 16, .loadFe 16 true, .store 16 1 false, .atomic 0xD 1 2, .fillRange 16 false] : List PoolOp).all (fun op =>
      let s := portS op
      Memory.wf (getCore s 0).pool && Table.wf false (getCore s 0).full && ((s.flight.pool.find? fun q => q.id = 7) = some (portReq op))
        && !portBefore s (portReq op) && !coreTested s 1 0 && !seamHeld s (coreDie 0) (coreDie 0) && !(portReq op).arrived && !badIn s (poolNum 0 0x7FFF0) (opBytes op)) ∧
    granulesFull (portS (.load 16)) 0 0x7FFF0 16 ≠ granulesFull (setFull (portS (.load 16)) 0 0x7FFF0 16 (!granulesFull (portS (.load 16)) 0 0x7FFF0 16)) 0 0x7FFF0 16 ∧
    getInst (modFlight gS fun f => { f with poolInsts := [{ poolInst0 with left := 0 }] }) 3 = some { poolInst0 with left := 0 } ∧
    loadsRegs poolInst0.use ∧ poolInst0.ue = none ∧ repliesHeld gS poolInst0 = false ∧
    getInst (modFlight gS fun f => { f with poolInsts := [{ poolInst0 with use := .none, left := 0, acks := 2 }] }) 3 =
      some { poolInst0 with use := .none, left := 0, acks := 2 } := by decide +kernel

/-- PoolStoreWritesOwnPool, PoolLoadReturnsPool: every lane at 0, 16 bytes. -/
theorem test_witness_PoolOwn : onGrp gS (fun c => !acquireHolds c && !regsPending gS c [79, 76, 77, 78] && legal c [] [(76, 4), (79, 1)] .uniform
      && legal c [(76, 4)] (ones [79]) .general && Memory.wf (getCore gS 0).pool && activeLanes c 0 ≠ [] && Table.wf 0 c.grp.regs
      && !flagFull c.grp.flags c.spl.clause && (getInst gS (nextId gS)).isNone && grpReleases gS c
      && !ownPending gS ⟨0, .grp 0⟩ && !coreTested gS 1 0 && (activeLanes c 0).all fun i => let a := vreg c 79 i + poolOffset (grpLit c)
        a.toNat % 16 = 0 && poolTarget gS 0 a 16 = some (0, 0) && !badIn gS (poolNum 0 0) 16) := by decide +kernel

/-- A leaf in HBM of die 0 that core 0 holds for page 0. -/
def leaf0 (w : Bool) : Leaf := { pa := 0, place := 0x000145C1, size := 2, r := true, w := w, x := false, dup := false, state := 0, entry := 0 }

/-- The group that issues, its core holding the leaf. -/
def leafS (w : Bool) : State := modCore gS 0 fun k => { k with tcache := [{ ctx := 0, va := 0, leaf := leaf0 w }] }

/-- The state after an atomic's lane has asked for its page. -/
def askedS (w : Bool) : State := issueReq (modFlight (leafS w) fun f => { f with atgs := [{ id := 50, src := ⟨0, .grp 0⟩, split := 0, dests := [40], lanes := 1, size := 4, left := 1 }] })
  { id := 51, inst := 50, thread := ⟨0, .grp 0⟩, split := 0, die := 0, ctx := 0, pc := 0x40, va := 0, op := .atomic 0 1 0 false 0 }

/-- GlobalInstructionsComplete: no active lane and all, a wake, a release; pages known, unknown and not to be written. -/
theorem test_witness_GlobalInstructionsComplete :
    onGrp gS (fun c => !acquireHolds c && !regsPending gS c [78, 79, 74, 75, 76, 77] && legal c [] [(76, 2), (78, 2)] .uniform
      && activeLanes c 1 = [] && activeLanes c 0 ≠ [] && ((activeLanes c 0).all fun i => (vpair c 78 i + globalOffset (grpLit c)).toNat % 8 = 0)
      && grpReleases gS c && legal c [(74, 2)] [(74, 4), (78, 2)] .general && !flagFull c.grp.flags c.spl.clause) ∧
    atgSettled (askedS true) 50 ∧ (atgFault (askedS true) 50).isNone ∧ atgSettled (askedS false) 50 ∧ (atgFault (askedS false) 50).isSome := by
  decide +kernel

/-- FencesComplete: nothing under way; scopes on each side of the limit; a release that waits. -/
theorem test_witness_FencesComplete :
    onGrp gS (fun c => !acquireHolds c && c.spl.pre.lit.isNone && guarded c 0 = c.spl.lanes && c.spl.lanes ≠ 0 && grpReleases gS c
      && gS.flight.global.isEmpty && !regsPending gS c [29, 30, 31] && legal c [] [(29, 1), (30, 2)] .uniform
      && [29, 30, 31].all fun r => vtag c r = .uniform) ∧
    onFe fS (fun c => c.blk.fe.pre.lit.isNone && !fpred c 1 && fpred c 0 && feReleases fS 0) ∧
    feReleases (modFlight fS fun f => { f with global := [{ id := 5, inst := 0, thread := ⟨0, .fe⟩, split := 0, die := 0, ctx := 0, pc := 0x40, va := 0, op := .store }] }) 0 = false := by
  decide +kernel

/-- A store of its line's first and last byte, at its home. -/
def req0 : GlobalReq := { id := 5, inst := 0, thread := ⟨0, .grp 0⟩, split := 0, die := 0, ctx := 0, pc := 0x40, va := 0x200000, op := .store
                          bytes := [(0, 0, 0xAB), (127, 1, 0xCD)], leaf := some (leaf0 true), stage := .atHome }

/-- A state with requests in flight. -/
def reqS (l : List GlobalReq) : State := modFlight gS fun f => { f with global := l }

/-- The line's placement. -/
def place0 : Word := 0x000145C1

/-- A state in which die 1 owns word 0 of the line. -/
def ownedS : State := modDie (modReg (reqS [req0]) place0 0x200000 fun _ => { owner := 2 }) 1 fun d =>
  { d with visitor := [(lineKey place0 0x200000, { data := 0x55, owned := 1 })] }

/-- GlobalMemoryEvents, stores: a word of the line owned and none; performed; faulted, with the group in each state. -/
theorem test_witness_GlobalMemoryEvents_stores :
    getReq (reqS [req0]) 5 = some req0 ∧ atHomeNow (reqS [req0]) req0 ∧ (homeCode (reqS [req0]) 0 (reqPlace req0) (lineBase req0)).isNone ∧
    foreignWords (reqS [req0]) (reqPlace req0) (lineBase req0) (wordsOf req0.bytes) 0 = [] ∧ foreignWords ownedS (reqPlace req0) (lineBase req0) (wordsOf req0.bytes) 0 ≠ [] ∧
    (homeCode (modDie (reqS [req0]) 0 fun d => { d with homeDown := true, admitted := false }) 0 (reqPlace req0) (lineBase req0)).isSome ∧
    atHomeNow (modDie (reqS [req0]) 0 fun d => { d with homeDown := true, admitted := false }) req0 ∧
    storeSettled (reqS [{ req0 with stage := .faulted 0x0B }]) { req0 with stage := .faulted 0x0B } ∧
    (let r := { req0 with inst := 3, stage := .faulted 0x0B }
     storeSettled (reqS [r, { r with id := 6, va := 0x100000 }]) r ∧ (refusedOf (reqS [r, { r with id := 6, va := 0x100000 }]) r).map GlobalReq.id = [5, 6] ∧
     (reportRecords [r, { r with id := 6, va := 0x100000 }] 3).map (fun x => x.addr.toNat / 8) = [0x20000, 0x2000F, 0x40000, 0x4000F] ∧
     ([r, { r with id := 6, va := 0x100000 }].all fun q => q.bytes.all fun b => byteAddr q b < 2 ^ 64)) ∧ replyHeld (reqS [req0]) req0 = false ∧
    req0.visitor = false ∧ req0.send.isNone ∧ req0.copy.isNone ∧ isStore req0.op ∧ reportTakes { run := .active, splits := [(0, { pc := 0x40, lanes := 1 })] } ∧
    (getGrp (reqS [{ req0 with stage := .faulted 0x0B }]) 0 0).any (fun x => x.run = .active && reportTakes x) := by decide +kernel

/-- An atomic on word 0 of the line, at its home. -/
def atomReq : GlobalReq := { req0 with op := .atomic 0 1 0 false 0, bytes := [], inst := 50 }

/-- Its instruction. -/
def atg0 : AtgInst := { id := 50, src := ⟨0, .grp 0⟩, split := 0, dests := [40], lanes := 1, size := 4, left := 1, sent := true }

/-- A state with an atomic and its instruction. -/
def atomS (r : GlobalReq) : State := modFlight gS fun f => { f with global := [r], atgs := [atg0] }

/-- GlobalMemoryEvents, atomics and releases, and a store of an old generation. -/
theorem test_witness_GlobalMemoryEvents_atomics :
    atHomeNow (atomS atomReq) atomReq ∧ againReady (atomS atomReq) atomReq ∧ laneBefore atomReq atomReq = false ∧
    recallFirst (atomS atomReq) atomReq = [] ∧ atHomeNow (reqS [{ req0 with op := .relStore 3 }]) { req0 with op := .relStore 3 } ∧
    recallFirst (reqS [{ req0 with op := .relStore 3 }]) { req0 with op := .relStore 3 } = [] ∧
    atgDone (atomS { atomReq with stage := .performed }) atg0 ∧ (atgFault (atomS { atomReq with stage := .performed }) 50).isNone ∧
    ((atgReqs (atomS { atomReq with stage := .performed }) 50).all fun r => (reqRelease r.op).isNone && !replyHeld (atomS { atomReq with stage := .performed }) r) ∧
    atgDone (atomS { atomReq with stage := .faulted 0x0C }) atg0 ∧ (atgFault (atomS { atomReq with stage := .faulted 0x0C }) 50).isSome ∧
    (getGrp (atomS atomReq) 0 0).any (fun x => x.run ≠ .faulted) ∧
    [Run.killed, .exited, .faulted].all (fun q => (getGrp (modGrp (reqS [{ req0 with stage := .faulted 0x0B }]) 0 0 fun r => { r with run := q }) 0 0).any fun x => x.run = q) := by
  decide +kernel

/-- A context with a table of two levels, and a leaf of 1 GiB at 0. -/
def tableS (s : State) (l : Leaf) : State :=
  modCtx (physPut (physPut s geoQuad 0x100000 (natBytes 16 0x200001)) geoQuad 0x200000 (leafEntry l)) 0 fun c => { c with ptroot := 0x100000 }

/-- GlobalMemoryEvents: a store whose page has another generation by now. -/
theorem test_witness_GlobalMemoryEvents_stale : req0.stage = .atHome ∧
    staleReq (tableS (reqS [req0]) { leaf0 true with place := 0x010145C1 }) req0 ∧
    staleReq (tableS (reqS [req0]) (leaf0 true)) req0 = false := by decide +kernel

/-- GlobalMemoryEvents, the messages: a recall, an order to drain before and after, a scan, a word in a link's buffer, a write of
the window's first and last byte. -/
theorem test_witness_GlobalMemoryEvents_messages :
    ((modFlight gS fun f => { f with recalls := [{ id := 9, home := 0, key := lineKey place0 0x200000, word := 0, owner := 2, req := 5 }] }).flight.recalls.find? fun x => x.id = 9).isSome ∧
    ownerHeld gS 2 place0 0x200000 = false ∧ visitorTested gS 1 (lineKey place0 0x200000) = false ∧ otherRoute gS 0 1 false 9 = false ∧
    ((List.range 4).all fun d => !seamHeld gS 0 d) ∧ otherRoute gS 0 0 false 9 = false ∧ (getDie gS 0).visitor = [] ∧
    [true, false].all (fun b => ((modFlight gS fun f => { f with drains := [{ id := 9, home := 0, owner := 1, epoch := 0, req := 5, done := b }] }).flight.drains.find? fun x => x.id = 9).any fun x => x.done = b) ∧
    (let s := modGrp (modFlight gS fun f => { f with scans := [{ id := 9, thread := ⟨0, .grp 0⟩, split := 0, ctx := 0, va := 0, dies := [0, 3] }] }) 0 0 fun r => { r with acquire := some 9 }
     (s.flight.scans.find? fun z => z.id = 9).any fun z => z.dies.contains 0 && z.dies.contains 3 && (getGrp s 0 0).any fun y => y.acquire = some 9) ∧
    ((modFlight gS fun f => { f with linkWords := [{ buf := 2, key := lineKey place0 0x200000, home := 0, word := 0, data := 7 }] }).flight.linkWords.find? fun w => w.buf = 2).isSome ∧
    (let s : State := { gS with host := { gS.host with winBase := 0x1000, winSize := 256 } }
     [0x1000, 0x10FF].all fun a => !frozenAt s windowPlace a && !throttledAt s windowPlace a && !homeTested s windowPlace a && s.host.winBase.toNat ≤ a && a + 1 ≤ s.host.winBase.toNat + s.host.winSize
       && (homeCode s (homeDie windowPlace a) windowPlace a).isNone && !placeBeyond windowPlace (alignDown a 128) 128
       && (regWord s windowPlace (alignDown a 128 + 4 * (a % 128 / 4))).owner ≠ 5 && (regWord s windowPlace (alignDown a 128 + 4 * (a % 128 / 4))).owner ≠ 7) ∧
    (getDie (modDie gS 3 fun d => { d with busy := true }) 3).busy ∧ waysEmptied (getDie (modDie gS 3 fun d => { d with busy := true }) 3) := by decide +kernel

/-- HomeStoreWritesItsBytes: the first and the last byte of a line. -/
theorem test_witness_HomeStoreWritesItsBytes :
    (let s := reqS [req0]
     getReq s 5 = some req0 ∧ req0.id = 5 ∧ atHomeNow s req0 ∧ (homeCode s 0 (reqPlace req0) (lineBase req0)).isNone ∧
     foreignWords s (reqPlace req0) (lineBase req0) (wordsOf req0.bytes) 0 = [] ∧ placeTier (reqPlace req0) < 2 ∧
     ((wordsOf req0.bytes).all fun i => (wordRefused s (reqPlace req0) (lineBase req0) i req0.bytes).isNone) ∧
     req0.op = .store ∧ req0.visitor = false ∧ (homeFree s (reqPlace req0) (lineBase req0)).isSome ∧
     (req0.bytes.all fun b => b.1 < 128) ∧ (req0.bytes.map Prod.fst).Nodup ∧
     Table.wf ({} : RegWord) (getDie s (homeDie (reqPlace req0) (lineBase req0))).registry) := by decide +kernel

/-- RecallKeepsTheWord: die 1 owns word 0. -/
theorem test_witness_RecallKeepsTheWord : placeTier place0 < 2 ∧ 0x200000 % 4 = 0 ∧
    (let s := setLink ownedS 0 .up
     Table.wf ({} : RegWord) (getDie s (homeDie place0 0x200000)).registry ∧ (regWord s place0 0x200000).owner ≠ 0 ∧
     ownerCut s (regWord s place0 0x200000).owner place0 0x200000 = false ∧
     ownerWord s (regWord s place0 0x200000).owner place0 0x200000 = some 0x55) := by decide +kernel

/-! ## Witnesses: the copy engine, the matrix engine, barriers -/

/-- The front-end that issues, with a descriptor in s60 to s63. -/
def descS (w2 w3 : DWord) : State := writeS (writeS fS 0 62 w2) 0 63 w3

/-- The block on core 0 with its front-end's copy engine changed. -/
def copyS (f : CopyEngine → CopyEngine) : State := modCopy fS 0 f

/-- A copy of one row of 16 bytes to the end of the pool. -/
def cmd0 : CopyCmd := { readDesc 9 0xB0 0x40 0 0x7FFF0 0x100001 0 0xFFFF 0 with transfers := [{ member := 0 }] }

/-- CopyInstructionsComplete: a command of each kind whose descriptor passes; room for one more and none; an id that drains; the
last descriptor register. -/
theorem test_witness_CopyInstructionsComplete :
    ([(0xB0, 0x100001, 0), (0xB2, 0x1000040, 6), (0xB3, 0x1000040, 6), (0xB4, 0x100001, 0), (0xB5, 0x100001, 0), (0xB6, 0x100001, 0),
      (0xB1, 0x100001, 0x100), (0xB7, 0x100001, 0)] : List (Nat × DWord × DWord)).all (fun e =>
      let s := descS e.2.1 e.2.2
      onFe s fun c => c.blk.fe.pre.lit.isNone && !sregsPending s c [60, 61, 62, 63, 59] && copyBarOk s 0 c.blk ((sreg c 59).truncate 16)
        && c.blk.copy.cmds.length < 32 &&
        let k := readDesc (nextId s) e.1 0x40 (sreg c 60) (sreg c 61) (sreg c 62) (sreg c 63) (sreg c 59) s.clk.cycle
        !copyIllegal k && (copyMisaligned k (bitsOf (sreg c 63).toNat 39 20)).isNone && (poolRangeBad s 0 k).isNone) ∧
    onFe (copyS fun e => { e with cmds := List.replicate 31 cmd0 }) (fun c => c.blk.copy.cmds.length = 31) ∧
    onFe (copyS fun e => { e with cmds := List.replicate 32 cmd0 }) (fun c => 32 ≤ c.blk.copy.cmds.length) ∧
    onFe (copyS fun e => { e with mcids := [(0, true)] }) (fun c => tgetD false 0 c.blk.copy.mcids) ∧
    onFe (writeS fS 0 61 0x8000) (fun c => (sreg c 61).getLsbD 15) ∧ onFe (writeS fS 0 61 1) (fun c => bitsOf (sreg c 61).toNat 7 0 ≠ 0) ∧
    onFe fS (fun c => !sregsPending fS c [63] && fpred c 0 && c.blk.copy.cmds.length ≤ 0) := by decide +kernel

/-- A state with a command in the queue. -/
def cmdS (c : CopyCmd) : State := copyS fun e => { e with cmds := [c] }

/-- CopyEngineSteps, commands: not started; bytes read; a piece to read; a fault; ended and not. -/
theorem test_witness_CopyEngineSteps_commands :
    (getBlk (cmdS cmd0) 0).any (fun b => mayStart (cmdS cmd0) 0 b cmd0 && !cmd0.started && getCmd (cmdS cmd0) 0 9 = some cmd0) ∧
    (let t : Transfer := { member := 0, got := some (List.replicate 16 0xAB) }
     let c := { cmd0 with started := true, transfers := [t] }
     let p := poolPlace (cmdS c) 0 (poolBase c + t.row * c.pstride + t.col)
     c.transfers[0]? = some t ∧ Memory.wf (getCore (cmdS c) p.1).pool ∧ p = (0, 0x7FFF0) ∧ firstRow c 0 = 0 ∧ t.dest = 0 ∧ poolTurn (cmdS c) 0 p.1 c ∧ engineCut (cmdS c) 0 p.1 = false) ∧
    (let c := { cmd0 with op := 0xB4, started := true }
     (getBlk (cmdS c) 0).any fun b => !readsGlobal c.op && (readPoolPiece (cmdS c) 0 b c 0 { member := 0 }).isSome) ∧
    (let c := { cmd0 with started := true }
     let s := modCore (cmdS c) 0 fun k => { k with tcache := [{ ctx := 0, va := 0, leaf := leaf0 true }] }
     (getBlk s 0).any fun b => (readGlobal s 0 b c 0 { member := 0 }).isSome) ∧
    (let c := { cmd0 with started := true }
     let s := modCore (cmdS c) 0 fun k => { k with tcache := [{ ctx := 0, va := 0, leaf := { leaf0 true with r := false } }] }
     (getBlk s 0).any fun b => (transferFault s 0 b c 0 { member := 0 }).isSome && (refusedWrite s 0 9 0).isNone) ∧
    (let c := { cmd0 with started := true, transfers := [{ member := 0, ended := true }] }
     (getBlk (cmdS c) 0).any fun b => cmdEnded (cmdS c) 0 b c) ∧
    (getBlk (cmdS cmd0) 0).any (fun b => !cmdEnded (cmdS cmd0) 0 b cmd0) := by decide +kernel

/-- A stream of one row. -/
def stream0 : Stream := { src := 0, rows := 1, rowb := 128, gstride := 128, use := 0, dead := false, depth := 1 }

/-- A read of a line by the command. -/
def read0 : ReadReq := { id := 12, core := 0, cmd := 9, tr := 0, die := 0, va := 0, n := 16, leaf := leaf0 true, fill := false, acq := false }

/-- CopyEngineSteps, the rest: a stream whose next page is not known and known; messages about ids; a drained id; reads. -/
theorem test_witness_CopyEngineSteps_messages :
    tfind 7 ((getBlk (copyS fun e => { e with streams := [(7, stream0)] }) 0).map fun b => b.copy.streams).get! = some stream0 ∧
    stream0.next < stream0.read + stream0.depth ∧ (streamLines stream0).getD 0 0 = 0 ∧
    streamLeaf fS 0 0 stream0 0 = none ∧ streamLeaf fS 0 0 stream0 (2 ^ 56) = some (.code cTRANSLATION) ∧
    (let s := copyS fun e => { e with streams := [(7, { stream0 with kept := some (0, leaf0 true) })] }
     let p := (leaf0 true).place
     streamLeaf s 0 0 { stream0 with kept := some (0, leaf0 true) } 0 = some (.leaf (leaf0 true)) ∧ physAddr (leaf0 true) 0 = 0 ∧ homeTested s p 0 = false ∧
     routeHeld s (coreDie 0) p 0 = false ∧ (s.flight.global.any (reqBefore s 0 (nextId s) p 0) || s.flight.reads.any (readBefore s 0 (nextId s) p 0)) = false ∧
     [0, 0x1000000].all (fun g => staleLeaf (modStream (takeWalk (tableS s { leaf0 true with place := place0 ^^^ g }) 0 0 0) 0 7 fun x => { x with kept := some (0, leaf0 true) }) 0 0 (leaf0 true) = (g ≠ 0))) ∧
    (let s := modFlight fS fun f => { f with mcids := [{ id := 8, src := 1, core := 0, mcid := 15, claim := true }] }
     (s.flight.mcids.find? fun x => x.id = 8) = some { id := 8, src := 1, core := 0, mcid := 15, claim := true } ∧ crossBefore s 1 0 8 = false ∧ seamHeld s (coreDie 1) (coreDie 0) = false ∧
     !(s.flight.mcids.any fun e => e.id < 8 && e.core = 0 && e.mcid = 15)) ∧
    (let s := modCl fS 1 fun x => { x with draining := [15] }
     (getCl s 1).any fun x => x.draining.contains 15 && (clusterCores x).all fun c => match getBlk s c with
        | some b => !(decide (b.cluster = 1) && b.copy.cmds.any fun k => k.op = 0xB1 && k.mcid = 15)
        | none => true) ∧
    (let s := modFlight (cmdS { cmd0 with started := true }) fun f => { f with reads := [read0] }
     getRead s 12 = some read0 ∧ (getCmd s 0 9).isSome ∧ readGoes s read0 ∧ readGoes s { read0 with fill := true } ∧
     readGoes s { read0 with acq := true } ∧ placeTier read0.leaf.place ≠ 3 ∧ placeRemote read0.leaf.place = false) := by decide +kernel

/-- MatrixInstructionsComplete, slots and commands: slots free, slots short by one, the last slot; a queue with room and full. -/
theorem test_witness_MatrixInstructionsComplete_slots :
    onGrp gS (fun c => !regsPending gS c [31] && (imm14 (grpLit c) 64).toInt = 64 && legal c [(31, 1)] [] .uniform && !predStaged c 7
      && c.blk.hdr.slots = 64 && ((List.range 64).all fun x => (getSlot gS 0 x).state = 0) && vtag c 31 = .uniform
      && guarded c 0 = c.spl.lanes && c.spl.lanes ≠ 0 && (vreg c 31 0).toNat = 0 && (imm7 (grpLit c) 63).toInt = 63 && c.spl.pre.lit.isNone
      && ((modeSubs 4 63 60).all fun x => x.2.1 < min 64 c.blk.hdr.slots && x.2.2 < min 64 c.blk.hdr.slots) && 15 < c.blk.hdr.tiles
      && c.blk.mma.length < 64 && (getBar gS 0 63).any fun o => !isMember o (.grp 0)) ∧
    (getSlot (modSlots gS 0 [0] fun y => { y with state := 1 }) 0 0).state ≠ 0 ∧
    onGrp (modMma gS 0 fun _ => List.replicate 64 { id := 1, pc := 0, mode := 0, aslot := 0, bslot := 0, tile := 0, acc := false, sat := false, group := 0, batch := 0, lanes := 0, marked := [], held := [], after := 0 })
      (fun c => 64 ≤ c.blk.mma.length) ∧
    (getBar (modBar gS 0 63 fun o => { o with lmask := 1 }) 0 63).any (fun o => isMember o (.grp 0)) ∧
    onGrp (gGrp fun r => { r with regs := putReg probeHeader r.regs 31 [0] fun _ => 1 }) (fun c => (vreg c 31 0).toNat + 63 ≤ 64 && 64 < (vreg c 31 0).toNat + 64) := by
  decide +kernel

/-- A transfer's word: column c, k registers from the first, row j. -/
def accWord (c k j : Nat) : Word := BitVec.ofNat 32 (c + (k - 1) * 256 + j * 2 ^ 13)

/-- MatrixInstructionsComplete, transfers: the last columns of a view, and one column too many; no lane and every lane; 62 and 63
transfers under way. -/
theorem test_witness_MatrixInstructionsComplete_transfers :
    onGrp (gGrp fun r => { r with regs := putReg probeHeader r.regs 31 [0] fun _ => accWord 60 4 1 }) (fun c =>
      let w := vreg c 31 0
      (w.extractLsb' 13 3).toNat < modeRows 0 / 32 && (w.extractLsb' 0 8).toNat + (w.extractLsb' 8 5).toNat + 1 ≤ modeCols 0
      && !regsPending gS c [31, 76, 77, 78, 79] && legal c [] [(31, 1), (76, 4)] .uniform && vtag c 31 = .uniform && 15 < c.blk.hdr.tiles
      && ([76, 77, 78, 79].all fun r => vtag c r = .general) && guarded c 0 ≠ 0 && guarded c 1 = 0 && !flagFull c.grp.flags c.spl.clause
      && c.blk.xfers.isEmpty && (grpLit c).isNone && guarded c 0 = c.spl.lanes) ∧
    onGrp (gGrp fun r => { r with regs := putReg probeHeader r.regs 31 [0] fun _ => accWord 61 4 2 }) (fun c =>
      let w := vreg c 31 0
      modeRows 0 / 32 ≤ (w.extractLsb' 13 3).toNat && modeCols 0 < (w.extractLsb' 0 8).toNat + (w.extractLsb' 8 5).toNat + 1) ∧
    onGrp (modBlk gS 0 fun b => { b with xfers := List.replicate 62 { id := 1, kind := 0, group := 0, mode := 0, tile := 0, row := 0, n := 1, col := 0, lanes := 1 } })
      (fun c => (c.blk.xfers.filter fun y => y.group = c.g).length = 62) := by decide +kernel

/-- A command of the fused mode 1x4. -/
def mma0 : MmaCmd := { id := 20, pc := 0x40, mode := 4, aslot := 0, bslot := 1, tile := 15, acc := true, sat := false, group := 0, batch := 0
                       lanes := 0xFFFFFFFF, marked := [], held := [], after := 20 }

/-- A state with commands in the queue. -/
def mmaS (l : List MmaCmd) : State := modMma gS 0 fun _ => l

/-- MatrixEngineSteps: a command that may start and one that waits for its slots; started, with a fault and without; a closed
batch none of whose commands is left; transfers of each kind. -/
theorem test_witness_MatrixEngineSteps :
    (getBlk (mmaS [mma0]) 0).any (fun b => (b.mma.find? fun x => !x.started) = some mma0 && mmaReady (mmaS [mma0]) 0 b mma0) ∧
    (let s := modSlots (mmaS [mma0]) 0 [4] fun y => { y with state := 2 }
     (getBlk s 0).any fun b => !mmaReady s 0 b mma0) ∧
    (getBlk (mmaS [{ mma0 with started := true }]) 0).any (fun b => (b.mma.find? fun x => x.id = 20) = some { mma0 with started := true }) ∧
    (getBlk (mmaS [{ mma0 with started := true, slotFault := some (0, 0) }]) 0).any (fun b => b.mma.any fun m => m.slotFault = some (0, 0)) ∧
    (getGrp (mmaS [{ mma0 with started := true, slotFault := some (0, 0) }]) 0 mma0.group).isSome ∧
    (getGrp (gGrp fun r => { r with closed := [{ num := 0, bar := 0 }] }) 0 0).any (fun r => r.closed = [{ num := 0, bar := 0 }]) ∧ batchHeld gS 0 0 0 = false ∧
    ([{ state := 1 }, { state := 1, larr := 1 }, {}] : List Barrier).all (fun o => getBar (modBar gS 0 63 fun _ => o) 0 63 = some o) ∧
    [0, 1, 2].all (fun k =>
      let x : AccXfer := { id := 30, kind := k, group := 0, mode := 4, tile := 15, row := 1, n := 2, col := 254, lanes := 0x80000001, dests := [78, 79], words := [(0, 5)] }
      let s := modBlk gS 0 fun b => { b with xfers := [x] }
      (getBlk s 0).any fun b => (b.xfers.find? fun y => y.id = 30) = some x && !b.xfers.any (xferBefore · x) && !coreTested s 3 0
        && Table.wf 0 (getCore s 0).tiles && x.row < modeRows 4 / 32 && x.col + x.n ≤ modeCols 4 && b.hdr.nu + b.hdr.na ≤ 78
        && (getGrp s 0 0).any fun r => Table.wf 0 r.regs) := by decide +kernel

/-- IntegerProduct: the first and the last integer type. -/
theorem test_witness_IntegerProduct : [6, 10].all (fun t =>
    let s := modSlots gS 0 [0, 1] fun y => { y with state := 3, header := BitVec.ofNat 32 t }
    (headerOf s 0 0).1 = t && (headerOf s 0 1).1 = t && (headerOf s 0 0).2.1 = 0 && (headerOf s 0 0).2.2.2 % 32 = 0) ∧ mma0.sat = false := by
  decide +kernel

/-- A barrier object 63 of core 0 in a state. -/
def barS (s : State) (o : Barrier) : State := modBar s 0 63 fun _ => o

/-- BarrierInstructionsComplete, an object of the own core, from a group: each state of the object, a member and none, an arrival
and none, a phase that is complete and one that is not. -/
theorem test_witness_BarrierInstructionsComplete_group :
    ([{}, { state := 1 }, { state := 2 }, { state := 3 }, { state := 1, touched := true }, { state := 1, lmask := 1 }, { state := 1, lmask := 1, larr := 1 },
      { state := 1, cmask := 1 }, { state := 1, femem := true }] : List Barrier).all (fun o => !ownPending (barS gS o) ⟨0, .grp 0⟩ && onGrp (barS gS o) fun c =>
        getBar (barS gS o) 0 63 = some o && sharedG (barS gS o) c true [(31, 1)] (.guard 0) && sharedG (barS gS o) c true [(31, 1)] (.dest 7)
        && issReleases (barS gS o) (.grp c) && sharedG (barS gS o) c false [(31, 1), (30, 1)] (.guard 0)
        && sharedG (barS gS o) c true [] (.guard 0) && sharedG (barS gS o) c true [(31, 1), (30, 1)] (.dest 7)) ∧
    getBar (modBlk gS 0 fun b => { b with hdr := { b.hdr with barriers := 63 } }) 0 63 = none ∧ (barAim gS 0 512).isNone ∧
    onGrp (gGrp fun r => { r with regs := putReg probeHeader r.regs 31 [0] fun _ => 0x80000000 }) (fun c => (opWord (.grp c) 31).getLsbD 31) ∧
    isMember { state := 1, lmask := 1 } (.grp 0) ∧ isMember { state := 1 } (.grp 0) = false ∧ hasArrived { state := 1, lmask := 1, larr := 1 } (.grp 0) ∧
    hasArrived { state := 1, lmask := 1 } (.grp 0) = false ∧
    (let s := barS gS { state := 1, lmask := 3 }
     onGrp s fun c => sharedG s c true [(31, 1)] (.dest 7) && issReleases s (.grp c) &&
       barAim (evalBarrier (modBar (putWord s (.grp c) 31 0) 0 63 fun x => arrive x (.grp 0)) 0 63) 0 63 = some (0, 63)) := by decide +kernel

/-- BarrierInstructionsComplete from a front-end, and waits on an object: phases one behind, alike, and 2^31 behind; a bound of 0 and 1. -/
theorem test_witness_BarrierInstructionsComplete_frontEnd :
    ownPending fS ⟨0, .fe⟩ = false ∧
    onFe (barS fS { state := 1, femem := true }) (fun c => sharedF (barS fS { state := 1, femem := true }) c true [63] (.guard 0)
      && sharedF (barS fS { state := 1, femem := true }) c false [63, 62] (.dest 7) && issReleases (barS fS { state := 1, femem := true }) (.fe c)
      && isMember { state := 1, femem := true } .fe && (imm9 (issLit (.fe c)) 0).toNat = 0 && (imm9 (issLit (.fe c)) 1).toNat = 1) ∧
    [(1, 0, true), (0, 0, false), (0x80000000, 0, true), (0x80000001, 0, false)].all (fun e => phaseDone { state := 1, phase := e.1 } e.2.1 = e.2.2) ∧
    barAim (barS gS { state := 1 }) 0 63 = some (0, 63) := by decide +kernel

/-- A second member of the cluster, on core 1. -/
def pairS (s : State) : State := modCore (modCl s 1 fun c => { c with w := 2 }) 1 fun k => { k with block := some { probeBlock with member := 1 } }

/-- A member of the cluster on core 48, of another die, when no seam carries. -/
def crossS (s : State) : State :=
  [0, 1, 2, 3].foldl (fun s l => modLink s l fun k => { k with state := .failed })
    (modCore (modCl s 1 fun c => { c with w := 8 }) 48 fun k => { k with block := some { probeBlock with member := 6 } })

/-- BarrierInstructionsComplete, an object of another core: with a route, without one, and an address that names no object. -/
theorem test_witness_BarrierInstructionsComplete_remote :
    barAim (pairS gS) 0 (256 + 63) = some (1, 63) ∧ routeUp (pairS gS) (coreDie 0) (coreDie 1) ∧ (barAim (pairS gS) 0 512).isNone ∧
    onGrp (pairS gS) (fun c => sharedG (pairS gS) c false [(31, 1), (30, 1)] (.dest 7) && sharedG (pairS gS) c true [(31, 1), (30, 1)] (.guard 0)
      && sharedG (pairS gS) c true [(31, 1), (30, 1)] (.dest 7)) ∧ ownPending (pairS gS) ⟨0, .grp 0⟩ = false ∧
    (let s := crossS gS
     barAim s 0 (6 * 256 + 63) = some (48, 63) ∧ routeUp s (coreDie 0) (coreDie 48) = false ∧ coreDie 48 ≠ coreDie 0 ∧
     [{}, { state := 1 }].all fun o : Barrier => getBar (modBar s 0 63 fun _ => o) 0 63 = some o) ∧
    onFe (pairS fS) (fun c => sharedF (pairS fS) c false [63, 62] (.dest 7)) := by decide +kernel

/-- PhaseCompletionTest, LastArrivalCompletesPhase: a complete phase; an object whose last arrival is this one. -/
theorem test_witness_LastArrivalCompletesPhase :
    (let s := barS gS { state := 1, phase := 1 }
     onGrp s fun c => !ownPending s ⟨0, .grp 0⟩ && sharedG s c true [(31, 1), (30, 1)] (.dest 7) && barAim s 0 63 = some (0, 63) && phaseDone { state := 1, phase := 1 } 0 && sharedG s c false [(31, 1), (30, 1)] (.dest 7)) ∧
    (let o : Barrier := { state := 1, lmask := 1, expb := 4, arrb := 4 }
     let x := arrive o (.grp 0)
     onGrp (barS gS o) fun c => sharedG (barS gS o) c true [(31, 1)] (.guard 0) && issReleases (barS gS o) (.grp c) && isMember o (.grp 0)
       && !hasArrived o (.grp 0) && o.parent = 0xFFFF && o.heldBatches = [] && o.leaving = 0 && !o.errNow && (barS gS o).evals.isEmpty && !ownPending (barS gS o) ⟨0, .grp 0⟩ && x.larr &&& x.lmask = x.lmask
       && x.fearr = x.femem && x.carr &&& x.cmask = x.cmask && x.expb.toNat ≤ x.arrb.toNat) := by decide +kernel

/-- A request on object 63 of core 1. -/
def barReq (op : BarOp) : BarReq := { id := 40, src := ⟨0, .grp 0⟩, split := 0, member := 0, spot := 0x13F, dst := 1, index := 63, op := op }

/-- A state with a request. -/
def barReqS (r : BarReq) (o : Barrier) : State := modBar (modFlight (pairS gS) fun f => { f with bars := [r] }) 1 63 fun _ => o

/-- BarrierEvents: each operation, on an object that is there and one that is not initialised. -/
theorem test_witness_BarrierEvents :
    ([.expect 4, .query 1 false 31, .read 0 1 none true, .read 0 1 (some 9) false, .link 3] : List BarOp).all (fun op =>
      ([{ state := 1 }, { state := 1, phase := 1 }, {}] : List Barrier).all fun o =>
        let s := barReqS (barReq op) o
        getBarReq s 40 = some (barReq op) && barTarget s 0 1 63 = some o && !barBefore s (barReq op) && !issuerPlacing s (barReq op) && !barHeld s (barReq op) && !(barReq op).read
          && !s.flight.bars.any (linksFrom 1 63)) ∧
    (let s := modSpl (barReqS { barReq (.expect 4) with reply := some (some 0) } { state := 1 }) 0 0 0 fun x => { x with wait := .barrierReply 40 }
     waitOf s (barWaiting { barReq (.expect 4) with reply := some (some 0) }) = .barrierReply 40 ∧ threadLive s 0 (.grp 0) ∧ barHeld s (barReq (.expect 4)) = false) ∧
    [0, 1, 2, 3].all (fun k =>
      let m : BarMsg := { id := 41, cluster := 1, kind := k, fromMember := 0, toMember := 1, index := 63, phase := 0, error := k = 1, code := 0 }
      let s := modFlight (pairS gS) fun f => { f with barMsgs := [m] }
      getBarMsg s 41 = some m && barMsgTurn s m && (getCl s 1).isSome && !barMsgLost s m
        && (let m := { m with toMember := 6 }
           let s := modFlight (crossS gS) fun f => { f with barMsgs := [m] }
           getBarMsg s 41 = some m && barMsgTurn s m && (getCl s 1).isSome && barMsgLost s m)) ∧
    (let s := modSpl { barS gS { state := 1 } with clk := { gS.clk with cycle := 5 } } 0 0 0 fun x => { x with wait := .barrier 63 0 1 (some 4) none }
     waitOf s { core := 0, who := .grp 0, split := 0 } = .barrier 63 0 1 (some 4) none ∧ threadLive s 0 (.grp 0) ∧ 4 < s.clk.cycle ∧
     (getBar s 0 63).any fun o => !phaseDone o 0 && o.state ≠ 0) := by decide +kernel

/-! ## Witnesses: jobs, contexts, the dispatcher, messages -/

/-- The context with room for another job, and queue 63 its own. -/
def roomS (s : State) (q : QueueState) : State := modQueue (modCtx s 0 fun c => { c with jobs := 2 }) 63 fun _ => { state := q, owner := 0 }

/-- The job of the block, changed. -/
def jobS (s : State) (f : Job → Job) : State := modJob s 1 f

/-- JobInstructionsComplete, of a group: a queue that is free, open and paused; room and none; weights 0, 1 and more; selectors 3
and 4; an address that is aligned and one that is not; a page that is known, forbidden and not known. -/
theorem test_witness_JobInstructionsComplete_group :
    [QueueState.free, .open_, .paused].all (fun q => let s := roomS gS q
      onGrp s fun c => sharedG s c true [(30, 2), (29, 1)] (.dest 7) && sluiceRoom s 0 && (getQueue s 63).state = q && (getQueue s 63).owner = c.blk.ctx
        && (spawnOf s ⟨0, .grp 0⟩).isNone && (getJob s c.blk.job).any fun j => j.weight ≠ 0) ∧
    sluiceRoom gS 0 = false ∧ (getQueue (modQueue gS 63 fun _ => { state := .open_, owner := 1 }) 63).owner ≠ 0 ∧
    [0, 1].all (fun w => (getJob (jobS gS fun j => { j with weight := w }) 1).any fun j => j.weight = w) ∧
    onGrp gS (fun c => sharedG gS c false [(31, 1)] (.guard 0) && sharedG gS c false [] (.guard 0) && sharedG gS c true [(31, 1)] (.guard 0)
      && sharedG gS c false [(30, 2), (28, 2)] (.guard 0) && !issAcquires (.grp c) && (opWide (.grp c) 30).toNat % 8 = 0) ∧
    onGrp (gGrp fun r => { r with regs := putReg probeHeader r.regs 30 [0] fun _ => 4 }) (fun c => (opWide (.grp c) 30).toNat % 8 = 4) ∧
    ([gS, leafS true, modCore gS 0 fun k => { k with tcache := [{ ctx := 0, va := 0, leaf := { leaf0 true with r := false } }] }].all fun s =>
      (getReq (issueReq (bumpId s) { id := nextId s, inst := nextId s, thread := ⟨0, .grp 0⟩, split := 0, die := 0, ctx := 0, pc := 0x40, va := 0, op := .waitw 0 }) (nextId s)).isSome) := by
  decide +kernel

/-- JobInstructionsComplete, of a front-end. -/
theorem test_witness_JobInstructionsComplete_frontEnd : let s := roomS fS .open_
    onFe s fun c => sharedF s c true [63, 62] (.dest 7) && sharedF s c false [63] (.guard 0) && sluiceRoom s 0 && (spawnOf s ⟨0, .fe⟩).isNone
      && (getJob s c.blk.job).any fun j => j.weight ≠ 0 := by decide +kernel

/-- A queue in the state after reset. -/
def queueS (f : HwQueue) : State := modQueue (modCtx State.reset 0 fun c => { c with state := .open_, jobs := 1 }) 63 fun _ => f

/-- JobEvents, queues: 255 entries and 256; open, paused, free; the one queue that draws. -/
theorem test_witness_JobEvents_queues :
    [255, 256].all (fun n => (getQueue (queueS { state := .open_, fifo := List.replicate n 0x100 }) 63).fifo.length = n) ∧
    [QueueState.open_, .paused, .free].all (fun q => (getQueue (queueS { state := q }) 63).state = q) ∧
    (let s := queueS { state := .open_, fifo := [0x100] }
     (getQueue s 63).fifo = 0x100 :: [] ∧ (getCtx s 0).state ≠ .closing ∧ drawRoom s 0 ∧ (s.sched.lastDrawn + 1 + 63) % 64 = 63 ∧
     (List.range 63).all (fun m => (getQueue s m).fifo = [])) ∧
    (let s := modQueue (modQueue (queueS { state := .open_, fifo := [0x100] }) 62 fun _ => { state := .open_, fifo := [0x200, 0x300] }) 61 fun _ => { state := .paused, fifo := [0x400] }
     let t (n : Nat) : State := { s with sched := { s.sched with lastDrawn := n } }
     [(60, 1, 62), (61, 0, 62), (62, 0, 63)].all fun e =>
       ((t e.1).sched.lastDrawn + 1 + e.2.1) % 64 = e.2.2 && (getQueue (t e.1) e.2.2).state = .open_ && (getQueue (t e.1) e.2.2).fifo ≠ []
         && (getCtx (t e.1) (getQueue (t e.1) e.2.2).owner).state ≠ .closing && drawRoom (t e.1) (getQueue (t e.1) e.2.2).owner
         && (List.range e.2.1).all fun j => (getQueue (t e.1) (((t e.1).sched.lastDrawn + 1 + j) % 64)).state ≠ .open_) ∧
    ((List.range 64).all fun m => (getQueue State.reset m).fifo = []) := by decide +kernel

/-- A job that is being spawned, with its record fetched. -/
def spawnS (w share : Nat) : State := putJob (jobS gS fun j => { j with weight := w }) 99
  { num := 0, ctx := 0, queue := none, recAddr := 0, state := .spawning, root := 1, parent := 1, src := some ⟨0, .grp 0⟩, fetched := some none
    record := { twshare := share }, spawn := some { reg := 31, pred := 1, split := 0, lanes := 1 } }

/-- JobEvents, jobs: one accepted, one refused; a parent that keeps 1 and one that keeps none; a comparison that holds, with
255 waiters and 256; a wake. -/
theorem test_witness_JobEvents_jobs :
    (getJob (putJob gS 99 { num := 99, ctx := 0, queue := none, recAddr := 0, state := .accepting, root := 99, parent := 99 }) 99).any (fun j => j.src = none) ∧
    (getJob (jobS gS fun j => { j with fetched := some (some 7) }) 1).any (fun j => j.fetched = some (some 7)) ∧
    [(2, 1), (1, 1), (1, 0)].all (fun e => let s := spawnS e.1 e.2
      (getJob s 99).any (fun j => j.state = .spawning && j.src = some ⟨0, .grp 0⟩ && j.spawn.isSome && storesBefore s ⟨0, .grp 0⟩ j.after)
      && ((getJob (fetchRecord (acquireFor s ((getJob s 99).getD { num := 0, ctx := 0, queue := none, recAddr := 0, state := .failed, root := 0, parent := 0 })) 99) 1).map Job.weight) = some e.1) ∧
    (let r := { req0 with op := .waitw 0, bytes := [] }
     atHomeNow (reqS [r]) r ∧ (homeCode (reqS [r]) 0 (reqPlace r) (reqAddr r)).isNone ∧ recallFirst (reqS [r]) r = [] ∧
     (compareBad (reqS [r]) (reqPlace r) (reqAddr r)).isNone ∧ homeValue (reqS [r]) (reqPlace r) (reqAddr r) 8 = 0 ∧
     sliceWaiters (reqS [r]) (reqPlace r) (reqAddr r) < 256 ∧ placeTier (reqPlace r) ≠ 3) ∧
    (let r := { req0 with op := .wake, bytes := [(0, 0, 1)] }
     getReq (reqS [r]) 5 = some r ∧ atHomeNow (reqS [r]) r ∧ (homeCode (reqS [r]) 0 (reqPlace r) (reqAddr r)).isNone ∧ recallFirst (reqS [r]) r = [] ∧ r.send = none) := by decide +kernel

/-- WakeEndsRegistrations: a waiter of the word is there before, and a waiter of another word after. -/
theorem test_witness_WakeEndsRegistrations :
    let w (i : Nat) : Waiter := { ctx := 0, key := lineKey place0 0x200000, word := i, thread := ⟨0, .grp 0⟩, split := 0, id := 60 + i }
    let s := modDie gS 0 fun d => { d with waiters := [w 0, w 2] }
    (getDie s 0).waiters = [w 0, w 2] ∧ w 2 ∈ (getDie (wakeWord s place0 0x200000) 0).waiters := by decide +kernel

/-- A descriptor at 0x100000 of the HBM: its fault queue of 16 records, queue 0. -/
def descrS (s : State) : State := physPut (physPut s geoQuad 0x100000 (natBytes 16 (0x200000 + 2 ^ 64))) geoQuad 0x100020 [4]

/-- The state after reset, with a context in a state. -/
def ctxS (st : CtxState) : State := modCtx (descrS State.reset) 0 fun c => { c with state := st }

/-- ContextEvents: each state of a context, a descriptor that is sound, queues free and taken, a command under way. -/
theorem test_witness_ContextEvents_commands :
    [CtxState.free, .open_, .active, .suspending, .suspended, .faulted, .closing].all (fun st => (getCtx (ctxS st) 0).state = st && (ctxS st).host.ctxStatus ≠ 1) ∧
    (goodDescriptor (ctxS .free) 0x100000).any (fun c => !rootBad c && c.qmask = 1 && !(setBits 64 c.qmask).any fun q => (getQueue (ctxS .free) q).state ≠ .free) ∧
    (goodDescriptor (ctxS .free) 0x100001).isNone ∧
    (setBits 64 (1 : DWord)).any (fun q => (getQueue (modQueue (ctxS .free) 0 fun k => { k with state := .open_ }) q).state ≠ .free) ∧
    (setStatus (ctxS .free) 1).host.ctxStatus = 1 ∧ ctxResident (ctxS .suspending) 0 = false ∧ (ctxS .closing).flight.global = [] := by decide +kernel

/-- A fault record. -/
def faultRec0 : FaultRec := blockRecord gS 0 probeBlock .fe 0x0E 3

/-- A context with a record to deliver, whose fault queue at 0 is full: 16 records, of which none has been read. -/
def fullS : State := modCtx (physPut (tableS gS (leaf0 true)) place0 0 [16, 0, 0, 0]) 0 fun c => { c with mode := 1, fqlog := 4, pending := [faultRec0] }

/-- ContextEvents, records: one pending, a full queue, the mailbox free and taken. -/
theorem test_witness_ContextEvents_records :
    (getCtx fullS 0).pending = faultRec0 :: [] ∧
    (queueEnds (modCtx fullS 0 fun k => { k with pending := [] }) 0).2 = some (16, 0) ∧ ((16 : Word) - 0).toNat = 2 ^ (getCtx fullS 0).fqlog ∧
    gS.host.faultFull = false := by decide +kernel

/-- A state with a job of one cluster to place, and no block. -/
def readyS (f : JobRec → JobRec) : State :=
  putJob (modCtx State.reset 0 fun c => { c with state := .open_, cores := 1, jobs := 1 }) 1
    { num := 1, ctx := 0, queue := none, recAddr := 0, state := .ready, record := f { gx := 1, gy := 1, gz := 1 }, root := 1, parent := 1, weight := 2 ^ 32 }

/-- A state whose cores are all taken by a cluster of a job of lower priority: none here, so no pre-emption. -/
theorem test_witness_DispatcherEvents_place :
    [999, 1000].all (fun n => pondDue { readyS id with clk := { (readyS id).clk with gts := BitVec.ofNat 64 n } } = (n = 1000)) ∧
    pondDue (readyS id) = false ∧ (preemptFor (readyS id)).isNone ∧ (firstPlaceable (readyS id)).isSome ∧ (readyS id).mode.getLsbD 2 ∧
    (let s : State := { readyS id with mode := 0x7B }
     pondDue s = false ∧ (preemptFor s).isNone ∧ (firstPlaceable s).isSome ∧ s.mode.getLsbD 2 = false ∧ s.sched.placeReq = none) ∧
    (firstPlaceable State.reset).isNone ∧ (preemptFor State.reset).isNone ∧
    (let s : State := { readyS id with sched := { (readyS id).sched with placeReq := some { job := 1, cluster := none } } }
     let t : State := { s with sched := { s.sched with placeReq := none } }
     !pondDue t && (getJob s 1).any fun j => (candidates t).contains { job := 1, cl := none } && rectUsable t j.record (coreFree t 1) 0 0 j.w j.h
       && !rectUsable t j.record (coreFree t 1) 12 0 j.w j.h && !(candidates t).contains { job := 2, cl := none } && (rectDies 0 0 j.w j.h).length ≤ 1
       && coresOk t j { job := 1, cl := none } && energyOk t j && !coresOk (modCtx t 0 fun c => { c with cores := 0 }) j { job := 1, cl := none }) := by
  decide +kernel

/-- The cluster of the block, changed. -/
def clusterS (f : Cluster → Cluster) : State := modCl gS 1 f

/-- DispatcherEvents: a core to zero, a launch, a budget of 0 with a block on member 0 and none, a block that is done. -/
theorem test_witness_DispatcherEvents_blocks :
    ((clusterS fun c => { c with state := .placing, zeroing := [0] }).sched.clusters.find? fun e => e.2.state = .placing && e.2.zeroing.contains 0).isSome ∧
    (let s := clusterS fun c => { c with state := .placing }
     (getCl s 1).any fun c => c.zeroing = [] && (getJob s c.job).any fun j => !mustLeave s j.ctx c) ∧
    (getCl (clusterS fun c => { c with budget := some 0 }) 1).any (fun c => c.state = .running && c.budget = some 0 && (getBlk gS (memberCore c 0)).isSome) ∧
    (getBlk (modCore gS 0 fun k => { k with block := none }) 0).isNone ∧ (getCl gS 1).any (fun c => c.budget ≠ some 0) ∧
    (let s := modBlk gS 0 fun b => { b with fe := { b.fe with run := .exited }, groups := [(0, { run := .exited, splits := [] })] }
     (getBlk s 0).any fun b => blockDone s 0 b && (getCtx s b.ctx).state ≠ .closing && (getCl s b.cluster).isSome) := by decide +kernel

/-- The block at a stop before it is saved. -/
def quietS (f : JobRec → JobRec) (fr : Option Nat) : State :=
  modBlk (jobS (modCl (tableS gS (leaf0 true)) 1 fun c => { c with state := .preempting }) fun j => { j with record := f j.record }) 0 fun b =>
    { b with hdr := { b.hdr with idem := [(0x40, 0x80)] }, fe := { b.fe with stopped := true, idem := fr }, groups := b.groups.map fun e => (e.1, { e.2 with stopped := true }) }

/-- DispatcherEvents, a pre-empted cluster: one that is to be saved, one that is discarded. -/
theorem test_witness_DispatcherEvents_save :
    (let s := quietS id none
     (getCl s 1).any fun c => c.state = .preempting && clusterQuiet s c && !discardable s c && (getCtx s 0).state ≠ .faulted
       && (clusterCores c).zip (freeSlots s 0 1) = [(0, 0)]) ∧
    (let s := quietS (fun r => { r with flags := 0xFF }) (some 0)
     (getCl s 1).any fun c => c.state = .preempting && clusterQuiet s c && discardable s c && (getCtx s 0).state ≠ .faulted) := by decide +kernel

/-- A split waits in WAITJ, in a group that is stopped and that a STEP has released, or in one that is not. -/
def joinS (st : Bool) : State :=
  modBlk (gGrp fun r => { r with stopped := st, splits := [(0, { pc := 0x40, lanes := 0xFF, wait := .waitj 1 0 }), (1, { pc := 0x80, lanes := 0xFF00 })] }) 0
    fun b => { b with stepping := if st then some { who := .grp 0, gen := 0, expires := 7 } else none }

/-- IssueEvents: code that is in the cache and code that is not, known and not known; three and four active groups; a group whose
splits all wait long; a WAITJ that expires. -/
theorem test_witness_IssueEvents :
    (fetcher gS).any (fun e => (fetchWord gS 0 e.1 e.2).isSome) ∧
    (let s := modCore gS 0 fun k => { k with icache := [] }
     (fetcher s).any fun e => (fetchWord s 0 e.1 e.2).isNone && (codeLine s 0 e.1 (codeVa e.1 e.2)).2.isNone) ∧
    (let s := modCore gS 0 fun k => { k with icache := [], tcache := [{ ctx := 0, va := 0, leaf := { leaf0 true with x := true } }] }
     (fetcher s).any fun e => match (codeLine s 0 e.1 (codeVa e.1 e.2)).2 with
       | some (.inl _) => true
       | _ => false) ∧
    (let s := modCore gS 0 fun k => { k with icache := [], tcache := [{ ctx := 0, va := 0, leaf := leaf0 true }] }
     (fetcher s).any fun e => match (codeLine s 0 e.1 (codeVa e.1 e.2)).2 with
       | some (.inr _) => true
       | _ => false) ∧
    [3, 4].all (fun n =>
      let s := modBlk gS 0 fun b => { b with groups := (List.range (n + 1)).map fun i => (4 * i, { run := if i < n then .active else .ready, splits := [], admitted := 8 }) }
      [8, 9].all fun now => (getBlk s 0).any fun b =>
        ((partGroups b 0).all fun e => e.2.run ≠ .active || e.2.admitted ≠ ({ s.clk with cycle := now } : Clock).cycle) = (now = 9) && b.launched && oldestReady (partGroups b 0) = some (4 * n)
        && ((partGroups b 0).filter fun e => e.2.run = .active && !e.2.stopped).length = n) ∧
    (let s : State := { gGrp fun r => { r with flags := [(2, 1)], splits := [(0, { pc := 0x40, lanes := 0xFF, held := 1, waitMask := 4 })] } with clk := { gS.clk with cycle := 32 } }
     (getGrp s 0 0).any fun r => r.run = .active && r.splits.all fun x => longWait s 0 0 r.flags x) ∧
    [false, true].all (fun st =>
     let s := joinS st
     waitOf s { core := 0, who := .grp 0, split := 0 } = .waitj 1 0 && threadLive s 0 (.grp 0) && steppedNow s 0 (.grp 0) = st && (getGrp s 0 0).any (fun r => r.stopped = st) &&
     (waitingSplit s { core := 0, who := .grp 0, split := 0 }).any fun x => (getGrp s 0 0).any fun r => !othersAtJoin r 0 x x.unitEnd) := by
  decide +kernel

/-- A send entry. -/
def send0 : SendEntry := { id := 70, wake := false, pc := 0x40, thread := ⟨0, .grp 0⟩, dstDev := 0, dstCore := 0, tag := 7, addr := 0, len := 16, va := 0, value := 0, rel := true, bar := none, after := 70 }

/-- A receive. -/
def recv0 : Recv := { id := 71, anySrc := false, dev := 0, core := 0, tag := 0, addr := 0x40, len := 16, bar := some 63, job := none }

/-- Values in the operands of a messaging instruction: the endpoint in v28, the buffer in v30, a job in v27. -/
def msgS (f : CoreSt → CoreSt) (ep bw : Word) : State :=
  modCore (gGrp fun r => { r with regs := putReg probeHeader (putReg probeHeader r.regs 31 [0] fun _ => bw) 29 [0] fun _ => ep }) 0 f

/-- MessageInstructionsComplete: tables with 31 entries and 32; a device that is this one and another, with the fabric and without;
lengths of 16 bytes and of one granule less one byte; any source; a receive and a waiting header of the word, and none. -/
theorem test_witness_MessageInstructionsComplete_group :
    (let s := msgS id 0 16
     onGrp s fun c => !issAcquires (.grp c) && !faultUnreported s (issThread (.grp c)) && sharedG s c true [(28, 2), (30, 2)] (.dest 7) && sharedG s c true [(28, 3), (30, 2)] (.dest 7) && sharedG s c false [(26, 2), (28, 2)] (.dest 7)
      && sharedG s c false [(28, 2)] (.dest 7) && 63 < c.blk.hdr.barriers && ((opWide (.grp c) 28).extractLsb' 42 10).toNat = s.host.devnum
      && ((opWide (.grp c) 30).extractLsb' 32 17).toNat = 16 && (poolTarget s 0 ((opWide (.grp c) 30).extractLsb' 0 32) 16).isSome
      && ((getCore s 0).recvs.find? fun r => sameWord r (opWide (.grp c) 28)) = none && (opWide (.grp c) 28).toNat % 8 = 0) ∧
    (let s := msgS id 0x400 15
     onGrp s fun c => ((opWide (.grp c) 28).extractLsb' 42 10).toNat = 1 && !fabricEn s 0 && ((opWide (.grp c) 30).extractLsb' 32 17).toNat % 16 = 15
      && sharedG s c false [(28, 2)] (.dest 7) && fabricEn { s with host := { s.host with fabric := [(0, 0x10000)] } } 0) ∧
    (let s := msgS id 0x400 16
     onGrp s fun c => !fabricEn s c.blk.ctx && ((opWide (.grp c) 28).extractLsb' 42 10).toNat ≠ s.host.devnum && (opWide (.grp c) 30).toNat % 16 = 0
      && ((opWide (.grp c) 30).extractLsb' 32 17).toNat = 16 && (poolTarget s 0 0 16).isSome
      && sharedG s c true [(28, 2), (30, 2)] (.dest 7) && sharedG s c true [(28, 3), (30, 2)] (.dest 7) && sharedG s c false [(26, 2), (28, 2)] (.dest 7)
      && sharedG s c false [(28, 2)] (.dest 7)) ∧
    (let s := msgS id 0 0
     onGrp s fun c => ((opWide (.grp c) 30).extractLsb' 32 17).toNat = 0 && (opWide (.grp c) 30).toNat % 16 = 0 && sharedG s c true [(28, 2), (30, 2)] (.dest 7)) ∧
    (let s := msgS id 0x100000 16
     onGrp s fun c => (opWide (.grp c) 28).getLsbD 52) ∧
    [31, 32].all (fun n => let s := msgS (fun k => { k with sends := List.replicate n send0, recvs := List.replicate n recv0 }) 0 16
      (getCore s 0).sends.length = n && (getCore s 0).recvs.length = n) ∧
    (let s := msgS (fun k => { k with recvs := [recv0] }) 0 16
     onGrp s fun c => ((getCore s 0).recvs.find? fun r => sameWord r (opWide (.grp c) 28)) = some recv0) ∧
    onGrp (leafS true) (fun c => match askLeaf (leafS true) 0 c.blk.ctx 0 with
      | (_, some (.leaf l)) => (leafRight l false true false).isNone
      | _ => false) ∧
    onGrp (gGrp fun r => { r with regs := putReg probeHeader r.regs 28 [0] fun _ => 4 }) (fun c => (opWide (.grp c) 28).toNat % 8 ≠ 0) := by
  decide +kernel

/-- MessageInstructionsComplete, of a front-end: registers up to s62 and s63. -/
theorem test_witness_MessageInstructionsComplete_frontEnd : let s := writeS fS 0 61 (16 * 2 ^ 32)
    onFe s fun c => sharedF s c true [62, 61] (.dest 7) && sharedF s c true [62, 63, 61] (.dest 7) && ((opWide (.fe c) 61).extractLsb' 32 17).toNat = 16
      && (poolTarget s 0 0 16).isSome && sharedF s c false [62] (.dest 7) := by decide +kernel

/-- A message of core 0 to itself. -/
def msg0 (st : Nat) : MsgFlight := { id := 72, stage := st, hdr := { srcDev := 0, srcCore := 0, tag := 7, len := 16, send := 70, ctx := 0 }, dstDev := 0, dstCore := 0, recv := 71, data := List.replicate 16 0xCD }

/-- A state with a message. -/
def msgFS (m : MsgFlight) : State := modCore (modFlight gS fun f => { f with msgs := [m] }) 0 fun k => { k with sends := [send0], recvs := [{ recv0 with len := 32 }] }

/-- MessageEvents: each stage, to this device and to another. -/
theorem test_witness_MessageEvents :
    getMsg (msgFS (msg0 0)) 72 = some (msg0 0) ∧ (msg0 0).dstDev = gS.host.devnum ∧
    ([(7, 0, 0), (0, 63, 0), (0, 64, 0), (0, 0, 1)] : List (Nat × Nat × Nat)).all (fun e =>
      let m := { msg0 0 with hdr := { (msg0 0).hdr with ctx := e.2.2 } }
      let s := modCore (msgFS m) 0 fun k => { k with recvs := [{ recv0 with tag := BitVec.ofNat 32 e.1 }], overflow := List.replicate e.2.1 m.hdr }
      let t := releaseAt s 0 3
      headerTurn s m && !msgHeld s m && !fabricHeld s 0 && !headerCut t m && endpointOk t m.hdr 0 = (e.2.2 = 0) && (getCore t 0).overflow.length = e.2.1
        && ((getCore t 0).recvs.find? fun r => !r.matched && r.tag = m.hdr.tag && (r.anySrc || (r.dev = 0 && r.core = 0))).isSome = (e.1 = 7)) ∧
    [true, false].all (fun up =>
      let m := { msg0 0 with dstDev := 1 }
      let s := msgFS m
      let s := modLink { s with host := { s.host with route := [(1, 0x80)] } } 4 fun k => { k with state := if up then .up else .failed }
      let t := releaseAt s 0 3
      headerTurn s m && !msgHeld s m && !fabricHeld s 1 && headerCut t m = !up && routeLink (tgetD 0 1 t.host.route) = some 4 && linkIn t carries 4 = up) ∧
    ([1, 2, 3].all fun k => !msgHeld (msgFS (msg0 k)) (msg0 k) && !coreTested (msgFS (msg0 k)) 1 0) ∧
    sendOf (msgFS (msg0 1)) (msg0 1).hdr = some send0 ∧ pullBad (msgFS (msg0 1)) (msg0 1).hdr = false ∧
    ((getCore (msgFS (msg0 2)) 0).recvs.find? fun y => y.id = (msg0 2).recv) = some { recv0 with len := 32 } ∧ Memory.wf (getCore (msgFS (msg0 2)) 0).pool ∧
    sendOf (dropMsg (msgFS (msg0 3)) 72) (msg0 3).hdr = some send0 ∧
    (let q := { req0 with send := some 70, stage := .performed, op := .wake }
     let s := modFlight (msgFS (msg0 0)) fun f => { f with global := [q] }
     getReq s 5 = some q ∧ ((getCore s 0).sends.find? fun x => x.id = 70) = some send0) := by decide +kernel

/-! ## Witnesses: faults, pages, debug, links and the device -/

/-- The context 0 of a state made privileged. -/
def privS (s : State) : State := modCtx s 0 fun c => { c with mode := 1 }

/-- A migration of page 0 of context 0 to another place. -/
def mig0 : Migration := { id := 90, ctx := 0, va := 0, by_ := .retire 0, newPa := 0, newPlace := 0x000145C2 }

/-- A leaf of 64 KiB. -/
def leafP : Leaf := { leaf0 true with size := 0 }

/-- A context with a table of four levels, and a page of 64 KiB at 0. -/
def tableP (s : State) : State :=
  modCtx (physPut (physPut (physPut (physPut s geoQuad 0x100000 (natBytes 16 0x200001)) geoQuad 0x200000 (natBytes 16 0x300001))
    geoQuad 0x300000 (natBytes 16 0x400001)) geoQuad 0x400000 (leafEntry leafP)) 0 fun c => { c with ptroot := 0x100000 }

/-- A state with migrations queued. -/
def migS (l : List Migration) : State := let s := tableP gS; { s with pages := { s.pages with queue := l } }

/-- SystemInstructionsComplete, of a group: without privilege and with it; the debug unit off and on; fifteen requests queued and
sixteen; the last barrier; the own context's handle and another's; an own core and one that does not exist. -/
theorem test_witness_SystemInstructionsComplete_group :
    onGrp gS (fun c => sharedG gS c true [(31, 1)] (.guard 0) && sharedG gS c false [(30, 2), (28, 4)] (.dest 7)
      && sharedG gS c true [(29, 3), (27, 2)] (.dest 7) && sharedG gS c false [(30, 2)] (.guard 0) && sharedG gS c true [(31, 1)] (.dest 7)
      && sharedG gS c true [(31, 1), (30, 1)] (.guard 0) && decide (63 < c.blk.hdr.barriers)) ∧
    (trigEvent gS 0 (.bkpt 0)).dbg.dctl.getLsbD 0 = false ∧
    (trigEvent { gS with dbg := { gS.dbg with dctl := 1 } } 0 (.bkpt 0)).dbg.dctl.getLsbD 0 = true ∧
    privileged gS 0 = false ∧ serviceRight gS 0 = false ∧ privileged (privS gS) 0 = true ∧ serviceRight (privS gS) 0 = true ∧
    [15, 16].all (fun n => (migS (List.replicate n mig0)).pages.queue.length = n) ∧
    onGrp gS (fun c => ((vreg c 31 0).extractLsb' 14 12).toNat = c.blk.ctx) ∧ ((0x4000 : Word).extractLsb' 14 12).toNat = 1 ∧
    routeUp gS 0 (coreDie 0) ∧ ((0xC0 : Word).extractLsb' 0 8).toNat = 192 ∧ (poolTarget gS 0 0 1024).isSome := by decide +kernel

/-- SystemInstructionsComplete, of a front-end. -/
theorem test_witness_SystemInstructionsComplete_frontEnd :
    onFe fS fun c => sharedF fS c true [60] (.guard 0) && sharedF fS c false [60, 62, 63] (.dest 7) && sharedF fS c true [62, 63, 61] (.dest 7)
      && sharedF fS c false [60] (.guard 0) && sharedF fS c true [60, 61] (.guard 0) && !privileged fS 0 && privileged (privS fS) 0 := by
  decide +kernel

/-- A request of a service. -/
def svc0 (k : Nat) (h : Word) (r : Option (Bool × List Byte)) : Service :=
  { id := 80, src := ⟨0, .grp 0⟩, split := 0, pd := 7, handle := h, kind := k, sel := 0, dst := 0, reply := r }

/-- A state with such a request. -/
def svcS (s : State) (r : Service) : State := modFlight s fun f => { f with services := [r] }

/-- ServiceAndWalkEvents, services: the three kinds; a stale handle; a group active, faulted, faulted and stopped; a front-end; a reply. -/
theorem test_witness_ServiceAndWalkEvents_services :
    [0, 1, 2].all (fun k => getService (svcS gS (svc0 k 0 none)) 80 = some (svc0 k 0 none)
      && !serviceBefore (svcS gS (svc0 k 0 none)) (svc0 k 0 none) && !serviceHeld (svcS gS (svc0 k 0 none)) (svc0 k 0 none)) ∧
    (getBlk gS 0).any (fun b => handleThread gS (handleOf b 0 (.grp 0)) = some ⟨0, .grp 0⟩
      && handleThread gS (handleOf b 0 (.grp 0) + 0x4000) = none && runOf gS ⟨0, .grp 0⟩ ≠ .faulted) ∧
    [true, false].all (fun st => let s := modGrp gS 0 0 fun r => { r with run := .faulted, stopped := st }
      (getBlk s 0).any fun b => handleThread s (handleOf b 0 (.grp 0)) = some ⟨0, .grp 0⟩ && isStopped s ⟨0, .grp 0⟩ = st
        && (getGrp s 0 0).any fun x => x.run = .faulted && x.stopped = st) ∧
    (let s := modFe gS 0 fun f => { f with run := .faulted }
     (getBlk s 0).any fun b => handleThread s (handleOf b 0 .fe) = some ⟨0, .fe⟩ && b.fe.run = .faulted && !b.fe.stopped) ∧
    (let s := svcS (gSpl fun x => { x with wait := .service 80 }) (svc0 1 0 (some (true, [])))
     waitOf s ⟨0, .grp 0, 0⟩ = .service 80 ∧ threadLive s 0 (.grp 0) ∧ serviceHeld s (svc0 1 0 (some (true, []))) = false) := by decide +kernel

/-- A walk. -/
def walk0 : Walk := { id := 81, core := 0, ctx := 0, va := 0 }

/-- A state with a walk, the device walking or the host. -/
def walkS (w : Walk) (mode : DWord) (m : Option Nat) : State :=
  let s := modFlight (tableS gS (leaf0 true)) fun f => { f with walks := [w] }
  { s with mode := mode, host := { s.host with walkFor := m } }

/-- ServiceAndWalkEvents, walks: the device's and the host's; a frame to zero; an answer with its valid bit clear. -/
theorem test_witness_ServiceAndWalkEvents_walks :
    [0, 2].all (fun m => let s := walkS walk0 m none
      (s.flight.walks.find? fun x => x.id = walk0.id) = some walk0 && !walkHeld s walk0 && walkerFree s walk0 && s.host.walkFor = none && s.mode.getLsbD 1 = (m.getLsbD 1)) ∧
    (let w := { walk0 with zeroing := some (leaf0 true) }
     ((walkS w 2 none).flight.walks.find? fun x => x.id = w.id) = some w) ∧
    mailWalk (walkS { walk0 with posted := true } 0 (some 81)) = some { walk0 with posted := true } ∧ mailWalk (walkS walk0 0 none) = none ∧
    (0 : BitVec 128).getLsbD 0 = false ∧ (1 : BitVec 128).getLsbD 1 = false := by decide +kernel

/-- ServiceAndWalkEvents, shootdowns: a word refused for its scope and for its reserved bits; one of one page, of a context, of all;
an access at its home; a shootdown whose accesses are complete, and none. -/
theorem test_witness_ServiceAndWalkEvents_shootdowns :
    (let s := reqS [req0]
     s.pages.shoot.status ≠ 1 ∧ (0 : DWord).extractLsb' 12 2 ≠ 3 ∧ (0 : DWord).extractLsb' 16 32 = 0 ∧ s.pages.queue = [] ∧
     (0x3000 : DWord).extractLsb' 12 2 = 3 ∧ (0x10000 : DWord).extractLsb' 16 32 ≠ 0 ∧
     req0.leaf.isSome ∧ req0.stage = .atHome ∧ shootCovers 0 0x3000 req0.ctx req0.va 128 = true) ∧
    (let s : State := { gS with pages := { gS.pages with shoot := { gS.pages.shoot with status := 1, waiting := [5] } } }
     s.pages.shoot.status = 1 ∧ s.pages.shoot.waiting.all fun id => !stillOut s id) := by decide +kernel

/-- RestripeEvents: a request that is sound and one misaligned; each stage; the first acknowledgement and the last; a die taken out
and a corrupted frame; a scan whose page is known. -/
theorem test_witness_RestripeEvents :
    getMig (migS [mig0]) 90 = some mig0 ∧ mig0.stage = .queued ∧
    (let m := { mig0 with newPa := 0x8000 }
     let r := migLeaf (migS [m]) m
     (r.2.bind fun l => migCode r.1 m l) = some cMISALIGN) ∧
    (let r := migLeaf (migS [mig0]) mig0
     r.2.any fun l => l.isSome && (migCode r.1 mig0 l).isNone) ∧
    (let m := { mig0 with by_ := .pgmig 0 1 none faultRec0 }
     (migLeaf (migS [m]) m).2.isNone) ∧
    [MigStage.copying, .frozen, .publishing].all (fun g => let m := { mig0 with stage := g, old := some leafP }
      getMig (migS [m]) 90 = some m && m.stage ≠ .queued && goesOn (migS [m]) m && !genInUse (migS [m]) m leafP) ∧
    (let m := { mig0 with stage := .publishing, old := some leafP }
     tgetD false 195 m.acks = false ∧ tgetD [] 195 m.waiting = []) ∧
    ((placeDies mig0.newPlace).any fun d => lostDie (modDie (migS [mig0]) d fun k => { k with admitted := false }) mig0) ∧
    (let s := migS [mig0]
     let n := locNum mig0.newPlace mig0.newPa
     newFrameBad { s with bad := [(n / 4, true)] } mig0 leafP) ∧
    (let x : ScanOp := { id := 91, thread := ⟨0, .grp 0⟩, split := 0, ctx := 0, va := 0, dies := [0, 1, 2, 3] }
     let s := modFlight (modSpl (leafS true) 0 0 0 fun y => { y with wait := .scrub 91 }) fun f => { f with scans := [x] }
     (s.flight.scans.find? fun y => y.id = x.id && y.dies.length = 4) = some x ∧
     ((waitingSplit s { core := 0, who := .grp 0, split := 0 }).any fun y => y.wait = .scrub 91) ∧ s.pages.queue = [] ∧
     (match (askLeaf s 0 0 0).2 with
      | some (.leaf _) => true
      | _ => false) = true) := by decide +kernel
/-- A core's cluster held by a stop, and its threads with it. -/
def heldS (st : Bool) : State :=
  let s := modBlk gS 0 fun b => { b with stopping := st, fe := { b.fe with stopped := st }, groups := b.groups.map fun e => (e.1, { e.2 with stopped := st }) }
  { s with sched := { s.sched with clusters := s.sched.clusters.map fun e => (e.1, { e.2 with stopped := st }) } }

/-- A state at a cycle. -/
def atS (s : State) (n : Nat) : State := { s with clk := { s.clk with cycle := n } }

/-- DebugCommands: a command that runs and none; a core with no block, one with a running cluster, one with a stopped cluster; a step
that has its time and one that has not; the last selector of a write; a stop on its way; a sample due in the cycle and its group. -/
theorem test_witness_DebugCommands :
    gS.dbg.status ≠ 1 ∧ ({ gS.dbg with status := 1 } : Dbg).status = 1 ∧ getBlk gS 191 = none ∧ (getBlk gS 0).isSome ∧
    [true, false].all (fun b => (coreCluster (heldS b) 0).any fun cl => cl.stopped = b) ∧ clusterStopped (heldS true) 0 ∧
    (getBlk (heldS true) 0).any (fun b => keptRun b .fe ≠ .exited && keptRun b .fe ≠ .killed && keptRun b (.grp 0) ≠ .exited
      && keptRun b (.grp 0) ≠ .killed && b.stopping && allStopped b && resultsLanded (heldS true) 0) ∧
    [true, false].all (fun up => let s := modLink (heldS true) 16 fun k => { k with state := if up then .up else .down }
      linkUp s 16 = up && (getBlk s 0).any fun b => b.stopping && allStopped b && resultsLanded s 0) ∧
    (getBlk (heldS false) 0).any (fun b => !b.stopping && !allStopped b) ∧ clusterStopped (heldS false) 0 = false ∧
    (getBlk (modBlk gS 0 fun b => { b with stopping := true }) 0).any (fun b => b.stopping && !allStopped b) ∧
    8 < (9 : BitVec 6).toNat ∧ (8 : BitVec 6).toNat ≤ 8 ∧
    (let s : State := { heldS true with dbg := { gS.dbg with status := 1, word0 := dbgWord 3 0 0 false false } }
     let t := atS (modBlk s 0 fun b => { b with stepping := some { who := .grp 0, gen := 0, expires := 7 } }) 7
     t.dbg.status = 1 ∧ (getBlk t (bitsOf t.dbg.word0.toNat 15 8)).any fun b => b.stepping.any fun st => st.expires ≤ t.clk.cycle) ∧
    (let s := modFlight gS fun f => { f with stops := [{ id := 95, src := 1, core := 0, cause := (0, 0, 0, 0) }] }
     (s.flight.stops.find? fun x => x.id = 95).isSome ∧ crossBefore s 1 0 95 = false ∧ seamHeld s (coreDie 1) (coreDie 0) = false) ∧
    (getBlk gS 0).any (fun b => b.hits = [] && !b.sampleDue) ∧
    (let s := atS (modBlk gS 0 fun b => { b with trigNow := 0x8000000000000001 }) 64
     (getBlk s 0).any fun b => (nextGroup b b.sampleNext).isSome && !b.groups.isEmpty && b.trigNow.getLsbD 63 && b.trigNow.getLsbD 0
      && b.sampledAt + 2 ^ (bitsOf b.trigNow.toNat 55 52 + 6) ≤ s.clk.cycle) := by decide +kernel

/-- A link in a state. -/
def linkS (l : Nat) (st : LinkState) (f : LinkSt → LinkSt) : State := modLink gS l fun k => f { k with state := st }

/-- LinkEvents, the states: the first link and the last, in each state; attempts and time at their limits; replays; a time exchange. -/
theorem test_witness_LinkEvents_states :
    [LinkState.down, .failed, .quiesced, .up, .training, .retraining, .quiescing].all (fun st => [0, 16].all fun l =>
      let s := linkS l st id
      linkCommanded s l && (getLink s l).state = st && (st ≠ .quiescing || linkQuiet s l)) ∧
    [6, 7].all (fun n => (getLink (linkS 16 .training fun k => { k with attempts := n }) 16).attempts = n) ∧
    (linkS 16 .training id).clk.gts.toNat < (getLink (linkS 16 .training id) 16).since + 10000000 ∧
    (let s := linkS 16 .training id
     let t : State := { s with clk := { s.clk with gts := 10000000 } }
     (getLink t 16).since + 10000000 ≤ t.clk.gts.toNat) ∧
    (getLink (linkS 4 .up fun k => { k with replayRun := 16 }) 4).replayRun = 16 ∧
    [true, false].all (fun b => [4, 15].all fun l => let s := linkS l .up fun k => { k with locked := b }
      let t (n : Nat) : State := { s with clk := { s.clk with gts := BitVec.ofNat 64 n } }
      (getLink s l).state = .up && (getLink s l).locked = b && !s.host.tmaster && masterLink s = some l && masterLink s ≠ some (19 - l)
        && timeLocked s = b && [4095, 4096].all fun n => ((t n).clk.exchanged + 4096 ≤ (t n).clk.gts.toNat : Bool) = (n = 4096)) ∧
    [(4096, false), (4097, true)].all (fun p => (p.1 : Int) = (((p.1 : BitVec 64) - 0).toInt + ((p.1 : BitVec 64) - 0).toInt) / 2 && decide ((4096 : Int) < p.1) = p.2)
    := by decide +kernel

/-- LinkEvents, die resets: one that runs, the last die admitted, a free one; held at the first step, at the last but one and at the last. -/
theorem test_witness_LinkEvents_resets :
    (let one : State := [1, 2, 3].foldl (fun s d => modDie s d fun k => { k with admitted := false }) gS
     lastAdmitted one 0 ∧ lastAdmitted gS 0 = false ∧ gS.dreset.busy = false) ∧
    [1, 9, 10].all (fun n => let s : State := { gS with dreset := { gS.dreset with busy := true, held := true, step := n } }
      s.dreset.busy && s.dreset.held && s.dreset.step = n) := by decide +kernel

/-- LinkEvents, requests of a peer: the first and the last fabric link; a word at the end of the window, and one beyond it. -/
theorem test_witness_LinkEvents_requests :
    [4, 15].all (fun l =>
      let s := linkS l .up id
      let t : State := { s with host := { s.host with winBase := 0x100000, winSize := 0x1000 } }
      linkUp t l && !frozenAt t windowPlace 0x100FF8 && !homeIsDown t windowPlace 0x100FF8 && !throttledAt t windowPlace 0x100FF8 && inWindow t 0x100FF8 8
        && !inWindow t 0x100FF9 8 && !inWindow t 0x101000 (atomicSize 0) && decide (fieldAt [1, 0] 0 2 % 1024 ≠ t.host.devnum)) := by decide +kernel

/-- DeviceEvents: updates due now; a tenth update, with the level below zero, above the eighth and between; a self-test of a unit, the
device's and the host's, with a verdict posted; the last key and none; a recovery. -/
theorem test_witness_DeviceEvents :
    (let s : State := { gS with clk := { gS.clk with gts := 10000 } }
     [(9, true), (10, false)].all fun p =>
       let t : State := { s with mgmt := { s.mgmt with updates := p.1 } }
       decide ((t.mgmt.updates + 1) * 1000 ≤ t.clk.gts.toNat) = p.2) ∧
    (let t : State := { gS with clk := { gS.clk with gts := 11000 }, mgmt := { gS.mgmt with updates := 10, checked := 10 } }
     (t.mgmt.updates + 1) * 1000 ≤ t.clk.gts.toNat ∧ t.mgmt.updates ≤ t.mgmt.checked) ∧ 9 % 10 ≠ 0 ∧
    [(-1 : Int), 0, 6250, 6251].all (fun n => let s : State := { gS with mgmt := { gS.mgmt with updates := 10, level := n } }
      s.mgmt.checked < s.mgmt.updates && s.mgmt.updates % 10 = 0
        && (decide (n < 0) || decide ((pondCap s : Int) < 8 * n) = (n = 6251))) ∧
    [true, false].all (fun hw => let t : SelfTest := { unit := 1, die := 0, idx := 2, hw := hw }
      let s : State := { gS with mgmt := { gS.mgmt with tests := [t] } }
      s.mgmt.tests.find? (testOf 1 0 2) = some t && t.hw = hw && t.posted = none && s.mgmt.tests.all fun x => x.posted = none) ∧
    (let t : SelfTest := { unit := 1, die := 0, idx := 2, hw := false, posted := some 2 }
     let s : State := { gS with mgmt := { gS.mgmt with tests := [t] } }
     (s.mgmt.tests.find? fun x => x.posted.isSome) = some t) ∧
    [999, 1000].all (fun n => let s := modDie { gS with clk := { gS.clk with gts := BitVec.ofNat 64 n } } 3 fun d => { d with limited := true, limitEnd := 1000 }
      decide ((getDie s 3).limitEnd ≤ s.clk.gts.toNat) = (n = 1000)) ∧
    (2 ^ 20 - 1 < 2 ^ 20 ∧ ({ gS.mgmt with keyIndex := 2 ^ 20 } : Mgmt).keyIndex = 2 ^ 20) ∧
    ({ gS.mgmt with recovery := true } : Mgmt).recovery = true := by decide +kernel

/-- An entry found is one of the table. -/
theorem tfind_of_all {α : Type} {t : Table α} {p : α → Bool} (h : t.all (fun e => p e.2) = true) (d : α) (hd : p d = true) (k : Nat) :
    p (tgetD d k t) = true := by
  induction t with
  | nil => exact hd
  | cons e r ih =>
    simp only [List.all_cons, Bool.and_eq_true] at h
    simp only [tgetD, tfind]
    split
    · exact h.1
    · exact ih h.2

/-- Each byte of a page is found by the device. -/
theorem devLeaf_low {s : State} {a b : Nat} {l : Leaf} (hm : s.mode.getLsbD 1 = true) (hf : s.flight.walks = []) (hp : (getCtx s 0).ptroot = 0x100000) (h1 : tableEntry s 0x100000 0 = a)
    (h2 : tableEntry s 0x200000 0 = b) (ha : (!bitOf a 0 || entryReserved a (bitOf a 1) || bitOf a 1) = false) (hn : bitsOf a 51 12 * 4096 = 0x200000)
    (hb : (!bitOf b 0 || entryReserved b (bitOf b 1)) = false) (hbl : bitOf b 1 = true) (hl : leafCheck s (leafOf b 0x200000 2) = .leaf l)
    (hr : leafRight l false true false = none) (hd : (s.dies.all fun e => !e.2.homeDown) = true) (va : Nat) (h : va < 2 ^ 30) :
    ∃ l, (devLeaf s 0 va true).2 = .leaf l := by
  have e1 : va / 2 ^ 43 % 2 ^ 13 = 0 := by omega
  have e2 : va / 2 ^ 30 % 2 ^ 13 = 0 := by omega
  have e3 : ¬ 2 ^ 56 ≤ va := by omega
  have d1 : va / 8796093022208 % 8192 = 0 := by omega
  have d2 : va / 1073741824 % 8192 = 0 := by omega
  have d3 : ¬ 72057594037927936 ≤ va := by omega
  simp only [Bool.or_eq_false_iff, Bool.not_eq_false'] at ha hb
  have hw : walkPage s 0 va = .leaf l := by
    rw [hbl] at hb
    have ha' : entryReserved a false = false := ha.2 ▸ ha.1.2
    simp [walkPage, tableLevels, walkFrom, e1, e2, e3, d1, d2, d3, hp, h1, h2, ha, ha', hn, hb, hbl, hl]
  have hh (d : Nat) : dieHomeDown s d = false := by
    have := tfind_of_all (p := fun d : Die => !d.homeDown) hd {} rfl d
    simp only [Bool.not_eq_true'] at this
    exact this
  refine ⟨l, ?_⟩
  have hv : devWalks s 0 va = true := by simp [devWalks, hm, hf]
  simp [devLeaf, devTranslate, hv, hw, hr, hh, e3, d3]

/-- A write of which each piece is found has no code. -/
theorem devWriteCode_none {s : State} {ctx va n : Nat} (h : ∀ e ∈ piecesOf 128 va n, ∃ l, (devLeaf s ctx e.1 true).2 = .leaf l) :
    devWriteCode s ctx va n = (s, none) := by
  unfold devWriteCode
  generalize piecesOf 128 va n = ps at h
  induction ps with
  | nil => rfl
  | cons e r ih =>
    obtain ⟨l, hl⟩ := h e (List.mem_cons_self ..)
    obtain ⟨t, ht⟩ : ∃ t, devLeaf s ctx e.1 true = (t, .leaf l) := ⟨_, Prod.ext rfl hl⟩
    simp only [foldSt, ht]
    exact ih fun x hx => h x (List.mem_cons_of_mem _ hx)

/-- A write whose first piece is not found has its code. -/
theorem devWriteCode_first {s t : State} {ctx va n : Nat} {c : Byte} {e : Nat × Nat} {r : List (Nat × Nat)} (hp : piecesOf 128 va n = e :: r)
    (h : devLeaf s ctx e.1 true = (t, .code c)) : devWriteCode s ctx va n = (t, some c) := by
  unfold devWriteCode
  rw [hp, foldSt]
  have stays : ∀ r : List (Nat × Nat), foldSt (fun (r : State × Option Byte) (e : Nat × Nat) => match r.2 with
      | some _ => r
      | none => match devLeaf r.1 ctx e.1 true with
        | (t, .code c) => (t, some c)
        | (_, .leaf _) => (r.1, none)) (t, some c) r = (t, some c) := by
    intro r
    induction r with
    | nil => rfl
    | cons e r ih => exact ih
  simp only [h]
  exact stays r

/-- The first piece of a write at 0. -/
theorem piecesOf_first {n : Nat} (h : 128 ≤ n) : ∃ r, piecesOf 128 0 n = (0, 128) :: r := by
  obtain ⟨k, hk⟩ : ∃ k, (0 + n + 128 - 1) / 128 - 0 / 128 = k + 1 := ⟨(0 + n + 128 - 1) / 128 - 0 / 128 - 1, by omega⟩
  refine ⟨((List.range k).map Nat.succ).map (fun i => (max 0 ((0 / 128 + i) * 128), min (0 + n) ((0 / 128 + i + 1) * 128) - max 0 ((0 / 128 + i) * 128))), ?_⟩
  rw [piecesOf, hk, List.range_succ_eq_map, List.map_cons]
  simp [Nat.min_eq_right h]

/-- A frame, by whether its bytes can be written. -/
theorem writeFrames_single {s : State} {ctx core slot : Nat} {b : Block} {r : State × Option Byte} (hb : getBlk s core = some b)
    (h : devWriteCode s ctx (frameAddr s ctx slot) frameSize = r) :
    ∃ t, writeFrames s ctx [(core, slot)] = (t, r.2.map fun c => (c, core)) := by
  unfold writeFrames writeFrame
  dsimp only
  generalize devWriteCode s ctx (frameAddr s ctx slot) frameSize = x at h ⊢
  subst h
  rw [hb]
  obtain ⟨t, _ | c⟩ := x
  · exact ⟨_, rfl⟩
  · exact ⟨_, rfl⟩

/-- A frame at 0 whose first byte is not found. -/
theorem frame_refused {s : State} {c : Byte} {n : Nat} (hn : 128 ≤ n) (h : (devLeaf s 0 0 true).2 = .code c) :
    devWriteCode s 0 0 n = ((devLeaf s 0 0 true).1, some c) := by
  obtain ⟨r, hr⟩ := piecesOf_first hn
  exact devWriteCode_first hr (Prod.ext rfl h)

/-- DispatcherEvents: a frame that can be written, and one of a context without a table. -/
theorem test_witness_DispatcherEvents_frames :
    (∃ t, writeFrames (quietS id none) 0 [(0, 0)] = (t, none)) ∧
    (getBlk (modCtx (quietS id none) 0 fun c => { c with ptroot := 0 }) 0).isSome ∧
    ∃ t, writeFrames (modCtx (quietS id none) 0 fun c => { c with ptroot := 0 }) 0 [(0, 0)] = (t, some (0x07, 0)) := by
  have addr : frameAddr (quietS id none) 0 0 = 0 := by decide +kernel
  have low : ∀ e ∈ piecesOf 128 0 frameSize, ∃ l, (devLeaf (quietS id none) 0 e.1 true).2 = .leaf l := by
    intro e he
    have hi : e.1 < 2 ^ 30 := by
      simp only [piecesOf, List.mem_map, List.mem_range, frameSize] at he
      obtain ⟨i, hi, rfl⟩ := he
      simp only [Nat.zero_div, Nat.zero_add] at hi ⊢
      omega
    refine devLeaf_low (a := 0x200001) (b := leafEntry (leaf0 true) |> bytesNat)
      (l := { leaf0 true with entry := 0x200000 }) ?_ ?_ ?_ ?_ ?_ ?_ ?_ ?_ ?_ ?_ ?_ ?_ _ hi <;> decide +kernel
  refine ⟨?_, by decide +kernel, ?_⟩
  · obtain ⟨b, hb⟩ : ∃ b, getBlk (quietS id none) 0 = some b := Option.isSome_iff_exists.mp (by decide +kernel)
    exact writeFrames_single (r := (_, none)) hb (by rw [addr]; exact devWriteCode_none low)
  · obtain ⟨b, hb⟩ : ∃ b, getBlk (modCtx (quietS id none) 0 fun c => { c with ptroot := 0 }) 0 = some b :=
      Option.isSome_iff_exists.mp (by decide +kernel)
    have at_ : frameAddr (modCtx (quietS id none) 0 fun c => { c with ptroot := 0 }) 0 0 = 0 := by decide +kernel
    exact writeFrames_single (r := (_, some 0x07)) hb (by rw [at_]; exact frame_refused (by decide +kernel) (by decide +kernel))

/-! ## The spec's worked examples -/

/-- The words of the worked encodings of 03, 04, 05, 08 and 09. -/
theorem test_worked_encodings : ([
  (0x304A14AA, .vadd 2 40 41 42), (0x4A048205, .vcmp 0 1 2 4 5), (0xF100030D, .lit 781), (0x47014320, .vaddi 0 5 6 0x20),
  (0x9741800C, .loop 1 3 12), (0xF0009612, .clause 0x009 6 1 2), (0xC2641856, .mma 3 8 12 2 5 1 0), (0xC264185E, .mma 3 8 12 2 7 1 0),
  (0xEC049480, .gstate 0 9 10 1 0), (0xEA248001, .greplay 1 9 1), (0xD92A2A03, .jenq 1 20 21 3), (0xDA4A2A00, .jspawn 2 20 21),
  (0xDB038000, .jdone 0 7), (0xDC000000, .jyield 0), (0xDD061A00, .waitw 0 12 13), (0xDE048000, .jself 0 9 0 0),
  (0x010C4140, .sadd 3 4 5 0), (0x081C700C, .sshl 7 7 0 0 12), (0x0D404142, .scmp 2 4 5 0 2), (0xF10026AF, .lit 0x26AF),
  (0x1214DEF0, .sli 5 0xDEF0), (0x13145678, .slih 5 0x5678), (0x181BFFFD, .sbnz 6 0x3FFFD), (0x48009000, .vli 0 2 0x1000),
  (0x4502858C, .vbfe 0 10 11 12), (0x51014180, .vballot 0 5 3), (0x52080080, .vvote 0 2 0 1), (0x50024402, .vshflXor 0 9 8 2),
  (0x56030404, .vscan 0 12 8 0 1 0), (0x5A0C0100, .pnot 0 3 2), (0x5C00C001, .vtime 0 3 1), (0x60004103, .fadd 0 1 2 3),
  (0x6300C082, .ffma 0 3 1 2), (0x6A088205, .fcmp 0 2 2 4 5), (0x6C018381, .fround 0 6 7 1), (0x6D050540, .cvt 0 20 10 8 0),
  (0x6D0506C3, .cvt 0 20 13 8 3), (0x6E02048A, .cvtx 0 8 9 10), (0x74010286, .hfma2Bf16 0 4 5 6), (0x75058A15, .dot4E4m3 0 22 20 21),
  (0x7E078F80, .fsinp 0 30 31), (0x800A1302, .twid 0 40 38 2), (0x810C142C, .bfly2 0 48 40 44), (0x84004480, .fredadd 0 1 9)
  ] : List (Word × Instr)).all (fun e => decodeWord e.1 = e.2 ∧ encode e.2 = [e.1]) = true := by decide +kernel

/-- The conversions of 02: E4M3, E5M2 and bfloat16 with their flags (NV 1, OF 4, IX 10), and the MX block to E2M1. -/
theorem test_worked_conversions :
    [(0x43960000, 0x79, 0x10), (0x43E60000, 0x7E, 0x10), (0x43E80000, 0x7E, 0x10), (0x447A0000, 0x7E, 0x14)].all (fun e =>
      cvtWord rne 8 0 e.1 0 = (e.2.1, e.2.2)) ∧
    cvtWord { rne with nsf8 := true } 8 0 0x447A0000 0 = (0x7F, 0x14) ∧
    cvtWord rne 9 0 0x47723000 0 = (0x7C, 0x14) ∧ cvtWord { rne with sat := true } 9 0 0x47723000 0 = (0x7B, 0x14) ∧
    (cvtWord rne 5 0 0x3F808000 0).1 = 0x3F80 ∧ (cvtWord rne 5 0 0x3F818000 0).1 = 0x3F82 ∧
    [(0x41200000, 6), (0x40A00000, 4), (0x40E00000, 6), (0xC0400000, 0xB), (0x3F000000, 0)].all (fun e =>
      (cvtxWord rne 0x008000D5 e.1 0).1 = BitVec.ofNat 32 (e.2 * 2 ^ 20)) := by decide +kernel

/-- Uniform registers of the group that issues. -/
def uniS (l : List (Nat × Word)) : State := gGrp fun r => { r with regs := l.foldl (fun t e => putReg probeHeader t e.1 [0] fun _ => e.2) r.regs }

/-- A general register of the group that issues, by lane, and a predicate and the lanes of its split. -/
def genS (n : Nat) (f : Nat → Word) (lanes p1 : Word) : State :=
  gGrp fun r => { r with regs := putReg probeHeader r.regs n (List.range 32) f, preds := [(1, p1)], splits := [(0, { pc := 0x40, lanes := lanes })] }

/-- A step of an instruction goes on, and the group after it meets a condition. -/
def then_ (s : State) (i : Instr) (f : GC → Bool) : Bool :=
  match exec i s with
  | .next t => onGrp t f
  | _ => false

/-- 09: a product rounded, its sum, and the same fused; and the dot product of 09 with its flags. -/
theorem test_worked_floats :
    then_ (uniS [(1, 0x3F800800), (2, 0x3F800800)]) (.fmul 0 4 1 2) (fun c => vreg c 4 0 = 0x3F801000 && c.grp.fpflags = 0x10) ∧
    then_ (uniS [(1, 0x3F801000), (2, 0xBF801000)]) (.fadd 0 4 1 2) (fun c => vreg c 4 0 = 0 && c.grp.fpflags = 0) ∧
    then_ (uniS [(1, 0x3F800800), (2, 0x3F800800), (3, 0xBF801000)]) (.ffma 0 3 1 2) (fun c => vreg c 3 0 = 0x33800000 && c.grp.fpflags = 0) ∧
    then_ (uniS [(20, 0x7E987938), (21, 0x38383838)]) (.dot4E4m3 0 22 20 21) (fun c => vreg c 22 0 = 0x44383C00 && c.grp.fpflags = 0) ∧
    then_ (uniS [(13, 0x43E80000), (20, 0x00987938)]) (.cvt 0 20 13 8 3) (fun c => vreg c 20 0 = 0x7E987938 && c.grp.fpflags = 0x10) := by
  decide +kernel

/-- 08: the lanes of a split counted and compacted; a sum that wraps. -/
theorem test_worked_lanes :
    then_ (genS 48 (fun _ => 0) 0xFF 0xA6) (.vballot 0 5 1) (fun c => vreg c 5 0 = 0xA6) ∧
    then_ (uniS [(5, 0xA6)]) (.vpop 0 6 5) (fun c => vreg c 6 0 = 4) ∧
    then_ (genS 48 (fun i => if i ∈ [1, 2, 5, 7] then 1 else 0) 0xFF 0xA6) (.vscan 0 49 48 0 1 0) (fun c =>
      (List.range 9).map (vreg c 49) = [0, 0, 1, 2, 2, 2, 3, 3, 0]) ∧
    then_ (genS 48 (fun i => if i ∈ [1, 2, 5, 7] then 1 else 0) 0xFF 0xA6) (.vredadd 0 7 48) (fun c => vreg c 7 0 = 4) ∧
    then_ (modGrp (genS 49 (fun i => [0, 0, 1, 2, 2, 2, 3, 3].getD i 9) 0xFF 0xA6) 0 0 fun r => { r with regs := putReg probeHeader r.regs 10 [0] fun _ => 2 })
      (.vshflDown 0 51 49 10) (fun c => (List.range 9).map (vreg c 51) = [1, 2, 2, 2, 3, 3, 3, 3, 0]) ∧
    then_ (uniS [(1, 0x7FFFFFF0), (2, 0x20)]) (.vadd 0 3 1 2) (fun c => vreg c 3 0 = 0x80000010) := by decide +kernel

/-- 07: the rotating window of three registers, and a branch that diverges with four splits. -/
theorem test_worked_control :
    [(0, [20, 21, 22]), (1, [22, 20, 21]), (2, [21, 22, 20]), (3, [20, 21, 22])].all (fun e =>
      [20, 21, 22].map (physReg { pc := 0, lanes := 0, levels := [{ count := 4, start := 0, stop := 0, iter := 0, stages := 1, wbase := 20, wsize := 3, woff := e.1 }] }) = e.2) ∧
    then_ (gGrp fun r => { r with preds := [(1, 0x0F)]
                                  splits := (0, { pc := 0x1F0, lanes := 0xFF }) :: [1, 2, 3].map fun k => (k, { pc := 0x40, lanes := 0xFF00 }) })
      (.br 1 4) (fun c => c.spl.lanes = 0x0F && c.spl.pc = 0x200
        && c.grp.serial = [{ pc := 0x1F4, owner := 0, lanes := 0xF0, running := false }]) := by decide +kernel

/-- 01: the pool addresses of a cluster of 4 by 3 with its corner at (4, 0): the cluster's and the absolute address of member 3, on core 49,
that of member 1 on core 5, and none of member 12. -/
theorem test_worked_pool_addresses :
    let s := [4, 5, 49].foldl (fun s c => modCore s c fun k => { k with block := getBlk gS 0 }) gS
    let u : State := { s with sched := { s.sched with clusters := s.sched.clusters.map fun e => (e.1, { e.2 with x := 4, y := 0, w := 4, h := 3 }) } }
    [0x00180100, 0x81880100].all (fun a => poolTarget u 4 a 16 = some (49, 0x100)) ∧ poolTarget u 4 0x00080100 16 = some (5, 0x100) ∧
    poolTarget u 4 0x00600100 16 = none := by decide +kernel


end Sys2Proof.Tests
end

section
namespace Sys2Proof.Machine

/-!
# The control fields: what writes them, and that every step keeps them legal

The clock's step, SY.MODE, the count of signing keys and DCTL are the fields that `controlsLegal` bounds. Six
instructions and events write one of them, and so does a write of a register through BAR0 as a step settles. Every other
function of the model leaves them alone, which the lemmas `f_controls` (for a function to states) and `f_keeps` (for one
to outcomes, effects or options) say once per function, in the order of the model's files. The writers come after them,
then the step, then the state after reset.
-/

/-! ## The control fields and the frames of the model's functions -/

/-- The control fields that have a bound or reserved bits. -/
structure Controls where
  fstep : Nat
  mode : DWord
  keyIndex : Nat
  dctl : DWord

/-- The control fields of the machine. -/
def controls (s : State) : Controls := ⟨s.clk.fstep, s.mode, s.mgmt.keyIndex, s.dbg.dctl⟩

@[simp] theorem controls_mk (clk : Clock) (agenda : List Turn) (cur : Agent) (free : Nat) (mode : DWord)
    (mem : List Host.Cell) (bad badMeta : Table Bool) (evals : List (Nat × Nat)) (done : Table Nat)
    (cores : Table CoreSt) (dies : Table Die) (ctxs : Table Context) (sched : Sched) (flight : Flight) (pages : Pages)
    (links : Table LinkSt) (host : HostIf) (dreset : DieReset) (dbg : Dbg) (mgmt : Mgmt) :
    controls ⟨clk, agenda, cur, free, mode, mem, bad, badMeta, evals, done, cores, dies, ctxs, sched, flight, pages,
      links, host, dreset, dbg, mgmt⟩ = ⟨clk.fstep, mode, mgmt.keyIndex, dbg.dctl⟩ := by rfl

@[simp] theorem controls_eta (s : State) :
    (⟨s.clk.fstep, s.mode, s.mgmt.keyIndex, s.dbg.dctl⟩ : Controls) = controls s := by rfl

@[simp] theorem controls_ite (p : Prop) [Decidable p] (s t : State) :
    controls (if p then s else t) = if p then controls s else controls t := apply_ite controls p s t

@[simp] theorem foldSt_controls {α : Type} {f : State → α → State}
    (h : ∀ s a, controls (f s a) = controls s) (l : List α) (s : State) : controls (foldSt f s l) = controls s := by
  induction l generalizing s with
  | nil => rfl
  | cons a r ih => rw [foldSt, ih, h]

@[simp] theorem foldl_controls {α : Type} {f : State → α → State}
    (h : ∀ s a, controls (f s a) = controls s) (l : List α) (s : State) : controls (l.foldl f s) = controls s := by
  induction l generalizing s with
  | nil => rfl
  | cons a r ih => rw [List.foldl, ih, h]

/-- The next state of an outcome, if there is one, has the given control fields. -/
def Keeps (v : Controls) : Host.Outcome State Fault Refusal → Prop
  | .next t => controls t = v
  | _ => True

@[simp] theorem keeps_next (v : Controls) (t : State) : Keeps v (.next t) ↔ controls t = v := by rfl
@[simp] theorem keeps_fault (v : Controls) (r : Fault) : Keeps v (.fault r) := by trivial
@[simp] theorem keeps_ite {v : Controls} {p : Prop} [Decidable p] {a b : Host.Outcome State Fault Refusal} :
    Keeps v (if p then a else b) ↔ if p then Keeps v a else Keeps v b := by split <;> rfl

/-- The state that the effect of an instruction carries, if it carries one, has the given control fields. -/
def EffKeeps (v : Controls) : Eff → Prop
  | .retire t | .jump t | .wait t | .whole t => controls t = v
  | .hold _ | .fault _ => True

@[simp] theorem effKeeps_retire (v : Controls) (t : State) : EffKeeps v (.retire t) ↔ controls t = v := by rfl
@[simp] theorem effKeeps_jump (v : Controls) (t : State) : EffKeeps v (.jump t) ↔ controls t = v := by rfl
@[simp] theorem effKeeps_wait (v : Controls) (t : State) : EffKeeps v (.wait t) ↔ controls t = v := by rfl
@[simp] theorem effKeeps_whole (v : Controls) (t : State) : EffKeeps v (.whole t) ↔ controls t = v := by rfl
@[simp] theorem effKeeps_hold (v : Controls) (n : Nat) : EffKeeps v (.hold n) := by trivial
@[simp] theorem effKeeps_fault (v : Controls) (f : Flt) : EffKeeps v (.fault f) := by trivial
@[simp] theorem effKeeps_ite {v : Controls} {p : Prop} [Decidable p] {a b : Eff} :
    EffKeeps v (if p then a else b) ↔ if p then EffKeeps v a else EffKeeps v b := by split <;> rfl

/-- The state of a turn to issue has the given control fields. -/
def PickKeeps (v : Controls) : Pick → Prop
  | .idle t | .run t _ => controls t = v

@[simp] theorem pickKeeps_idle (v : Controls) (t : State) : PickKeeps v (.idle t) ↔ controls t = v := by rfl
@[simp] theorem pickKeeps_run (v : Controls) (t : State) (i : Instr) : PickKeeps v (.run t i) ↔ controls t = v := by rfl

/-- The state of an option, if there is one, has the given control fields. -/
def OptKeeps (v : Controls) (o : Option State) : Prop := ∀ t, o = some t → controls t = v

@[simp] theorem optKeeps_some (v : Controls) (t : State) : OptKeeps v (some t) ↔ controls t = v := by simp [OptKeeps]
@[simp] theorem optKeeps_none (v : Controls) : OptKeeps v none := by simp [OptKeeps]

theorem Keeps.ite {v : Controls} {p : Prop} [Decidable p] {a b : Host.Outcome State Fault Refusal} (ha : Keeps v a)
    (hb : Keeps v b) : Keeps v (if p then a else b) := by split <;> assumption

theorem EffKeeps.ite {v : Controls} {p : Prop} [Decidable p] {a b : Eff} (ha : EffKeeps v a) (hb : EffKeeps v b) :
    EffKeeps v (if p then a else b) := by split <;> assumption

theorem foldSt_fst_controls {α β : Type} {f : State × β → α → State × β} (h : ∀ r a, controls (f r a).1 = controls r.1)
    (l : List α) (r : State × β) : controls (foldSt f r l).1 = controls r.1 := by
  induction l generalizing r with
  | nil => rfl
  | cons a l ih => rw [foldSt, ih, h]

theorem getD_controls {v : Controls} {o : Option State} {t : State} (ho : OptKeeps v o) (ht : controls t = v) :
    controls (o.getD t) = v := by
  cases o with
  | none => exact ht
  | some u => exact ho u rfl

/-! ### The functions of `Machine/Access.lean` -/

@[simp] theorem modCore_controls (s : State) (c : Nat) (f : CoreSt → CoreSt) :
    controls (modCore s c f) = controls s := by rfl

@[simp] theorem modBlk_controls (s : State) (c : Nat) (f : Block → Block) :
    controls (modBlk s c f) = controls s := by rfl

@[simp] theorem modFe_controls (s : State) (c : Nat) (f : FrontEnd → FrontEnd) :
    controls (modFe s c f) = controls s := by rfl

@[simp] theorem modGrp_controls (s : State) (c g : Nat) (f : Group → Group) :
    controls (modGrp s c g f) = controls s := by rfl

@[simp] theorem modSpl_controls (s : State) (c g k : Nat) (f : Split → Split) :
    controls (modSpl s c g k f) = controls s := by rfl

@[simp] theorem modDie_controls (s : State) (d : Nat) (f : Die → Die) : controls (modDie s d f) = controls s := by rfl

@[simp] theorem modCtx_controls (s : State) (n : Nat) (f : Context → Context) :
    controls (modCtx s n f) = controls s := by rfl

@[simp] theorem modJob_controls (s : State) (n : Nat) (f : Job → Job) : controls (modJob s n f) = controls s := by rfl

@[simp] theorem modCl_controls (s : State) (n : Nat) (f : Cluster → Cluster) :
    controls (modCl s n f) = controls s := by rfl

@[simp] theorem modQueue_controls (s : State) (q : Nat) (f : HwQueue → HwQueue) :
    controls (modQueue s q f) = controls s := by rfl

@[simp] theorem modLink_controls (s : State) (l : Nat) (f : LinkSt → LinkSt) :
    controls (modLink s l f) = controls s := by rfl

@[simp] theorem modFlight_controls (s : State) (f : Flight → Flight) : controls (modFlight s f) = controls s := by rfl

@[simp] theorem bumpId_controls (s : State) : controls (bumpId s) = controls s := by rfl

@[simp] theorem bumpFree_controls (s : State) : controls (bumpFree s) = controls s := by rfl

@[simp] theorem raiseIrq_controls (s : State) (i : Nat) : controls (raiseIrq s i) = controls s := by rfl

/-! ### The functions of `Machine/Lines.lean` -/

@[simp] theorem memPut_controls (s : State) (n : Nat) (l : List Byte) : controls (memPut s n l) = controls s := by
  induction l generalizing s n with
  | nil => rfl
  | cons b r ih => simp [memPut, ih]

@[simp] theorem clearBad_controls (s : State) (loc n : Nat) : controls (clearBad s loc n) = controls s := by rfl

@[simp] theorem writeBack_controls (s : State) (k : Nat) (h : HomeLine) :
    controls (writeBack s k h) = controls s := by simp [writeBack]

@[simp] theorem evictHome_controls (s : State) (d k : Nat) : controls (evictHome s d k) = controls s := by
  unfold evictHome
  split <;> simp

@[simp] theorem putHome_controls (s : State) (p : Word) (a : Nat) (h : HomeLine) :
    controls (putHome s p a h) = controls s := by
  unfold putHome
  (repeat' split) <;> simp

@[simp] theorem modReg_controls (s : State) (p : Word) (a : Nat) (f : RegWord → RegWord) :
    controls (modReg s p a f) = controls s := by rfl

@[simp] theorem markDirty_controls (s : State) (p : Word) (a : Nat) :
    controls (markDirty s p a) = controls s := by rfl

@[simp] theorem putHomeWord_controls (s : State) (p : Word) (a : Nat) (w : Word) :
    controls (putHomeWord s p a w) = controls s := by simp [putHomeWord]

@[simp] theorem storedElsewhere_controls (s : State) (p : Word) (a : Nat) :
    controls (storedElsewhere s p a) = controls s := by
  unfold storedElsewhere
  split <;> simp

@[simp] theorem storesReturned_controls (s : State) (die : Nat) (p : Word) (a : Nat) :
    controls (storesReturned s die p a) = controls s := by rfl

@[simp] theorem ownerClean_controls (s : State) (owner : BitVec 3) (p : Word) (a : Nat) :
    controls (ownerClean s owner p a) = controls s := by simp [ownerClean]

@[simp] theorem recallWord_controls (s : State) (p : Word) (a : Nat) : controls (recallWord s p a) = controls s := by
  simp only [recallWord]
  (repeat' split) <;> simp

@[simp] theorem homePutByte_controls (s : State) (p : Word) (a : Nat) (b : Byte) :
    controls (homePutByte s p a b) = controls s := by simp [homePutByte]

@[simp] theorem putPhys_controls (s : State) (p : Word) (a : Nat) (l : List Byte) :
    controls (putPhys s p a l) = controls s := by
  induction l generalizing s a with
  | nil => rfl
  | cons b r ih => simp [putPhys, ih]

@[simp] theorem clearWord_controls (s : State) (p : Word) (a : Nat) :
    controls (clearWord s p a) = controls s := by simp [clearWord]

@[simp] theorem physPut_controls (s : State) (p : Word) (a : Nat) (bs : List Byte) :
    controls (physPut s p a bs) = controls s := by simp [physPut]

@[simp] theorem drainLine_controls (s : State) (d k : Nat) (which : Nat → Bool) :
    controls (drainLine s d k which) = controls s := by
  unfold drainLine
  split <;> simp

@[simp] theorem evictVisitor_controls (s : State) (d k : Nat) :
    controls (evictVisitor s d k) = controls s := by simp [evictVisitor]

/-! ### The functions of `Machine/Walk.lean` -/

@[simp] theorem setOwner_controls (s : State) (tier pa ctx : Nat) :
    controls (setOwner s tier pa ctx) = controls s := by rfl

@[simp] theorem zeroPart_controls (s : State) (p : Word) (pa : Nat) :
    controls (zeroPart s p pa) = controls s := by rfl

@[simp] theorem takeFrames_controls (s : State) (ctx : Nat) (l : Leaf) :
    controls (takeFrames s ctx l) = controls s := by simp [takeFrames]

@[simp] theorem cacheLeaf_controls (s : State) (core ctx va : Nat) (l : Leaf) :
    controls (cacheLeaf s core ctx va l) = controls s := by simp [cacheLeaf]

@[simp] theorem devTranslate_controls (s : State) (ctx va : Nat) :
    controls (devTranslate s ctx va).1 = controls s := by
  unfold devTranslate
  (repeat' split) <;> simp

@[simp] theorem devLeaf_controls (s : State) (ctx va : Nat) (w : Bool) :
    controls (devLeaf s ctx va w).1 = controls s := by
  have h := devTranslate_controls s ctx va
  unfold devLeaf
  split
  · simp_all
  · split
    · simp_all
    · simp only
      split <;> simp_all

@[simp] theorem devRead_controls (s : State) (ctx va n : Nat) : controls (devRead s ctx va n).1 = controls s := by
  induction n generalizing s va with
  | zero => rfl
  | succ n ih =>
    have h := devLeaf_controls s ctx va false
    unfold devRead
    split
    · simp_all
    · rename_i t l ht
      have hr := ih t (va + 1)
      simp only
      (repeat' split) <;> simp_all

@[simp] theorem devWriteCode_controls (s : State) (ctx va n : Nat) :
    controls (devWriteCode s ctx va n).1 = controls s := by
  unfold devWriteCode
  generalize hr : (s, none) = r
  rw [show s = r.1 by rw [← hr]]
  refine foldSt_fst_controls (fun r e => ?_) _ _
  have h := devLeaf_controls r.1 ctx e.1 true
  (repeat' split) <;> simp_all

@[simp] theorem devWrite_controls (s : State) (ctx va : Nat) (bs : List Byte) :
    controls (devWrite s ctx va bs).1 = controls s := by
  have h := devWriteCode_controls s ctx va bs.length
  unfold devWrite
  split
  · simp_all
  · rename_i t ht
    rw [ht] at h
    rw [← h]
    refine foldSt_controls (fun u e => ?_) _ _
    have hl := devLeaf_controls u ctx e.1 true
    split <;> simp_all

/-! ### The functions of `Machine/Debug.lean` -/

@[simp] theorem ringAppend_controls (s : State) (bytes : List Byte) : controls (ringAppend s bytes) = controls s := by
  unfold ringAppend
  split <;> simp

@[simp] theorem trigEvent_controls (s : State) (core : Nat) (cause : TrigCause) :
    controls (trigEvent s core cause) = controls s := by rfl

@[simp] theorem stopRecord_controls (s : State) (core : Nat) : controls (stopRecord s core) = controls s := by
  unfold stopRecord
  (repeat' split) <;> simp

@[simp] theorem receiveStop_controls (s : State) (core : Nat) (cause : Word × DWord × Word × DWord) :
    controls (receiveStop s core cause) = controls s := by rfl

@[simp] theorem sendStops_controls (s : State) (core : Nat) (cl : Cluster) (cause : Word × DWord × Word × DWord) :
    controls (sendStops s core cl cause) = controls s := by simp [sendStops]

@[simp] theorem startStop_controls (s : State) (core : Nat) (handle : Word) (addr : DWord) (pc : Word) :
    controls (startStop s core handle addr pc) = controls s := by
  unfold startStop
  split <;> simp

@[simp] theorem watchHit_controls (s : State) (core i : Nat) (glob : Bool) (kind addr src : Nat) (handle pc : Word)
    (data : DWord) : controls (watchHit s core i glob kind addr src handle pc data) = controls s := by rfl

@[simp] theorem watchChecks_controls (s : State) (core : Nat) (glob : Bool) (kind n src : Nat) (handle pc : Word)
    (l : List (Nat × DWord)) : controls (watchChecks s core glob kind n src handle pc l) = controls s := by
  unfold watchChecks
  split
  · refine foldSt_controls (fun t i => ?_) _ _
    split <;> simp
  · rfl

@[simp] theorem watchCheck_controls (s : State) (core : Nat) (glob : Bool) (kind addr n src : Nat)
    (handle pc : Word) (data : DWord) :
    controls (watchCheck s core glob kind addr n src handle pc data) = controls s := by simp [watchCheck]

@[simp] theorem hitRecord_controls (s : State) (core : Nat) (h : WatchHit) :
    controls (hitRecord s core h) = controls s := by
  unfold hitRecord
  split <;> simp

@[simp] theorem recordHits_controls (s : State) (core : Nat) : controls (recordHits s core) = controls s := by
  unfold recordHits
  split <;> simp

@[simp] theorem flushHits_controls (s : State) (core : Nat) : controls (flushHits s core) = controls s := by
  unfold flushHits
  split <;> simp

/-! ### The functions of `Machine/BarrierUnit.lean` -/

@[simp] theorem modBar_controls (s : State) (core i : Nat) (f : Barrier → Barrier) :
    controls (modBar s core i f) = controls s := by rfl

@[simp] theorem sendBar_controls (s : State) (core kind toMember index : Nat) (phase : Word) (err : Bool)
    (code : Byte) : controls (sendBar s core kind toMember index phase err code) = controls s := by
  unfold sendBar
  split <;> simp

@[simp] theorem tellLocal_controls (s : State) (core i : Nat) (n : Word) (ok : Bool) :
    controls (tellLocal s core i n ok) = controls s := by rfl

@[simp] theorem sendNotices_controls (s : State) (core i : Nat) (n : Word) (err : Bool) (code : Byte) :
    controls (sendNotices s core i n err code) = controls s := by
  unfold sendNotices
  split <;> simp

@[simp] theorem setWatch_controls (s : State) (core i : Nat) : controls (setWatch s core i) = controls s := by
  unfold setWatch
  split <;> simp

@[simp] theorem completePhase_controls (s : State) (core i : Nat) (err : Bool) :
    controls (completePhase s core i err) = controls s := by
  unfold completePhase
  split <;> simp

@[simp] theorem blockObject_controls (s : State) (core i : Nat) (o : Barrier) :
    controls (blockObject s core i o) = controls s := by
  simp only [blockObject]
  (repeat' split) <;> simp

@[simp] theorem faultObject_controls (s : State) (core i : Nat) (code : Byte) :
    controls (faultObject s core i code) = controls s := by
  unfold faultObject
  split <;> simp

@[simp] theorem settleLeaves_controls (s : State) (core i : Nat) : controls (settleLeaves s core i) = controls s := by
  unfold settleLeaves
  split <;> simp

@[simp] theorem evalOnce_controls (s : State) (core i : Nat) : controls (evalOnce s core i) = controls s := by
  simp only [evalOnce]
  (repeat' split) <;> simp

@[simp] theorem evalNow_controls (s : State) (core i : Nat) :
    controls (evalNow s core i) = controls s := by simp [evalNow]

@[simp] theorem evalBarrier_controls (s : State) (core i : Nat) :
    controls (evalBarrier s core i) = controls s := by simp [evalBarrier]

@[simp] theorem runEvals_controls (s : State) : controls (runEvals s) = controls s := by simp [runEvals]

@[simp] theorem agentFault_controls (s : State) (core i : Nat) (code : Byte) :
    controls (agentFault s core i code) = controls s := by simp [agentFault]

@[simp] theorem evalAll_controls (s : State) (core : Nat) : controls (evalAll s core) = controls s := by
  unfold evalAll
  split <;> simp

@[simp] theorem reevaluate_controls (s : State) (core : Nat) (p : Barrier → Bool) :
    controls (reevaluate s core p) = controls s := by
  unfold reevaluate
  split <;> simp

@[simp] theorem creditBytes_controls (s : State) (core i n : Nat) :
    controls (creditBytes s core i n) = controls s := by
  unfold creditBytes
  split <;> simp

@[simp] theorem sendCredit_post_controls (s : State) (src core i n : Nat) (fault : Option Byte) :
    controls (sendCredit.post s src core i n fault) = controls s := by rfl

@[simp] theorem sendCredit_controls (s : State) (src core i n : Nat) (fault : Option Byte) :
    controls (sendCredit s src core i n fault) = controls s := by
  unfold sendCredit
  split <;> simp

@[simp] theorem leaveOne_controls (s : State) (core i : Nat) (b : Block) (who : Who) :
    controls (leaveOne s core i b who) = controls s := by
  unfold leaveOne
  (repeat' split) <;> simp

@[simp] theorem leaveAll_controls (s : State) (core : Nat) (who : Who) :
    controls (leaveAll s core who) = controls s := by
  unfold leaveAll
  split <;> simp

/-! ### The functions of `Machine/Ops.lean` -/

@[simp] theorem queueRecord_controls (s : State) (ctx : Nat) (r : FaultRec) :
    controls (queueRecord s ctx r) = controls s := by rfl

@[simp] theorem agentRecord_controls (s : State) (ctx : Nat) (r : FaultRec) :
    controls (agentRecord s ctx r) = controls s := by simp [agentRecord]

@[simp] theorem groupFault_controls (s : State) (core g k : Nat) (kind code : Byte) (pc restart : Word)
    (addr : DWord) (bar : BitVec 16) (detail : Word) (skid : Byte) :
    controls (groupFault s core g k kind code pc restart addr bar detail skid) = controls s := by
  simp only [groupFault]
  (repeat' split) <;> simp

@[simp] theorem giveBack_controls (s : State) (core g : Nat) (first last : Word) :
    controls (giveBack s core g first last) = controls s := by rfl

@[simp] theorem feFault_controls (s : State) (core : Nat) (f : Flt) : controls (feFault s core f) = controls s := by
  simp only [feFault]
  (repeat' split) <;> simp

@[simp] theorem chk_keeps {v : Controls} {e : Eff} (h : EffKeeps v e) (l : List (Bool × Byte)) :
    EffKeeps v (chk l e) := by
  unfold chk
  split <;> simp [h]

@[simp] theorem heldBy_keeps {v : Controls} {e : Eff} (h : EffKeeps v e) (l : List (Bool × Nat)) :
    EffKeeps v (heldBy l e) := by
  unfold heldBy
  split <;> simp [h]

@[simp] theorem retireGrp_controls (s : State) (c : GC) : controls (retireGrp s c) = controls s := by rfl

@[simp] theorem busyGrp_controls (s : State) (c : GC) (n : Nat) : controls (busyGrp s c n) = controls s := by rfl

@[simp] theorem jumpGrp_controls (s : State) (c : GC) : controls (jumpGrp s c) = controls s := by rfl

@[simp] theorem waitGrp_controls (s : State) (c : GC) : controls (waitGrp s c) = controls s := by rfl

@[simp] theorem faultGrp_controls (s : State) (c : GC) (f : Flt) :
    controls (faultGrp s c f) = controls s := by simp [faultGrp]

@[simp] theorem endGrp_controls {v : Controls} {s : State} {e : Eff} (hs : controls s = v) (h : EffKeeps v e)
    (c : GC) : controls (endGrp s c e) = v := by cases e <;> simp_all [endGrp]

@[simp] theorem retireFe_controls (s : State) (c : FC) : controls (retireFe s c) = controls s := by rfl

@[simp] theorem jumpFe_controls (s : State) (c : FC) : controls (jumpFe s c) = controls s := by rfl

@[simp] theorem waitFe_controls (s : State) (c : FC) : controls (waitFe s c) = controls s := by rfl

@[simp] theorem endFe_controls {v : Controls} {s : State} {e : Eff} (hs : controls s = v) (h : EffKeeps v e)
    (c : FC) : controls (endFe s c e) = v := by cases e <;> simp_all [endFe]

theorem instr_keeps {s : State} {grp : Option (GC → Eff)} {fe : Option (FC → Eff)}
    (hg : ∀ f ∈ grp, ∀ c, EffKeeps (controls s) (f c)) (hf : ∀ f ∈ fe, ∀ c, EffKeeps (controls s) (f c))
    (lit : Bool) : Keeps (controls s) (instr s lit grp fe) := by
  unfold instr
  (repeat' split) <;> simp_all

@[simp] theorem grpInstr_keeps {s : State} {f : GC → Eff} (h : ∀ c, EffKeeps (controls s) (f c)) (lit : Bool) :
    Keeps (controls s) (grpInstr s lit f) := instr_keeps (by simpa using h) (by simp) lit

@[simp] theorem feInstr_keeps {s : State} {f : FC → Eff} (h : ∀ c, EffKeeps (controls s) (f c)) (lit : Bool) :
    Keeps (controls s) (feInstr s lit f) := instr_keeps (by simp) (by simpa using h) lit

@[simp] theorem event_keeps {v : Controls} {s t : State} (hs : controls s = v) (h : controls t = v) (due : Bool) :
    Keeps v (event s due t) := by simp [event, hs, h]

/-! ### The functions of `Machine/Operands.lean` -/

@[simp] theorem writeReg_controls (s : State) (c : GC) (n : Nat) (lanes : List Nat) (f : Nat → Word) :
    controls (writeReg s c n lanes f) = controls s := by rfl

@[simp] theorem writePred_controls (s : State) (core g p : Nat) (lanes vals : Word) :
    controls (writePred s core g p lanes vals) = controls s := by rfl

@[simp] theorem setUniform_controls (s : State) (c : GC) (p : Nat) (v : Bool) :
    controls (setUniform s c p v) = controls s := by simp [setUniform]

@[simp] theorem writeFpred_controls (s : State) (core p : Nat) (v : Bool) :
    controls (writeFpred s core p v) = controls s := by simp [writeFpred]

@[simp] theorem writeS_controls (s : State) (core n : Nat) (v : DWord) :
    controls (writeS s core n v) = controls s := by simp [writeS]

/-! ### The functions of `Machine/Flags.lean` -/

@[simp] theorem raiseFlags_controls (s : State) (core g : Nat) (f : BitVec 5) :
    controls (raiseFlags s core g f) = controls s := by rfl

@[simp] theorem takeFlag_controls (s : State) (c : GC) : controls (takeFlag s c) = controls s := by
  unfold takeFlag
  split <;> simp

@[simp] theorem takeFlagFe_controls (s : State) (c : FC) : controls (takeFlagFe s c) = controls s := by rfl

@[simp] theorem dropFlag_controls (s : State) (t : Thread) (f : Option Nat) :
    controls (dropFlag s t f) = controls s := by
  unfold dropFlag
  (repeat' split) <;> simp

@[simp] theorem memHold_keeps {v : Controls} {e : Eff} (h : EffKeeps v e) (s : State) (c : GC) (long : Bool)
    (ns : List Nat) : EffKeeps v (memHold s c long ns e) := by simp [memHold, h]

/-! ### The functions of `Machine/Scalar.lean` -/

@[simp] theorem scalarOp_keeps (s : State) (lit : Bool) (reads : List Nat) (d : Nat) (f : FC → DWord) :
    Keeps (controls s) (scalarOp s lit reads d f) := by simp [scalarOp]

@[simp] theorem execScmp_keeps (p : BitVec 3) (a b : BitVec 6) (w : BitVec 1) (k : BitVec 4) (s : State) :
    Keeps (controls s) (execScmp p a b w k s) := by simp [execScmp]

@[simp] theorem fePc_controls (s : State) (c : FC) (pc : Word) : controls (fePc s c pc) = controls s := by rfl

@[simp] theorem execSj_keeps (o : BitVec 18) (s : State) : Keeps (controls s) (execSj o s) := by simp [execSj]

@[simp] theorem execSbz_keeps (a : BitVec 6) (o : BitVec 18) (s : State) :
    Keeps (controls s) (execSbz a o s) := by simp [execSbz]

@[simp] theorem execSbnz_keeps (a : BitVec 6) (o : BitVec 18) (s : State) :
    Keeps (controls s) (execSbnz a o s) := by simp [execSbnz]

@[simp] theorem execScall_keeps (o : BitVec 18) (s : State) :
    Keeps (controls s) (execScall o s) := by simp [execScall]

@[simp] theorem execSret_keeps (s : State) : Keeps (controls s) (execSret s) := by simp [execSret]

@[simp] theorem execSexit_keeps (s : State) : Keeps (controls s) (execSexit s) := by simp [execSexit]

@[simp] theorem execDqpush_keeps (p : BitVec 3) (a : BitVec 6) (s : State) :
    Keeps (controls s) (execDqpush p a s) := by simp [execDqpush]

@[simp] theorem execSwait_keeps (m : BitVec 18) (s : State) :
    Keeps (controls s) (execSwait m s) := by simp [execSwait]

/-! ### The functions of `Machine/Vector.lean` -/

@[simp] theorem vecOp_keeps (s : State) (lit : Bool) (g d : Nat) (srcs : List Nat) (rule : GC → List Shape → Shape)
    (f : GC → Nat → Word × BitVec 5) : Keeps (controls s) (vecOp s lit g d srcs rule f) := by simp [vecOp]

@[simp] theorem intOp_keeps (s : State) (g d : Nat) (srcs : List Nat) (rule : GC → List Shape → Shape)
    (f : GC → Nat → Word) : Keeps (controls s) (intOp s g d srcs rule f) := by simp [intOp]

@[simp] theorem predOp_keeps (s : State) (g p : Nat) (srcs : List Nat) (legal : Bool) (uni : GC → Bool)
    (f : GC → List Nat → Word × BitVec 5) : Keeps (controls s) (predOp s g p srcs legal uni f) := by simp [predOp]

@[simp] theorem execVcmp_keeps (g p : BitVec 3) (k : BitVec 4) (a b : BitVec 7) (s : State) :
    Keeps (controls s) (execVcmp g p k a b s) := by simp [execVcmp]

@[simp] theorem execVsel_keeps (p : BitVec 3) (d a b : BitVec 7) (s : State) :
    Keeps (controls s) (execVsel p d a b s) := by simp [execVsel]

@[simp] theorem shuffle_keeps (s : State) (g d a b : Nat) (src : Nat → Word → Option Nat) :
    Keeps (controls s) (shuffle s g d a b src) := by simp [shuffle]

@[simp] theorem execVshflIdx_keeps (g : BitVec 3) (d a b : BitVec 7) (s : State) :
    Keeps (controls s) (execVshflIdx g d a b s) := by simp [execVshflIdx]

@[simp] theorem execVshflUp_keeps (g : BitVec 3) (d a b : BitVec 7) (s : State) :
    Keeps (controls s) (execVshflUp g d a b s) := by simp [execVshflUp]

@[simp] theorem execVshflDown_keeps (g : BitVec 3) (d a b : BitVec 7) (s : State) :
    Keeps (controls s) (execVshflDown g d a b s) := by simp [execVshflDown]

@[simp] theorem execVshflXor_keeps (g : BitVec 3) (d a b : BitVec 7) (s : State) :
    Keeps (controls s) (execVshflXor g d a b s) := by simp [execVshflXor]

@[simp] theorem execVvote_keeps (g p : BitVec 3) (f : BitVec 4) (a : BitVec 3) (s : State) :
    Keeps (controls s) (execVvote g p f a s) := by simp [execVvote]

@[simp] theorem reduceOp_keeps (s : State) (g d a : Nat) (f : GC → List Word → Word) :
    Keeps (controls s) (reduceOp s g d a f) := by simp [reduceOp]

@[simp] theorem execVscan_keeps (g : BitVec 3) (d a : BitVec 7) (u x : BitVec 1) (o : BitVec 2) (s : State) :
    Keeps (controls s) (execVscan g d a u x o s) := by simp [execVscan]

@[simp] theorem execPand_keeps (g p a b : BitVec 3) (s : State) :
    Keeps (controls s) (execPand g p a b s) := by simp [execPand]

@[simp] theorem execPor_keeps (g p a b : BitVec 3) (s : State) :
    Keeps (controls s) (execPor g p a b s) := by simp [execPor]

@[simp] theorem execPxor_keeps (g p a b : BitVec 3) (s : State) :
    Keeps (controls s) (execPxor g p a b s) := by simp [execPxor]

@[simp] theorem execPnot_keeps (g p a : BitVec 3) (s : State) :
    Keeps (controls s) (execPnot g p a s) := by simp [execPnot]

/-! ### The functions of `Machine/Control.lean` -/

@[simp] theorem onSplit_controls (s : State) (c : GC) (f : Split → Split) :
    controls (onSplit s c f) = controls s := by rfl

@[simp] theorem divide_controls (s : State) (c : GC) (j : Nat) (keep new : Split) :
    controls (divide s c j keep new) = controls s := by rfl

@[simp] theorem execBr_keeps (p : BitVec 3) (o : BitVec 21) (s : State) : Keeps (controls s) (execBr p o s) := by
  unfold execBr
  refine grpInstr_keeps (fun c => ?_) _
  split <;> simp

@[simp] theorem execBru_keeps (p : BitVec 3) (o : BitVec 21) (s : State) :
    Keeps (controls s) (execBru p o s) := by simp [execBru]

@[simp] theorem execCall_keeps (p : BitVec 3) (o : BitVec 21) (s : State) : Keeps (controls s) (execCall p o s) := by
  unfold execCall
  refine grpInstr_keeps (fun c => ?_) _
  simp

@[simp] theorem execRet_keeps (s : State) : Keeps (controls s) (execRet s) := by simp [execRet]

@[simp] theorem execBrx_keeps (g : BitVec 3) (a : BitVec 7) (s : State) : Keeps (controls s) (execBrx g a s) := by
  unfold execBrx
  refine grpInstr_keeps (fun c => ?_) _
  simp

@[simp] theorem execJoin_keeps (s : State) : Keeps (controls s) (execJoin s) := by
  unfold execJoin
  refine grpInstr_keeps (fun c => ?_) _
  (repeat' split) <;> simp

@[simp] theorem settleExit_controls (s : State) (c : GC) : controls (settleExit s c) = controls s := by
  unfold settleExit
  split <;> simp

@[simp] theorem execExit_keeps (s : State) : Keeps (controls s) (execExit s) := by
  unfold execExit
  refine grpInstr_keeps (fun c => ?_) _
  split <;> simp

@[simp] theorem execYield_keeps (s : State) : Keeps (controls s) (execYield s) := by simp [execYield]

@[simp] theorem openLoop_keeps (s : State) (lvl vc stages off : Nat) (staged : Bool) :
    Keeps (controls s) (openLoop s lvl vc stages off staged) := by simp [openLoop]

@[simp] theorem execLoop_keeps (l : BitVec 2) (v : BitVec 7) (e : BitVec 15) (s : State) :
    Keeps (controls s) (execLoop l v e s) := by simp [execLoop]

@[simp] theorem execLoops_keeps (l : BitVec 2) (v : BitVec 7) (n : BitVec 2) (e : BitVec 13) (s : State) :
    Keeps (controls s) (execLoops l v n e s) := by simp [execLoops]

@[simp] theorem execRot_keeps (b n : BitVec 7) (s : State) : Keeps (controls s) (execRot b n s) := by simp [execRot]

@[simp] theorem execLbrk_keeps (g : BitVec 3) (s : State) : Keeps (controls s) (execLbrk g s) := by
  unfold execLbrk
  refine grpInstr_keeps (fun c => ?_) _
  (repeat' split) <;> simp

@[simp] theorem prefixWord_keeps (s : State) (dup : Pre → Bool) (add : Pre → Pre) :
    Keeps (controls s) (prefixWord s dup add) := by
  unfold prefixWord
  exact instr_keeps (by simp) (by simp) _

@[simp] theorem execLit_keeps (p : BitVec 24) (s : State) : Keeps (controls s) (execLit p s) := by simp [execLit]

@[simp] theorem execMod_keeps (n sat : BitVec 1) (r : BitVec 2) (s : State) :
    Keeps (controls s) (execMod n sat r s) := by simp [execMod]

@[simp] theorem execClause_keeps (w : BitVec 12) (l a b : BitVec 4) (s : State) :
    Keeps (controls s) (execClause w l a b s) := by
  unfold execClause
  exact instr_keeps (by simp) (by simp) _

@[simp] theorem execPrio_keeps (l : BitVec 2) (s : State) : Keeps (controls s) (execPrio l s) := by
  unfold execPrio
  exact instr_keeps (by simp) (by simp) _

@[simp] theorem execDefinedHint_keeps (mask : BitVec 32) (s : State) : Keeps (controls s) (execDefinedHint mask s) := by
  unfold execDefinedHint
  exact instr_keeps (by simp) (by simp) _

@[simp] theorem execIllegalEncoding_keeps (mask : BitVec 32) (s : State) :
    Keeps (controls s) (execIllegalEncoding mask s) := by
  unfold execIllegalEncoding
  exact instr_keeps (by simp) (by simp) _

/-! ### The functions of `Machine/Pool.lean` -/

@[simp] theorem poolPut_controls (s : State) (c off : Nat) (bs : List Byte) :
    controls (poolPut s c off bs) = controls s := by rfl

@[simp] theorem setFull_controls (s : State) (c off n : Nat) (v : Bool) :
    controls (setFull s c off n v) = controls s := by rfl

@[simp] theorem scopeRecord_controls (s : State) (src : Thread) (pc : Word) (addr kind : Nat) (tag : ScopeTag) :
    controls (scopeRecord s src pc addr kind tag) = controls s := by
  unfold scopeRecord
  split <;> simp

@[simp] theorem modInst_controls (s : State) (i : Nat) (f : PoolInst → PoolInst) :
    controls (modInst s i f) = controls s := by rfl

@[simp] theorem endAcquire_controls (s : State) (t : Thread) (i : Nat) :
    controls (endAcquire s t i) = controls s := by
  unfold endAcquire
  split <;> simp

@[simp] theorem informCode_controls (s : State) (r : PoolReq) (v : Option (BitVec 128)) (err : Option Byte) :
    controls (informCode s r v err) = controls s := by
  simp only [informCode]
  (repeat' split) <;> simp

@[simp] theorem inform_controls (s : State) (r : PoolReq) (v : Option (BitVec 128)) (ue : Bool) :
    controls (inform s r v ue) = controls s := by simp [inform]

@[simp] theorem checkScope_controls (s : State) (r : PoolReq) (n kind : Nat) :
    controls (checkScope s r n kind) = controls s := by
  unfold checkScope
  (repeat' split) <;> simp

@[simp] theorem tagScope_controls (s : State) (r : PoolReq) (n : Nat) : controls (tagScope s r n) = controls s := by
  unfold tagScope
  split <;> simp

@[simp] theorem portWatch_controls (s : State) (r : PoolReq) (kind n : Nat) (data : DWord) :
    controls (portWatch s r kind n data) = controls s := by simp [portWatch]

@[simp] theorem portLoad_controls (s : State) (r : PoolReq) (n : Nat) (clr : Bool) :
    controls (portLoad s r n clr) = controls s := by simp [portLoad]

@[simp] theorem satisfyFe_controls (s : State) (c : Nat) : controls (satisfyFe s c) = controls s := by
  unfold satisfyFe
  simp only
  rw [foldSt_controls (fun s r => ?_), foldSt_controls (fun s r => ?_)]
  · split <;> simp
  · split <;> simp

@[simp] theorem portAccess_controls (s : State) (r : PoolReq) : controls (portAccess s r) = controls s := by
  unfold portAccess
  split <;> simp

@[simp] theorem endInst_controls (s : State) (e : PoolInst) : controls (endInst s e) = controls s := by simp [endInst]

@[simp] theorem closeInst_controls (s : State) (id : Nat) : controls (closeInst s id) = controls s := by
  unfold closeInst
  split <;> simp

@[simp] theorem issuePool_controls (s : State) (e : PoolInst) (rel acq : Option (BitVec 2)) (l : List Access) :
    controls (issuePool s e rel acq l) = controls s := by simp [issuePool]

@[simp] theorem poolChecks_keeps {v : Controls} {k : Eff} (h : EffKeeps v k) (s : State) (core : Nat)
    (l : List (Nat × Word)) (align n : Nat) : EffKeeps v (poolChecks s core l align n k) := by
  unfold poolChecks
  (repeat' split) <;> simp [h]

@[simp] theorem execPoolPortAccess_keeps (id : Nat) (s : State) : Keeps (controls s) (execPoolPortAccess id s) := by
  unfold execPoolPortAccess
  split <;> simp

@[simp] theorem landLoad_controls (s : State) (e : PoolInst) : controls (landLoad s e) = controls s := by
  unfold landLoad
  (repeat' split) <;> simp

@[simp] theorem lateError_controls (s : State) (e : PoolInst) (code : Byte) (addr : Word) :
    controls (lateError s e code addr) = controls s := by
  unfold lateError
  (repeat' split) <;> simp

@[simp] theorem execPoolLoadReply_keeps (id : Nat) (s : State) : Keeps (controls s) (execPoolLoadReply id s) := by
  unfold execPoolLoadReply
  (repeat' split) <;> simp

@[simp] theorem execRemoteStoreAck_keeps (id : Nat) (s : State) : Keeps (controls s) (execRemoteStoreAck id s) := by
  unfold execRemoteStoreAck
  (repeat' split) <;> simp

/-! ### The functions of `Machine/Global.lean` -/

@[simp] theorem modReq_controls (s : State) (id : Nat) (f : GlobalReq → GlobalReq) :
    controls (modReq s id f) = controls s := by rfl

@[simp] theorem dropReq_controls (s : State) (id : Nat) : controls (dropReq s id) = controls s := by rfl

@[simp] theorem forgetWaits_controls (s : State) (t : Thread) : controls (forgetWaits s t) = controls s := by rfl

@[simp] theorem startWalk_controls (s : State) (core ctx va : Nat) (keep : Bool) :
    controls (startWalk s core ctx va keep) = controls s := by simp [startWalk]

@[simp] theorem takeWalk_controls (s : State) (core ctx va : Nat) :
    controls (takeWalk s core ctx va) = controls s := by rfl

@[simp] theorem askLeaf_controls (s : State) (core ctx va : Nat) :
    controls (askLeaf s core ctx va).1 = controls s := by
  unfold askLeaf
  split <;> simp

@[simp] theorem putVisitor_controls (s : State) (d k : Nat) (v : VisitorLine) :
    controls (putVisitor s d k v) = controls s := by
  simp only [putVisitor]
  (repeat' split) <;> simp

@[simp] theorem visitorStore_controls (s : State) (r : GlobalReq) (p : Word) (a : Nat) :
    controls (visitorStore s r p a) = controls s := by simp [visitorStore]

@[simp] theorem visitorThrough_controls (s : State) (r : GlobalReq) (p : Word) (a : Nat) :
    controls (visitorThrough s r p a) = controls s := by simp [visitorThrough]

@[simp] theorem flashClear_controls (s : State) (d : Nat) (which : Nat → Bool) :
    controls (flashClear s d which) = controls s := by rfl

@[simp] theorem acquireAt_controls (s : State) (core : Nat) (scope : BitVec 2) :
    controls (acquireAt s core scope) = controls s := by simp [acquireAt]

@[simp] theorem drainDie_controls (s : State) (d : Nat) (which : BitVec 16 → Bool) :
    controls (drainDie s d which) = controls s := by simp [drainDie]

@[simp] theorem endEpoch_controls (s : State) (d : Nat) : controls (endEpoch s d) = controls s := by simp [endEpoch]

@[simp] theorem releaseAt_controls (s : State) (core : Nat) (scope : BitVec 2) :
    controls (releaseAt s core scope) = controls s := by simp [releaseAt]

@[simp] theorem noteStored_controls (s : State) (t : Thread) (k : Nat) :
    controls (noteStored s t k) = controls s := by
  unfold noteStored
  split <;> simp

@[simp] theorem sendReq_controls (s : State) (r : GlobalReq) (l : Leaf) : controls (sendReq s r l) = controls s := by
  simp only [sendReq]
  (repeat' split) <;> simp

@[simp] theorem keepLeaf_controls (s : State) (core cmd va : Nat) (l : Leaf) :
    controls (keepLeaf s core cmd va l) = controls s := by rfl

@[simp] theorem routeReq_controls (s : State) (r : GlobalReq) (res : WalkRes) :
    controls (routeReq s r res) = controls s := by
  simp only [routeReq]
  (repeat' split) <;> simp

@[simp] theorem issueReq_controls (s : State) (r : GlobalReq) : controls (issueReq s r) = controls s := by
  simp only [issueReq]
  (repeat' split) <;> simp

@[simp] theorem sendAtg_controls (s : State) (inst : Nat) : controls (sendAtg s inst) = controls s := by
  unfold sendAtg
  refine foldSt_controls (fun s a => ?_) _ _
  split <;> simp

@[simp] theorem endAtg_controls (s : State) (e : AtgInst) : controls (endAtg s e) = controls s := by simp [endAtg]

@[simp] theorem atgRaise_controls (s : State) (e : AtgInst) (code : Byte) (va : Nat) :
    controls (atgRaise s e code va) = controls s := by
  simp only [atgRaise]
  (repeat' split) <;> simp

@[simp] theorem settleAtg_controls (s : State) (inst : Nat) : controls (settleAtg s inst) = controls s := by
  unfold settleAtg
  (repeat' split) <;> simp

@[simp] theorem waitwRaise_controls (s : State) (r : GlobalReq) (code : Byte) :
    controls (waitwRaise s r code) = controls s := by
  simp only [waitwRaise]
  (repeat' split) <;> simp

@[simp] theorem deliver_controls (s : State) (w : Walk) (res : WalkRes) :
    controls (deliver s w res) = controls s := by
  simp only [deliver]
  refine foldSt_controls (fun s a => ?_) _ _
  (repeat' split) <;> simp

@[simp] theorem endWalk_controls (s : State) (w : Walk) (res : WalkRes) :
    controls (endWalk s w res) = controls s := by
  unfold endWalk
  split <;> simp

@[simp] theorem ownWalk_controls (s : State) (w : Walk) (res : WalkRes) :
    controls (ownWalk s w res) = controls s := by
  unfold ownWalk
  split <;> simp

@[simp] theorem orderRecall_controls (s : State) (req key word home : Nat) (owner : BitVec 3) :
    controls (orderRecall s req key word home owner) = controls s := by rfl

@[simp] theorem orderDrain_controls (s : State) (home req : Nat) (m : BitVec 3 × BitVec 16) :
    controls (orderDrain s home req m) = controls s := by rfl

@[simp] theorem serveMarks_controls (s : State) (req die : Nat) (p : Word) (ws : List Nat) :
    controls (serveMarks s req die p ws) = controls s := by simp [serveMarks]

@[simp] theorem recallEntry_controls (s : State) (d k : Nat) :
    controls (recallEntry s d k) = controls s := by simp [recallEntry]

@[simp] theorem freeOldest_controls (s : State) (d : Nat) (l : List Nat) :
    controls (freeOldest s d l) = controls s := by
  induction l generalizing s with
  | nil => rfl
  | cons k l ih => simp [freeOldest, ih]

@[simp] theorem registerLine_controls (s : State) (p : Word) (a : Nat) :
    controls (registerLine s p a) = controls s := by simp [registerLine]

@[simp] theorem putMark_controls (s : State) (p : Word) (a : Nat) (m : BitVec 3 × BitVec 16) :
    controls (putMark s p a m) = controls s := by
  simp only [putMark]
  (repeat' split) <;> simp

@[simp] theorem orderRecalls_controls (s : State) (r : Nat) (p : Word) (base : Nat) (ws : List Nat) :
    controls (orderRecalls s r p base ws) = controls s := by simp [orderRecalls]

@[simp] theorem storeWord_controls (s : State) (p : Word) (base i : Nat) (bs : List (Nat × Nat × Byte)) :
    controls (storeWord s p base i bs) = controls s := by simp [storeWord]

@[simp] theorem registerWord_controls (s : State) (r : GlobalReq) (i : Nat) :
    controls (registerWord s r i) = controls s := by simp [registerWord]

@[simp] theorem dropWord_controls (s : State) (d k i : Nat) :
    controls (dropWord s d k i) = controls s := by simp [dropWord]

@[simp] theorem dupHome_controls (s : State) (r : GlobalReq) :
    controls (dupHome s r) = controls s := by simp [dupHome]

@[simp] theorem performStore_controls (s : State) (r : GlobalReq) : controls (performStore s r) = controls s := by
  unfold performStore
  split
  · simp
  · simp only
    split
    · simp only [modReq_controls, dupHome_controls]
      refine foldSt_controls (fun s e => ?_) _ _
      split <;> simp
    · simp only [modReq_controls, dupHome_controls]
      refine foldSt_controls (fun s e => ?_) _ _
      split <;> simp

@[simp] theorem tagLine_controls (s : State) (p : Word) (a core : Nat) (q : BitVec 2) :
    controls (tagLine s p a core q) = controls s := by simp [tagLine]

@[simp] theorem checkAtg_controls (s : State) (r : GlobalReq) : controls (checkAtg s r) = controls s := by
  unfold checkAtg
  split <;> simp

@[simp] theorem execHomeStore_keeps (id : Nat) (s : State) : Keeps (controls s) (execHomeStore id s) := by
  simp only [execHomeStore]
  (repeat' split) <;> simp

@[simp] theorem execRecall_keeps (id : Nat) (s : State) : Keeps (controls s) (execRecall id s) := by
  unfold execRecall
  split <;> simp

@[simp] theorem creditCopy_controls (s : State) (src : Nat) (t : CopyTag) (n : Nat) :
    controls (creditCopy s src t n) = controls s := by
  unfold creditCopy
  split <;> simp

@[simp] theorem execStoreAck_keeps (id : Nat) (s : State) : Keeps (controls s) (execStoreAck id s) := by
  unfold execStoreAck
  (repeat' split) <;> simp

@[simp] theorem performAtomic_controls (s : State) (r : GlobalReq) (op : BitVec 4) (b b' : DWord) (q : Bool)
    (scope : BitVec 2) : controls (performAtomic s r op b b' q scope) = controls s := by simp [performAtomic]

@[simp] theorem performRelease_controls (s : State) (r : GlobalReq) (scope : BitVec 2) :
    controls (performRelease s r scope) = controls s := by simp [performRelease]

@[simp] theorem againRelease_controls (s : State) (r : GlobalReq) (scope : BitVec 2) :
    controls (againRelease s r scope).1 = controls s := by
  unfold againRelease
  split <;> simp

@[simp] theorem execAtomicAtHome_keeps (id : Nat) (s : State) : Keeps (controls s) (execAtomicAtHome id s) := by
  unfold execAtomicAtHome
  (repeat' split) <;> simp

@[simp] theorem execDrainOrder_keeps (id : Nat) (s : State) : Keeps (controls s) (execDrainOrder id s) := by
  unfold execDrainOrder
  split <;> simp

@[simp] theorem acquireDone_controls (s : State) (r : GlobalReq) : controls (acquireDone s r) = controls s := by
  unfold acquireDone
  split <;> simp

@[simp] theorem execDrainAck_keeps (id : Nat) (s : State) : Keeps (controls s) (execDrainAck id s) := by
  simp only [execDrainAck]
  (repeat' split) <;> simp

@[simp] theorem atgRetire_controls (s : State) (e : AtgInst) : controls (atgRetire s e) = controls s := by
  unfold atgRetire
  split <;> simp

@[simp] theorem execGlobalAtomicReply_keeps (id : Nat) (s : State) :
    Keeps (controls s) (execGlobalAtomicReply id s) := by
  unfold execGlobalAtomicReply
  (repeat' split) <;> simp

@[simp] theorem dropEntry_controls (s : State) (core ctx va : Nat) :
    controls (dropEntry s core ctx va) = controls s := by rfl

@[simp] theorem dropCmdLeaf_controls (s : State) (core cmd : Nat) :
    controls (dropCmdLeaf s core cmd) = controls s := by rfl

@[simp] theorem markResend_controls (s : State) (r : ReadReq) : controls (markResend s r) = controls s := by rfl

@[simp] theorem returnRead_keeps (s : State) (id : Nat) : Keeps (controls s) (returnRead s id) := by
  unfold returnRead
  (repeat' split) <;> simp

@[simp] theorem execStaleGenerationReturn_keeps (id : Nat) (s : State) :
    Keeps (controls s) (execStaleGenerationReturn id s) := by
  unfold execStaleGenerationReturn
  (repeat' split) <;> simp

@[simp] theorem bufferWord_controls (s : State) (buf : Nat) (p : Word) (base i : Nat) (bs : List (Nat × Nat × Byte))
    : controls (bufferWord s buf p base i bs) = controls s := by simp [bufferWord]

@[simp] theorem execLinkBufferStore_keeps (buf : BitVec 2) (addr : BitVec 52) (data : List (BitVec 8)) (s : State) :
    Keeps (controls s) (execLinkBufferStore buf addr data s) := by simp [execLinkBufferStore]

@[simp] theorem execLinkBufferWriteback_keeps (buf : BitVec 2) (s : State) :
    Keeps (controls s) (execLinkBufferWriteback buf s) := by
  unfold execLinkBufferWriteback
  split <;> simp

/-! ### The functions of `Machine/Memory.lean` -/

@[simp] theorem wholeGuard_keeps {v : Controls} {s : State} {e : Eff} (hs : controls s = v) (h : EffKeeps v e)
    (c : GC) (g : Nat) : EffKeeps v (wholeGuard s c g e) := by simp [wholeGuard, hs, h]

@[simp] theorem setAcquire_controls (s : State) (c : GC) (id : Nat) :
    controls (setAcquire s c id) = controls s := by rfl

@[simp] theorem execLdp_keeps (g : BitVec 3) (d a : BitVec 7) (w m : BitVec 2) (x : BitVec 1) (sc : BitVec 2)
    (s : State) : Keeps (controls s) (execLdp g d a w m x sc s) := by
  refine grpInstr_keeps (fun c => ?_) _
  simp only
  refine memHold_keeps (chk_keeps ?_ _) _ _ _ _
  split
  · simp
  · refine poolChecks_keeps ?_ _ _ _ _ _
    split <;> simp

@[simp] theorem execStp_keeps (g : BitVec 3) (v a : BitVec 7) (w q : BitVec 2) (x : BitVec 1) (sc : BitVec 2)
    (s : State) : Keeps (controls s) (execStp g v a w q x sc s) := by
  refine grpInstr_keeps (fun c => ?_) _
  simp only
  refine memHold_keeps (chk_keeps ?_ _) _ _ _ _
  split
  · simp
  · exact poolChecks_keeps (by simp) _ _ _ _ _

@[simp] theorem execAtp_keeps (g : BitVec 3) (d a : BitVec 7) (o : BitVec 4) (q : BitVec 1) (sc : BitVec 2)
    (s : State) : Keeps (controls s) (execAtp g d a o q sc s) := by
  refine grpInstr_keeps (fun c => ?_) _
  simp only
  refine memHold_keeps (chk_keeps ?_ _) _ _ _ _
  split
  · simp
  · refine poolChecks_keeps ?_ _ _ _ _ _
    split <;> simp

@[simp] theorem execPfill_keeps (g : BitVec 3) (n a : BitVec 7) (x : BitVec 1) (s : State) :
    Keeps (controls s) (execPfill g n a x s) := by
  refine grpInstr_keeps (fun c => ?_) _
  simp only
  refine memHold_keeps (chk_keeps (wholeGuard_keeps rfl (chk_keeps ?_ _) _ _) _) _ _ _ _
  split
  · simp
  · split
    · simp
    · refine poolChecks_keeps ?_ _ _ _ _ _
      split <;> simp

@[simp] theorem fePoolChecks_keeps {v : Controls} {k : Eff} (h : EffKeeps v k) (s : State) (core : Nat) (a : DWord)
    (n : Nat) : EffKeeps v (fePoolChecks s core a n k) := by simp [fePoolChecks, h]

@[simp] theorem execSldp_keeps (d a : BitVec 6) (w : BitVec 2) (sx : BitVec 1) (s : State) :
    Keeps (controls s) (execSldp d a w sx s) := by
  simp only [execSldp]
  refine feInstr_keeps (fun c => ?_) _
  (repeat' split) <;> simp

@[simp] theorem execSstp_keeps (a b : BitVec 6) (w : BitVec 2) (s : State) :
    Keeps (controls s) (execSstp a b w s) := by simp [execSstp]

@[simp] theorem loopState_keeps {s : State} {done : GC → State → PoolInst → Eff}
    (h : ∀ c t e, controls t = controls s → EffKeeps (controls s) (done c t e)) (a : Nat) (save : Bool) :
    Keeps (controls s) (loopState s a save done) := by
  refine grpInstr_keeps (fun c => ?_) _
  simp only
  refine memHold_keeps (chk_keeps (poolChecks_keeps ?_ _ _ _ _ _) _) _ _ _ _
  split
  · simp
  · split
    · simp
    · refine heldBy_keeps ?_ _
      split <;> simp [h]

@[simp] theorem execLsave_keeps (a : BitVec 7) (s : State) : Keeps (controls s) (execLsave a s) := by simp [execLsave]

@[simp] theorem execLrest_keeps (a : BitVec 7) (s : State) : Keeps (controls s) (execLrest a s) :=
  loopState_keeps (fun _ _ _ h => chk_keeps (by simp [h]) _) _ _

@[simp] theorem globalWatch_controls (s : State) (core : Nat) (who : Who) (pc : Word) (kind n : Nat)
    (ls : List (Nat × Nat)) (data : Nat → DWord) :
    controls (globalWatch s core who pc kind n ls data) = controls s := by simp [globalWatch]

@[simp] theorem execStg_keeps (g : BitVec 3) (v a : BitVec 7) (w : BitVec 2) (q : BitVec 3) (sc : BitVec 2)
    (s : State) : Keeps (controls s) (execStg g v a w q sc s) := by
  refine grpInstr_keeps (fun c => ?_) _
  simp only
  refine memHold_keeps (chk_keeps ?_ _) _ _ _ _
  split <;> simp

@[simp] theorem execAtg_keeps (g : BitVec 3) (d a : BitVec 7) (o : BitVec 4) (q : BitVec 1) (sc : BitVec 2)
    (s : State) : Keeps (controls s) (execAtg g d a o q sc s) := by
  refine grpInstr_keeps (fun c => ?_) _
  simp only
  refine memHold_keeps (chk_keeps ?_ _) _ _ _ _
  split
  · simp
  · split
    · simp
    · refine heldBy_keeps ?_ _
      split <;> simp

@[simp] theorem execDrainst_keeps (g : BitVec 3) (s : State) :
    Keeps (controls s) (execDrainst g s) := by simp [execDrainst]

@[simp] theorem execFence_keeps (g q : BitVec 3) (sc : BitVec 2) (s : State) :
    Keeps (controls s) (execFence g q sc s) := by
  unfold execFence
  exact instr_keeps (by simp) (by simp) _

@[simp] theorem execInvr_keeps (g : BitVec 3) (n a : BitVec 7) (sc : BitVec 2) (s : State) :
    Keeps (controls s) (execInvr g n a sc s) := by
  refine grpInstr_keeps (fun c => ?_) _
  exact memHold_keeps (chk_keeps (wholeGuard_keeps rfl (chk_keeps (by simp) _) _ _) _) _ _ _ _

@[simp] theorem cleanHome_controls (s : State) (p : Word) (a : Nat) : controls (cleanHome s p a) = controls s := by
  unfold cleanHome
  split <;> simp

@[simp] theorem writeBackStored_controls (s : State) (ks : List Nat) :
    controls (writeBackStored s ks) = controls s := by simp [writeBackStored]

@[simp] theorem execAfence_keeps (g : BitVec 3) (s : State) :
    Keeps (controls s) (execAfence g s) := by simp [execAfence]

@[simp] theorem dropDup_controls (s : State) (d : Nat) : controls (dropDup s d) = controls s := by rfl

@[simp] theorem execAfenceDieAck_keeps (id : Nat) (die : BitVec 2) (s : State) :
    Keeps (controls s) (execAfenceDieAck id die s) := by
  unfold execAfenceDieAck
  split <;> simp

@[simp] theorem impreciseFault_controls (s : State) (r : GlobalReq) (l : List GlobalReq) (g : Nat) (code : Byte)
    (x : Group) : controls (impreciseFault s r l g code x) = controls s := by
  unfold impreciseFault
  split <;> simp

@[simp] theorem exitedReport_controls (s : State) (r : GlobalReq) (l : List GlobalReq) (g : Nat) (code : Byte) :
    controls (exitedReport s r l g code) = controls s := by
  unfold exitedReport
  split <;> simp

@[simp] theorem execStoreFaultReport_keeps (id : Nat) (s : State) :
    Keeps (controls s) (execStoreFaultReport id s) := by
  unfold execStoreFaultReport
  (repeat' split) <;> simp

/-! ### The functions of `Machine/Shared.lean` -/

@[simp] theorem putWord_controls (s : State) (i : Iss) (n : Nat) (v : Word) :
    controls (putWord s i n v) = controls s := by
  unfold putWord
  split <;> simp

@[simp] theorem putWide_controls (s : State) (i : Iss) (n : Nat) (v : DWord) :
    controls (putWide s i n v) = controls s := by
  unfold putWide
  split <;> simp

@[simp] theorem putDest_controls (s : State) (i : Iss) (p : Nat) (v : Bool) :
    controls (putDest s i p v) = controls s := by
  unfold putDest
  split <;> simp

@[simp] theorem sharedInstr_keeps {s : State} {f : Iss → Eff} (h : ∀ i, EffKeeps (controls s) (f i)) (lit : Bool)
    (regs : List (Nat × Nat)) (sregs : List Nat) (bad badFe : Bool) (priv : State → Nat → Bool) (fld : Field23) :
    Keeps (controls s) (sharedInstr s lit regs sregs bad badFe priv fld f) := by
  unfold sharedInstr
  have hk (c : GC) (l : List (Bool × Byte)) : EffKeeps (controls s) (chk l (f (.grp c))) := chk_keeps (h _) l
  refine instr_keeps ?_ ?_ _
  · cases fld <;> simp [hk]
  · cases fld <;> simp [h]

@[simp] theorem startWait_controls (s : State) (i : Iss) (w : Wait) : controls (startWait s i w) = controls s := by
  unfold startWait
  split <;> simp

@[simp] theorem endWait_controls (s : State) (w : Waiting) : controls (endWait s w) = controls s := by
  unfold endWait
  split <;> simp

@[simp] theorem faultWait_controls (s : State) (w : Waiting) (f : Flt) : controls (faultWait s w f) = controls s := by
  unfold faultWait
  (repeat' split) <;> simp

@[simp] theorem destWait_controls (s : State) (w : Waiting) (p : Nat) (v : Bool) :
    controls (destWait s w p v) = controls s := by
  unfold destWait
  (repeat' split) <;> simp

@[simp] theorem regsWait_controls (s : State) (w : Waiting) (n : Nat) (words : List Word) (wide : List DWord) :
    controls (regsWait s w n words wide) = controls s := by
  unfold regsWait
  (repeat' split) <;> simp

/-! ### The functions of `Machine/Barrier.lean` -/

@[simp] theorem sendBarReq_keeps {v : Controls} {s : State} (h : controls s = v) (i : Iss) (dst index : Nat)
    (spot : BitVec 16) (op : BarOp) (loc : Nat) :
    EffKeeps v (sendBarReq s i dst index spot op loc) := by simp [sendBarReq, h]

@[simp] theorem ownTurn_keeps {v : Controls} {e : Eff} (h : EffKeeps v e) (s : State) (i : Iss) :
    EffKeeps v (ownTurn s i e) := by simp [ownTurn, h]

@[simp] theorem waitPhase_keeps {v : Controls} {s : State} (h : controls s = v) (i : Iss) (p : BitVec 3)
    (a n : Word) (t : Option Nat) : EffKeeps v (waitPhase s i p a n t) := by
  unfold waitPhase
  (repeat' split) <;> simp [h]

@[simp] theorem localObject_keeps {v : Controls} {f : Barrier → Eff} (h : ∀ o, EffKeeps v (f o)) (s : State)
    (i : Iss) (n : Nat) : EffKeeps v (localObject s i n f) := by
  unfold localObject
  split <;> simp [h]

@[simp] theorem unlinkParent_controls (s : State) (core i : Nat) (t : Thread) :
    controls (unlinkParent s core i t) = controls s := by
  unfold unlinkParent
  split <;> simp

@[simp] theorem initObject_controls (s : State) (core i : Nat) (t : Thread) (parent : Option (BitVec 16)) :
    controls (initObject s core i t parent) = controls s := by
  unfold initObject
  split <;> simp

@[simp] theorem execBinit_keeps (g : BitVec 3) (a : BitVec 6) (l f : BitVec 1) (n : BitVec 6) (s : State) :
    Keeps (controls s) (execBinit g a l f n s) := by
  simp only [execBinit]
  refine sharedInstr_keeps (fun i => ?_) _ _ _ _ _ _ _
  (repeat' split) <;> simp

@[simp] theorem execBjoin_keeps (g : BitVec 3) (n : BitVec 6) (s : State) :
    Keeps (controls s) (execBjoin g n s) := by simp [execBjoin]

@[simp] theorem execBleave_keeps (g : BitVec 3) (n : BitVec 6) (s : State) :
    Keeps (controls s) (execBleave g n s) := by simp [execBleave]

@[simp] theorem arriveAt_keeps {v : Controls} {s : State} {k : State → Word → Eff} (hs : controls s = v)
    (h : ∀ t ph, controls t = v → EffKeeps v (k t ph)) (i : Iss) (d n : Nat) :
    EffKeeps v (arriveAt s i d n k) := by simp [arriveAt, hs, h]

@[simp] theorem execBarr_keeps (g : BitVec 3) (d n : BitVec 6) (s : State) :
    Keeps (controls s) (execBarr g d n s) := by simp [execBarr]

@[simp] theorem execBarrw_keeps (p : BitVec 3) (d n : BitVec 6) (s : State) :
    Keeps (controls s) (execBarrw p d n s) :=
  sharedInstr_keeps (fun _ => arriveAt_keeps rfl (fun _ _ h => waitPhase_keeps h ..) ..) ..

@[simp] theorem execBwait_keeps (p : BitVec 3) (a h : BitVec 6) (s : State) :
    Keeps (controls s) (execBwait p a h s) := by simp [execBwait]

@[simp] theorem execBtwait_keeps (p : BitVec 3) (a h : BitVec 6) (t : BitVec 9) (s : State) :
    Keeps (controls s) (execBtwait p a h t s) := by simp [execBtwait]

@[simp] theorem expectBytes_controls (s : State) (core i : Nat) (n : DWord) :
    controls (expectBytes s core i n) = controls s := by simp [expectBytes]

@[simp] theorem execBexpect_keeps (g : BitVec 3) (a b : BitVec 6) (s : State) :
    Keeps (controls s) (execBexpect g a b s) := by
  simp only [execBexpect]
  refine sharedInstr_keeps (fun i => ?_) _ _ _ _ _ _ _
  (repeat' split) <;> simp

@[simp] theorem execBquery_keeps (g : BitVec 3) (d a : BitVec 6) (h : BitVec 1) (k : BitVec 3) (s : State) :
    Keeps (controls s) (execBquery g d a h k s) := by
  simp only [execBquery]
  refine sharedInstr_keeps (fun i => ?_) _ _ _ _ _ _ _
  (repeat' split) <;> simp

@[simp] theorem dropBarReq_controls (s : State) (id : Nat) : controls (dropBarReq s id) = controls s := by rfl

@[simp] theorem modBarReq_controls (s : State) (id : Nat) (f : BarReq → BarReq) :
    controls (modBarReq s id f) = controls s := by rfl

@[simp] theorem answerBar_controls (s : State) (id : Nat) (v : Option DWord) :
    controls (answerBar s id v) = controls s := by rfl

@[simp] theorem readAtTarget_controls (s : State) (r : BarReq) (o : Barrier) (n : Word) (expires : Option Nat) :
    controls (readAtTarget s r o n expires) = controls s := by
  unfold readAtTarget
  (repeat' split) <;> simp

@[simp] theorem linkAtTarget_controls (s : State) (r : BarReq) (o : Barrier) (m : BitVec 16) :
    controls (linkAtTarget s r o m) = controls s := by simp [linkAtTarget]

@[simp] theorem execRemoteBarrierOp_keeps (id : Nat) (s : State) : Keeps (controls s) (execRemoteBarrierOp id s) := by
  unfold execRemoteBarrierOp
  (repeat' split) <;> simp

@[simp] theorem endBarReq_controls (s : State) (r : BarReq) (v : Option DWord) :
    controls (endBarReq s r v) = controls s := by
  unfold endBarReq
  (repeat' split) <;> simp

@[simp] theorem execBarrierReply_keeps (id : Nat) (s : State) : Keeps (controls s) (execBarrierReply id s) := by
  unfold execBarrierReply
  (repeat' split) <;> simp

@[simp] theorem execAbsWaitPoll_keeps (id : Nat) (s : State) : Keeps (controls s) (execAbsWaitPoll id s) := by
  unfold execAbsWaitPoll
  (repeat' split) <;> simp

@[simp] theorem execBtwaitTimeout_keeps (core who split : Nat) (s : State) :
    Keeps (controls s) (execBtwaitTimeout core who split s) := by
  simp only [execBtwaitTimeout]
  (repeat' split) <;> simp

@[simp] theorem endPhaseWait_controls (s : State) (w : Waiting) (a n : Word) (p : BitVec 3) (e : Option Nat)
    (told : Option Bool) : controls (endPhaseWait s w a n p e told) = controls s := by
  unfold endPhaseWait
  split <;> simp

@[simp] theorem takeBarMsg_controls (s : State) (m : BarMsg) : controls (takeBarMsg s m) = controls s := by rfl

@[simp] theorem childArrives_controls (s : State) (m : BarMsg) (core : Nat) :
    controls (childArrives s m core) = controls s := by
  unfold childArrives
  split <;> simp

@[simp] theorem noticeWaits_controls (s : State) (m : BarMsg) (core : Nat) :
    controls (noticeWaits s m core) = controls s := by
  unfold noticeWaits
  split <;> simp

@[simp] theorem childCompletes_controls (s : State) (core i : Nat) (err : Bool) (code : Byte) :
    controls (childCompletes s core i err code) = controls s := by
  unfold childCompletes
  split <;> simp

@[simp] theorem noticeArrives_controls (s : State) (m : BarMsg) (core : Nat) :
    controls (noticeArrives s m core) = controls s := by simp [noticeArrives]

@[simp] theorem cutBarMsg_controls (s : State) (m : BarMsg) : controls (cutBarMsg s m) = controls s := by
  unfold cutBarMsg
  (repeat' split) <;> simp

@[simp] theorem barMsgStep_keeps {f : State → BarMsg → Nat → State} (h : ∀ t m c, controls (f t m c) = controls t)
    (s : State) (id : Nat) (kinds : List Nat) : Keeps (controls s) (barMsgStep s id kinds f) := by
  unfold barMsgStep
  split
  · simp
  · refine event_keeps rfl ?_ _
    split
    · simp
    · split <;> simp [h]

@[simp] theorem execChildArrival_keeps (id : Nat) (s : State) :
    Keeps (controls s) (execChildArrival id s) := by simp [execChildArrival]

@[simp] theorem execErrorArrival_keeps (id : Nat) (s : State) :
    Keeps (controls s) (execErrorArrival id s) := by simp [execErrorArrival]

@[simp] theorem execPhaseNotice_keeps (id : Nat) (s : State) :
    Keeps (controls s) (execPhaseNotice id s) := by simp [execPhaseNotice]

@[simp] theorem batchArrives_controls (s : State) (core i g : Nat) (err : Bool) :
    controls (batchArrives s core i g err) = controls s := by
  unfold batchArrives
  split <;> simp

/-! ### The functions of `Machine/Float.lean` -/

@[simp] theorem fltOp_keeps (s : State) (g d : Nat) (srcs : List Nat) (f : GC → Nat → Word × BitVec 5) :
    Keeps (controls s) (fltOp s g d srcs f) := by simp [fltOp]

@[simp] theorem fmaOp_keeps (s : State) (g d a b : Nat) (np nc : Bool) :
    Keeps (controls s) (fmaOp s g d a b np nc) := by simp [fmaOp]

@[simp] theorem execFcmp_keeps (g p : BitVec 3) (k : BitVec 4) (a b : BitVec 7) (s : State) :
    Keeps (controls s) (execFcmp g p k a b s) := by simp [execFcmp]

@[simp] theorem execCvt_keeps (g : BitVec 3) (d a : BitVec 7) (o : BitVec 4) (n : BitVec 3) (s : State) :
    Keeps (controls s) (execCvt g d a o n s) := by simp [execCvt]

@[simp] theorem execCvtx_keeps (g : BitVec 3) (d a b : BitVec 7) (s : State) :
    Keeps (controls s) (execCvtx g d a b s) := by simp [execCvtx]

@[simp] theorem haddOp_keeps (f : Fmt) (s : State) (g d a b : Nat) :
    Keeps (controls s) (haddOp f s g d a b) := by simp [haddOp]

@[simp] theorem hmulOp_keeps (f : Fmt) (s : State) (g d a b : Nat) :
    Keeps (controls s) (hmulOp f s g d a b) := by simp [hmulOp]

@[simp] theorem hfmaOp_keeps (f : Fmt) (s : State) (g d a b : Nat) :
    Keeps (controls s) (hfmaOp f s g d a b) := by simp [hfmaOp]

@[simp] theorem dotOp_keeps (f : Fmt) (w n : Nat) (s : State) (g d a b : Nat) :
    Keeps (controls s) (dotOp f w n s g d a b) := by simp [dotOp]

@[simp] theorem sfuOp_keeps (s : State) (g : BitVec 3) (d a : BitVec 7) (f : Word → Word × BitVec 5) :
    Keeps (controls s) (sfuOp s g d a f) := by
  unfold sfuOp
  refine grpInstr_keeps (fun c => ?_) _
  simp

@[simp] theorem writeRegs_controls (s : State) (c : GC) (d n : Nat) (act : List Nat) (f : Nat → Nat → Word) :
    controls (writeRegs s c d n act f) = controls s := by simp [writeRegs]

@[simp] theorem execTwid_keeps (g : BitVec 3) (d a b : BitVec 7) (s : State) :
    Keeps (controls s) (execTwid g d a b s) := by
  unfold execTwid
  refine grpInstr_keeps (fun c => ?_) _
  simp

@[simp] theorem pairOp_keeps (s : State) (g : Nat) (dst : Nat × Nat) (srcs : List (Nat × Nat))
    (f : GC → Nat → Nat → Word × BitVec 5) : Keeps (controls s) (pairOp s g dst srcs f) := by simp [pairOp]

@[simp] theorem fredOp_keeps (s : State) (g d a : Nat) (op : Word → Word → Word × BitVec 5) :
    Keeps (controls s) (fredOp s g d a op) := by simp [fredOp]

/-! ### The functions of `Machine/Pages.lean` -/

@[simp] theorem postWalk_controls (s : State) (w : Walk) : controls (postWalk s w) = controls s := by rfl

@[simp] theorem noteSeen_controls (s : State) (id : Nat) (l : Option Leaf) :
    controls (noteSeen s id l) = controls s := by rfl

@[simp] theorem execPageWalk_keeps (id : Nat) (s : State) : Keeps (controls s) (execPageWalk id s) := by
  unfold execPageWalk
  split <;> simp

@[simp] theorem execFrameOwnerZeroing_keeps (id : Nat) (s : State) :
    Keeps (controls s) (execFrameOwnerZeroing id s) := by
  unfold execFrameOwnerZeroing
  (repeat' split) <;> simp

@[simp] theorem freeWalkMail_controls (s : State) : controls (freeWalkMail s) = controls s := by rfl

@[simp] theorem execWalkMailboxDone_keeps (leaf : BitVec 128) (s : State) :
    Keeps (controls s) (execWalkMailboxDone leaf s) := by
  unfold execWalkMailboxDone
  split <;> simp

@[simp] theorem execWalkMailboxFault_keeps (s : State) : Keeps (controls s) (execWalkMailboxFault s) := by
  unfold execWalkMailboxFault
  split <;> simp

@[simp] theorem dropTranslations_controls (s : State) (which : TEntry → Bool) :
    controls (dropTranslations s which) = controls s := by simp [dropTranslations]

@[simp] theorem execShootdown_keeps (word0 word1 : BitVec 64) (s : State) :
    Keeps (controls s) (execShootdown word0 word1 s) := by simp [execShootdown]

@[simp] theorem execShootdownComplete_keeps (s : State) :
    Keeps (controls s) (execShootdownComplete s) := by simp [execShootdownComplete]

@[simp] theorem modMig_controls (s : State) (id : Nat) (f : Migration → Migration) :
    controls (modMig s id f) = controls s := by rfl

@[simp] theorem dropMig_controls (s : State) (id : Nat) : controls (dropMig s id) = controls s := by rfl

@[simp] theorem writeState_controls (s : State) (l : Leaf) (st : BitVec 3) :
    controls (writeState s l st) = controls s := by simp [writeState]

@[simp] theorem writeLeafFrame_controls (s : State) (l : Leaf) (pa : Nat) (p : Word) :
    controls (writeLeafFrame s l pa p) = controls s := by simp [writeLeafFrame]

@[simp] theorem probeAsk_controls (s : State) (core ctx va : Nat) :
    controls (probeAsk s core ctx va).1 = controls s := by
  have h := askLeaf_controls s core ctx va
  unfold probeAsk
  simp only
  split <;> simp_all

@[simp] theorem migLeaf_controls (s : State) (m : Migration) : controls (migLeaf s m).1 = controls s := by
  have h := devTranslate_controls s m.ctx m.va
  unfold migLeaf
  (repeat' split) <;> simp_all

@[simp] theorem migFail_controls (s : State) (m : Migration) (code : Byte) (reached : Nat) :
    controls (migFail s m code reached) = controls s := by
  unfold migFail
  (repeat' split) <;> simp

@[simp] theorem execRestripeCheck_keeps (id : Nat) (s : State) : Keeps (controls s) (execRestripeCheck id s) := by
  unfold execRestripeCheck
  split
  · simp
  · rename_i m _
    have h := migLeaf_controls s m
    split
    · simp
    · split
      · simp_all
      · simp only [keeps_next]
        split <;> simp_all

@[simp] theorem moveLine_controls (s : State) (m : Migration) (l : Leaf) (o : Nat) :
    controls (moveLine s m l o) = controls s := by simp [moveLine]

@[simp] theorem moveGranules_controls (s : State) (m : Migration) (gs : List Nat) :
    controls (moveGranules s m gs) = controls s := by
  unfold moveGranules
  split <;> simp

@[simp] theorem recallPage_controls (s : State) (l : Leaf) :
    controls (recallPage s l) = controls s := by simp [recallPage]

@[simp] theorem execRestripePassEnd_keeps (id : Nat) (s : State) : Keeps (controls s) (execRestripePassEnd id s) := by
  unfold execRestripePassEnd
  (repeat' split) <;> simp

@[simp] theorem execRestripeFinalCopy_keeps (id : Nat) (s : State) :
    Keeps (controls s) (execRestripeFinalCopy id s) := by
  unfold execRestripeFinalCopy
  (repeat' split) <;> simp

@[simp] theorem forgetFrames_controls (s : State) (m : Migration) (n : Nat) :
    controls (forgetFrames s m n) = controls s := by rfl

@[simp] theorem publish_controls (s : State) (m : Migration) (l : Leaf) :
    controls (publish s m l) = controls s := by simp [publish]

@[simp] theorem retireFrames_controls (s : State) (l : Leaf) : controls (retireFrames s l) = controls s := by rfl

@[simp] theorem migDone_controls (s : State) (m : Migration) (l : Leaf) : controls (migDone s m l) = controls s := by
  unfold migDone
  split <;> simp

@[simp] theorem execRestripeShootdownAck_keeps (id cache : Nat) (s : State) :
    Keeps (controls s) (execRestripeShootdownAck id cache s) := by
  unfold execRestripeShootdownAck
  (repeat' split) <;> simp

@[simp] theorem execRestripeAbort_keeps (id : Nat) (dieLoss : Bool) (s : State) :
    Keeps (controls s) (execRestripeAbort id dieLoss s) := by
  unfold execRestripeAbort
  (repeat' split) <;> simp

@[simp] theorem probeEnd_controls (s : State) (w : Waiting) (va : Nat) (pd : BitVec 3) (rb : Nat) (l : Option Leaf)
    : controls (probeEnd s w va pd rb l) = controls s := by simp [probeEnd]

@[simp] theorem execPgprobe_keeps (p : BitVec 3) (a b : BitVec 6) (s : State) :
    Keeps (controls s) (execPgprobe p a b s) := by simp [execPgprobe]

@[simp] theorem execPgmig_keeps (p : BitVec 3) (a b : BitVec 6) (x : BitVec 1) (n : BitVec 6) (s : State) :
    Keeps (controls s) (execPgmig p a b x n s) := by simp [execPgmig]

@[simp] theorem execPgscrub_keeps (g : BitVec 3) (a : BitVec 6) (s : State) :
    Keeps (controls s) (execPgscrub g a s) := by simp [execPgscrub]

@[simp] theorem scrubPage_controls (s : State) (l : Leaf) :
    controls (scrubPage s l) = controls s := by simp [scrubPage]

@[simp] theorem execPgscrubScanDone_keeps (id : Nat) (s : State) : Keeps (controls s) (execPgscrubScanDone id s) := by
  unfold execPgscrubScanDone
  split
  · simp
  · rename_i x _
    have h := askLeaf_controls s x.thread.core x.ctx x.va
    refine Keeps.ite rfl ?_
    split <;> simp_all

/-! ### The functions of `Machine/Copy.lean` -/

@[simp] theorem modCopy_controls (s : State) (core : Nat) (f : CopyEngine → CopyEngine) :
    controls (modCopy s core f) = controls s := by rfl

@[simp] theorem modCmd_controls (s : State) (core id : Nat) (f : CopyCmd → CopyCmd) :
    controls (modCmd s core id f) = controls s := by rfl

@[simp] theorem modTr_controls (s : State) (core id j : Nat) (f : Transfer → Transfer) :
    controls (modTr s core id j f) = controls s := by rfl

@[simp] theorem modSlot_controls (s : State) (core n : Nat) (f : Slot → Slot) :
    controls (modSlot s core n f) = controls s := by rfl

@[simp] theorem noteFault_controls (s : State) (core id j : Nat) (code : Byte) (addr row : Nat) :
    controls (noteFault s core id j code addr row) = controls s := by rfl

@[simp] theorem takeSlot_controls (s : State) (core : Nat) (b : Block) (c : CopyCmd) :
    controls (takeSlot s core b c) = controls s := by simp [takeSlot]

@[simp] theorem claimMcid_controls (s : State) (core : Nat) (m : BitVec 4) :
    controls (claimMcid s core m) = controls s := by
  unfold claimMcid
  split <;> simp

@[simp] theorem acceptCmd_controls (s : State) (core : Nat) (b : Block) (c : CopyCmd) :
    controls (acceptCmd s core b c) = controls s := by simp [acceptCmd]

@[simp] theorem declareStream_controls (s : State) (core : Nat) (c : CopyCmd) :
    controls (declareStream s core c) = controls s := by rfl

@[simp] theorem copyChecks_keeps {v : Controls} {k : Eff} (h : EffKeeps v k) (s : State) (core : Nat) (b : Block)
    (c : CopyCmd) (raw : Nat) : EffKeeps v (copyChecks s core b c raw k) := by
  unfold copyChecks
  (repeat' split) <;> simp [h]

@[simp] theorem copyIssue_keeps (s : State) (op p a b : Nat) : Keeps (controls s) (copyIssue s op p a b) := by
  unfold copyIssue
  refine feInstr_keeps (fun c => ?_) _
  simp

@[simp] theorem execTwait_keeps (g : BitVec 3) (n : BitVec 9) (s : State) :
    Keeps (controls s) (execTwait g n s) := by simp [execTwait]

@[simp] theorem execTquery_keeps (g : BitVec 3) (d : BitVec 6) (n : BitVec 9) (s : State) :
    Keeps (controls s) (execTquery g d n s) := by simp [execTquery]

@[simp] theorem copyPortWatch_controls (s : State) (core : Nat) (c : CopyCmd) (t : Nat × Nat) (kind n : Nat)
    (data : DWord) : controls (copyPortWatch s core c t kind n data) = controls s := by simp [copyPortWatch]

@[simp] theorem copyRowWatch_controls (s : State) (core : Nat) (c : CopyCmd) (kind addr n : Nat) (data : DWord) :
    controls (copyRowWatch s core c kind addr n data) = controls s := by simp [copyRowWatch]

@[simp] theorem startCmd_controls (s : State) (core : Nat) (b : Block) (c : CopyCmd) :
    controls (startCmd s core b c) = controls s := by simp [startCmd]

@[simp] theorem counted_controls (s : State) (core : Nat) (c : CopyCmd) (k : Nat) :
    controls (counted s core c k) = controls s := by rfl

@[simp] theorem touchHome_controls (s : State) (core : Nat) (c : CopyCmd) (l : Leaf) (a : Nat) :
    controls (touchHome s core c l a) = controls s := by
  simp only [touchHome]
  (repeat' split) <;> simp

@[simp] theorem touchVisitor_controls (s : State) (core : Nat) (c : CopyCmd) (die : Nat) (p : Word) (a : Nat) :
    controls (touchVisitor s core c die p a) = controls s := by
  simp only [touchVisitor]
  (repeat' split) <;> simp

@[simp] theorem fillVisitor_controls (s : State) (core : Nat) (c : CopyCmd) (die : Nat) (l : Leaf) (a : Nat) :
    controls (fillVisitor s core c die l a) = controls s := by simp [fillVisitor]

@[simp] theorem streamRead_controls (s : State) (core va : Nat) :
    controls (streamRead s core va) = controls s := by rfl

@[simp] theorem keepIndex_controls (s : State) (core j : Nat) (c : CopyCmd) (t : Transfer) :
    controls (keepIndex s core j c t) = controls s := by simp [keepIndex]

@[simp] theorem readGlobal_keeps (s : State) (core : Nat) (b : Block) (c : CopyCmd) (j : Nat) (t : Transfer) :
    OptKeeps (controls s) (readGlobal s core b c j t) := by
  simp only [readGlobal]
  (repeat' split) <;> simp

@[simp] theorem readPoolPiece_keeps (s : State) (core : Nat) (b : Block) (c : CopyCmd) (j : Nat) (t : Transfer) :
    OptKeeps (controls s) (readPoolPiece s core b c j t) := by
  unfold readPoolPiece
  split <;> simp

@[simp] theorem fillGranules_controls (s : State) (t : Nat × Nat) (col n : Nat) (which : Nat → Bool) :
    controls (fillGranules s t col n which) = controls s := by simp [fillGranules]

@[simp] theorem creditCmd_controls (s : State) (core : Nat) (c : CopyCmd) (n : Nat) :
    controls (creditCmd s core c n) = controls s := by
  unfold creditCmd
  split <;> simp

@[simp] theorem landCredit_keeps (id : Nat) (s : State) : Keeps (controls s) (landCredit id s) := by
  unfold landCredit
  (repeat' split) <;> simp

@[simp] theorem landPool_keeps (s : State) (core : Nat) (c : CopyCmd) (j : Nat) (t : Transfer) (bs : List Byte) :
    OptKeeps (controls s) (landPool s core c j t bs) := by
  simp only [landPool]
  (repeat' split) <;> simp

@[simp] theorem landSlot_controls (s : State) (core : Nat) (c : CopyCmd) (r : Nat) (image : List Byte) :
    controls (landSlot s core c r image) = controls s := by simp [landSlot]

@[simp] theorem sendCopyWrite_controls (s : State) (core : Nat) (b : Block) (c : CopyCmd) (j row va : Nat)
    (bs : List Byte) (n : Nat) :
    controls (sendCopyWrite s core b c j row va bs n) = controls s := by simp [sendCopyWrite]

@[simp] theorem sendLines_controls (s : State) (core : Nat) (b : Block) (c : CopyCmd) (j row va : Nat)
    (bs : List Byte) (count : Bool) :
    controls (sendLines s core b c j row va bs count) = controls s := by simp [sendLines]

@[simp] theorem landGlobal_controls (s : State) (core : Nat) (b : Block) (c : CopyCmd) (j : Nat) (t : Transfer)
    (bs : List Byte) : controls (landGlobal s core b c j t bs) = controls s := by simp [landGlobal]

@[simp] theorem landCompressed_controls (s : State) (core : Nat) (b : Block) (c : CopyCmd) (j : Nat) (t : Transfer)
    (image : List Byte) : controls (landCompressed s core b c j t image) = controls s := by simp [landCompressed]

@[simp] theorem gatherRow_keeps (s : State) (core : Nat) (b : Block) (c : CopyCmd) (j : Nat) (t : Transfer)
    (bs : List Byte) : OptKeeps (controls s) (gatherRow s core b c j t bs) := by
  unfold gatherRow
  (repeat' split) <;> simp

@[simp] theorem landPiece_keeps (s : State) (core : Nat) (b : Block) (c : CopyCmd) (j : Nat) (t : Transfer)
    (bs : List Byte) : OptKeeps (controls s) (landPiece s core b c j t bs) := by
  unfold landPiece
  (repeat' split) <;> simp

@[simp] theorem transferStep_keeps (s : State) (core : Nat) (b : Block) (c : CopyCmd) (j : Nat) (t : Transfer) :
    OptKeeps (controls s) (transferStep s core b c j t) := by
  unfold transferStep
  (repeat' split) <;> simp

@[simp] theorem execCopyDataLand_keeps (core cmd tr : Nat) (s : State) :
    Keeps (controls s) (execCopyDataLand core cmd tr s) := by
  unfold execCopyDataLand
  split
  · split
    · split
      · exact transferStep_keeps s core _ _ tr _ _ ‹_›
      · simp
    · simp
  · simp

@[simp] theorem dropRead_controls (s : State) (id : Nat) : controls (dropRead s id) = controls s := by rfl

@[simp] theorem deliverRead_controls (s : State) (r : ReadReq) (bs : List Byte) :
    controls (deliverRead s r bs) = controls s := by rfl

@[simp] theorem execVisitorFill_keeps (id : Nat) (s : State) : Keeps (controls s) (execVisitorFill id s) := by
  unfold execVisitorFill
  (repeat' split) <;> simp

@[simp] theorem orderReadDrains_controls (s : State) (r : ReadReq) :
    controls (orderReadDrains s r) = controls s := by simp [orderReadDrains]

@[simp] theorem acquireRead_controls (s : State) (core : Nat) (c : CopyCmd) :
    controls (acquireRead s core c) = controls s := by simp [acquireRead]

@[simp] theorem checkCopy_controls (s : State) (core : Nat) (c : CopyCmd) (p : Word) (a va : Nat) :
    controls (checkCopy s core c p a va) = controls s := by
  unfold checkCopy
  split <;> simp

@[simp] theorem execForwardedRead_keeps (id : Nat) (s : State) : Keeps (controls s) (execForwardedRead id s) := by
  unfold execForwardedRead
  (repeat' split) <;> simp

@[simp] theorem settleGranules_controls (s : State) (core : Nat) (c : CopyCmd) (j : Nat) (t : Transfer) :
    controls (settleGranules s core c j t) = controls s := by simp [settleGranules]

@[simp] theorem execCopyTransferFault_keeps (core cmd tr : Nat) (s : State) :
    Keeps (controls s) (execCopyTransferFault core cmd tr s) := by
  unfold execCopyTransferFault
  (repeat' split) <;> simp

@[simp] theorem endFill_controls (s : State) (core : Nat) (c : CopyCmd) (ok : Bool) :
    controls (endFill s core c ok) = controls s := by rfl

@[simp] theorem copyRecord_controls (s : State) (core : Nat) (b : Block) (c : CopyCmd)
    (f : Nat × Byte × DWord × Nat) : controls (copyRecord s core b c f) = controls s := by simp [copyRecord]

@[simp] theorem execCopyCommandComplete_keeps (core cmd : Nat) (s : State) :
    Keeps (controls s) (execCopyCommandComplete core cmd s) := by
  simp only [execCopyCommandComplete]
  (repeat' split) <;> simp

@[simp] theorem execMcidReplicaUpdate_keeps (id : Nat) (s : State) :
    Keeps (controls s) (execMcidReplicaUpdate id s) := by
  unfold execMcidReplicaUpdate
  split <;> simp

@[simp] theorem execMcidRelease_keeps (cl : Nat) (mcid : BitVec 4) (s : State) :
    Keeps (controls s) (execMcidRelease cl mcid s) := by
  unfold execMcidRelease
  split <;> simp

@[simp] theorem endStream_controls (s : State) (core n : Nat) : controls (endStream s core n) = controls s := by rfl

@[simp] theorem fetchLine_controls (s : State) (core n : Nat) (st : Stream) (l : Leaf) (va : Nat) :
    controls (fetchLine s core n st l va) = controls s := by simp [fetchLine]

@[simp] theorem modStream_controls (s : State) (core n : Nat) (f : Stream → Stream) :
    controls (modStream s core n f) = controls s := by rfl

@[simp] theorem execStreamPrefetch_keeps (core : Nat) (stream : BitVec 3) (s : State) :
    Keeps (controls s) (execStreamPrefetch core stream s) := by
  simp only [execStreamPrefetch]
  (repeat' split) <;> simp

/-! ### The functions of `Machine/Jobs.lean` -/

@[simp] theorem readHeader_controls (s : State) (ctx : Nat) (kernel : DWord) :
    controls (readHeader s ctx kernel).1 = controls s := by
  have h := devRead_controls s ctx kernel.toNat 64
  unfold readHeader
  split
  · simp_all
  · rename_i t raw ht
    have h' := devRead_controls t ctx (kernel.toNat + 64) (8 * fieldAt raw 0x12 2)
    simp only
    (repeat' split) <;> simp_all

@[simp] theorem putJob_controls (s : State) (n : Nat) (j : Job) : controls (putJob s n j) = controls s := by rfl

@[simp] theorem takeNumber_controls (s : State) : controls (takeNumber s) = controls s := by rfl

@[simp] theorem newRoot_controls (s : State) (ctx queue : Nat) (addr : DWord) (src : Option Thread) :
    controls (newRoot s ctx queue addr src) = controls s := by rfl

@[simp] theorem dropSaved_controls (s : State) (n : Nat) : controls (dropSaved s n) = controls s := by rfl

@[simp] theorem freeEntry_controls (s : State) (n : Nat) : controls (freeEntry s n) = controls s := by
  unfold freeEntry
  split <;> simp

@[simp] theorem ctxIdle_controls (s : State) (ctx : Nat) : controls (ctxIdle s ctx) = controls s := by simp [ctxIdle]

@[simp] theorem becomeReady_controls (s : State) (n : Nat) : controls (becomeReady s n) = controls s := by rfl

@[simp] theorem enterSluice_controls (s : State) (n : Nat) (j : Job) (h : Header) :
    controls (enterSluice s n j h) = controls s := by rfl

@[simp] theorem endRegistrations_controls (s : State) (which : Nat → Waiter → Bool) :
    controls (endRegistrations s which) = controls s := by rfl

@[simp] theorem gatedOn_controls (s : State) (p : Word) (a : Nat) (j : Job) :
    controls (gatedOn s p a j).1 = controls s := by
  have h := devTranslate_controls s j.ctx j.record.wakeAddr.toNat
  unfold gatedOn
  split
  · rfl
  · split <;> simp_all

@[simp] theorem openGateW_controls (p : Word) (a : Nat) (s : State) (e : Nat × Job) :
    controls (openGateW p a s e) = controls s := by simp [openGateW]

@[simp] theorem wakeWord_controls (s : State) (p : Word) (a : Nat) :
    controls (wakeWord s p a) = controls s := by simp [wakeWord]

@[simp] theorem devRelease_controls (s : State) (ds : List Nat) :
    controls (devRelease s ds).1 = controls s := by simp [devRelease]

@[simp] theorem devStoreRel_controls (s : State) (ds : List Nat) (ctx va : Nat) (bs : List Byte) :
    controls (devStoreRel s ds ctx va bs).1 = controls s := by
  have h := devWriteCode_controls s ctx va bs.length
  unfold devStoreRel
  split
  · simp_all
  · rename_i t ht
    have hu : controls (devWrite (devRelease t ds).1 ctx va bs).1 = controls s := by simp_all
    simp only
    rw [← hu]
    refine foldSt_controls (fun u e => ?_) _ _
    have hl := devTranslate_controls u ctx e.1
    split <;> simp_all

@[simp] theorem devWake_controls (s : State) (ctx va : Nat) (v : DWord) :
    controls (devWake s ctx va v) = controls s := by
  have h := devStoreRel_controls s (admittedDies s) ctx va (natBytes 8 v.toNat)
  unfold devWake
  split
  · simp_all
  · rename_i t ht
    have hl := devTranslate_controls t ctx va
    split <;> simp_all

@[simp] theorem openGateM_controls (s : State) (n ctx : Nat) :
    controls (openGateM s n ctx) = controls s := by simp [openGateM]

@[simp] theorem treeCheck_controls (s : State) (root : Nat) : controls (treeCheck s root) = controls s := by
  unfold treeCheck
  split <;> simp

@[simp] theorem returnWeight_controls (s : State) (n amt : Nat) : controls (returnWeight s n amt) = controls s := by
  unfold returnWeight
  split <;> simp

@[simp] theorem releaseAll_controls (s : State) : controls (releaseAll s) = controls s := by simp [releaseAll]

@[simp] theorem settleOwed_controls (s : State) (n : Nat) : controls (settleOwed s n) = controls s := by
  unfold settleOwed
  split <;> simp

@[simp] theorem settleReturns_controls (s : State) :
    controls (settleReturns s) = controls s := by simp [settleReturns]

@[simp] theorem closeJob_controls (s : State) (n : Nat) (j : Job) (released : Bool) :
    controls (closeJob s n j released) = controls s := by
  unfold closeJob
  split <;> simp

@[simp] theorem failJob_controls (s : State) (n : Nat) (code : Byte) : controls (failJob s n code) = controls s := by
  unfold failJob
  (repeat' split) <;> simp

@[simp] theorem retireJob_controls (s : State) (n : Nat) : controls (retireJob s n) = controls s := by
  unfold retireJob
  split <;> simp

@[simp] theorem jobSettle_controls (s : State) (n : Nat) : controls (jobSettle s n) = controls s := by
  unfold jobSettle
  split <;> simp

@[simp] theorem fetchRecord_controls (s : State) (n : Nat) : controls (fetchRecord s n) = controls s := by
  unfold fetchRecord
  split
  · rfl
  · rename_i j _
    have h := devRead_controls s j.ctx j.recAddr.toNat 256
    split
    · rfl
    · split <;> simp_all

@[simp] theorem checkJob_controls (s : State) (n : Nat) : controls (checkJob s n) = controls s := by
  unfold checkJob
  split
  · rfl
  · rename_i j _
    have h := readHeader_controls s j.ctx j.record.kernel
    split
    · simp
    · split
      · simp_all
      · (repeat' split) <;> simp_all

@[simp] theorem acquireFor_controls (s : State) (j : Job) : controls (acquireFor s j) = controls s := by
  unfold acquireFor
  split <;> simp

@[simp] theorem execJobAccept_keeps (job : Nat) (s : State) : Keeps (controls s) (execJobAccept job s) := by
  unfold execJobAccept
  split <;> simp

/-! ### The functions of `Machine/Messages.lean` -/

@[simp] theorem msgChecks_keeps {v : Controls} {k : Eff} (h : EffKeeps v k) (s : State) (i : Iss)
    (bar dev : Option Nat) : EffKeeps v (msgChecks s i bar dev k) := by
  unfold msgChecks
  simp only
  split <;> simp [h]

@[simp] theorem bufChecks_keeps {v : Controls} {k : Eff} (h : EffKeeps v k) (s : State) (i : Iss) (w : DWord)
    (bar dev : Option Nat) : EffKeeps v (bufChecks s i w bar dev k) := by simp [bufChecks, h]

@[simp] theorem modSends_controls (s : State) (c : Nat) (f : List SendEntry → List SendEntry) :
    controls (modSends s c f) = controls s := by rfl

@[simp] theorem modRecvs_controls (s : State) (c : Nat) (f : List Recv → List Recv) :
    controls (modRecvs s c f) = controls s := by rfl

@[simp] theorem modOverflow_controls (s : State) (c : Nat) (f : List MsgHeader → List MsgHeader) :
    controls (modOverflow s c f) = controls s := by rfl

@[simp] theorem modMsg_controls (s : State) (id : Nat) (f : MsgFlight → MsgFlight) :
    controls (modMsg s id f) = controls s := by rfl

@[simp] theorem dropMsg_controls (s : State) (id : Nat) : controls (dropMsg s id) = controls s := by rfl

@[simp] theorem addMsg_controls (s : State) (m : MsgFlight) : controls (addMsg s m) = controls s := by rfl

@[simp] theorem sendCompletion_controls (s : State) (core : Nat) (h : MsgHeader) (code : Byte) :
    controls (sendCompletion s core h code) = controls s := by rfl

@[simp] theorem sendHeader_controls (s : State) (core ctx : Nat) (e : SendEntry) :
    controls (sendHeader s core ctx e) = controls s := by simp [sendHeader]

@[simp] theorem execMsend_keeps (p : BitVec 3) (a b : BitVec 6) (r x : BitVec 1) (n : BitVec 6) (s : State) :
    Keeps (controls s) (execMsend p a b r x n s) := by
  unfold execMsend
  refine sharedInstr_keeps (fun i => ?_) _ _ _ _ _ _ _
  simp

@[simp] theorem sendPull_controls (s : State) (core : Nat) (h : MsgHeader) (recv : Nat) :
    controls (sendPull s core h recv) = controls s := by rfl

@[simp] theorem postRecv_controls (s : State) (core : Nat) (r : Recv) :
    controls (postRecv s core r) = controls s := by
  unfold postRecv
  split <;> simp

@[simp] theorem execMrecv_keeps (p : BitVec 3) (a b : BitVec 6) (j x : BitVec 1) (n : BitVec 6) (s : State) :
    Keeps (controls s) (execMrecv p a b j x n s) := by
  unfold execMrecv
  simp only
  refine sharedInstr_keeps (fun i => ?_) _ _ _ _ _ _ _
  refine bufChecks_keeps (chk_keeps (heldBy_keeps ?_ _) _) ..
  simp

@[simp] theorem execMprobe_keeps (p : BitVec 3) (d a : BitVec 6) (s : State) :
    Keeps (controls s) (execMprobe p d a s) := by simp [execMprobe]

@[simp] theorem execMcancel_keeps (p : BitVec 3) (a : BitVec 6) (s : State) :
    Keeps (controls s) (execMcancel p a s) := by
  simp only [execMcancel]
  refine sharedInstr_keeps (fun i => ?_) _ _ _ _ _ _ _
  split <;> simp

@[simp] theorem sendWake_controls (s : State) (i : Iss) (e : SendEntry) (va : Nat) :
    controls (sendWake s i e va) = controls s := by simp [sendWake]

@[simp] theorem execMwake_keeps (p : BitVec 3) (a b : BitVec 6) (r x : BitVec 1) (n : BitVec 6) (s : State) :
    Keeps (controls s) (execMwake p a b r x n s) := by
  refine sharedInstr_keeps (fun i => ?_) ..
  have h := askLeaf_controls s (issCore i) (issBlk i).ctx (opWide i a.toNat).toNat
  simp only
  split
  · simp
  · refine msgChecks_keeps (heldBy_keeps ?_ _) ..
    split
    · cases i <;> simp_all
    · simp
    · split <;> simp_all

@[simp] theorem sendDone_controls (s : State) (core : Nat) (e : SendEntry) :
    controls (sendDone s core e) = controls s := by
  unfold sendDone
  split <;> simp

@[simp] theorem sendFailed_controls (s : State) (core : Nat) (e : SendEntry) (code : Byte) :
    controls (sendFailed s core e code) = controls s := by
  simp only [sendFailed]
  (repeat' split) <;> simp

@[simp] theorem execMwakeAck_keeps (id : Nat) (s : State) : Keeps (controls s) (execMwakeAck id s) := by
  simp only [execMwakeAck]
  (repeat' split) <;> simp

@[simp] theorem execMsgCompletion_keeps (id : Nat) (s : State) : Keeps (controls s) (execMsgCompletion id s) := by
  simp only [execMsgCompletion]
  (repeat' split) <;> simp

@[simp] theorem overflowRecord_controls (s : State) (h : MsgHeader) (core : Nat) :
    controls (overflowRecord s h core) = controls s := by
  unfold overflowRecord
  split <;> simp

@[simp] theorem headerArrives_controls (s : State) (m : MsgFlight) : controls (headerArrives s m) = controls s := by
  simp only [headerArrives]
  (repeat' split) <;> simp

@[simp] theorem execMsgHeaderArrive_keeps (id : Nat) (s : State) : Keeps (controls s) (execMsgHeaderArrive id s) := by
  unfold execMsgHeaderArrive
  (repeat' split) <;> simp

@[simp] theorem execMsgPull_keeps (id : Nat) (s : State) : Keeps (controls s) (execMsgPull id s) := by
  unfold execMsgPull
  (repeat' split) <;> simp

@[simp] theorem landMessage_controls (s : State) (m : MsgFlight) (r : Recv) :
    controls (landMessage s m r) = controls s := by
  simp only [landMessage]
  (repeat' split) <;> simp

@[simp] theorem execMsgDataLand_keeps (id : Nat) (s : State) : Keeps (controls s) (execMsgDataLand id s) := by
  unfold execMsgDataLand
  (repeat' split) <;> simp

@[simp] theorem withdraw_controls (s : State) (core : Nat) :
    controls (withdraw s core).1 = controls s := by simp [withdraw]

@[simp] theorem resend_controls (s : State) (core ctx : Nat) (l : List SendEntry) :
    controls (resend s core ctx l) = controls s := by simp [resend]

/-! ### The functions of `Machine/Frame.lean` -/

@[simp] theorem frameTaken_controls (s : State) : controls (frameTaken s) = controls s := by rfl

/-! ### The functions of `Machine/Blocks.lean` -/

@[simp] theorem zeroCore_controls (s : State) (core : Nat) : controls (zeroCore s core) = controls s := by rfl

@[simp] theorem seatBlock_controls (s : State) (core : Nat) (b : Block) :
    controls (seatBlock s core b) = controls s := by rfl

@[simp] theorem dropOldWaits_controls (s : State) (b : Block) : controls (dropOldWaits s b) = controls s := by rfl

@[simp] theorem restoreCore_controls (s : State) (cl : Cluster) (core : Nat) (k : SavedCore) :
    controls (restoreCore s cl core k) = controls s := by simp [restoreCore]

@[simp] theorem setBlock_controls (s : State) (n core member : Nat) :
    controls (setBlock s n core member) = controls s := by
  unfold setBlock
  (repeat' split) <;> simp

@[simp] theorem preemptCluster_controls (s : State) (n : Nat) : controls (preemptCluster s n) = controls s := by
  unfold preemptCluster
  split <;> simp

@[simp] theorem preemptFor_keeps (s : State) : OptKeeps (controls s) (preemptFor s) := by
  simp only [preemptFor]
  (repeat' split) <;> simp

@[simp] theorem placeAcquire_controls (s : State) (cs : List Nat) :
    controls (placeAcquire s cs) = controls s := by simp [placeAcquire]

@[simp] theorem seatCluster_controls (s : State) (n ctx : Nat) (cs : List Nat) :
    controls (seatCluster s n ctx cs) = controls s := by simp [seatCluster]

@[simp] theorem refusePlacement_controls (s : State) (c : Cand) :
    controls (refusePlacement s c) = controls s := by simp [refusePlacement]

@[simp] theorem placeAt_controls (s : State) (c : Cand) (x y : Nat) : controls (placeAt s c x y) = controls s := by
  unfold placeAt
  (repeat' split) <;> simp

@[simp] theorem postPlacement_controls (s : State) (c : Cand) : controls (postPlacement s c) = controls s := by
  unfold postPlacement
  split <;> simp

@[simp] theorem execDispatch_keeps (s : State) : Keeps (controls s) (execDispatch s) := by
  unfold execDispatch
  split
  · simp
  · split
    · exact preemptFor_keeps s _ ‹_›
    · split <;> simp

@[simp] theorem execPlacementMailboxGo_keeps (corner : BitVec 8) (s : State) :
    Keeps (controls s) (execPlacementMailboxGo corner s) := by
  simp only [execPlacementMailboxGo]
  (repeat' split) <;> simp

@[simp] theorem execCoreZeroingComplete_keeps (core : Nat) (s : State) :
    Keeps (controls s) (execCoreZeroingComplete core s) := by
  unfold execCoreZeroingComplete
  split <;> simp

@[simp] theorem goOnAt_controls (s : State) (core : Nat) : controls (goOnAt s core) = controls s := by
  unfold goOnAt
  split <;> simp

@[simp] theorem execClusterLaunch_keeps (cl : Nat) (s : State) : Keeps (controls s) (execClusterLaunch cl s) := by
  unfold execClusterLaunch
  (repeat' split) <;> simp

@[simp] theorem purgeCore_controls (s : State) (core : Nat) (keepRegs : Bool) :
    controls (purgeCore s core keepRegs) = controls s := by simp [purgeCore]

@[simp] theorem stepGone_controls (s : State) (core : Nat) :
    controls (stepGone s core) = controls s := by simp [stepGone]

@[simp] theorem freeCore_controls (s : State) (core : Nat) :
    controls (freeCore s core) = controls s := by simp [freeCore]

/-- The size of a frame is kept a variable: with it a numeral, the kernel would unfold the write piece by piece. -/
@[simp] theorem writeFrame_controls (s : State) (ctx core slot : Nat) :
    controls (writeFrame s ctx core slot).1 = controls s := by
  obtain ⟨n, hn⟩ : ∃ n, n = frameSize := ⟨_, rfl⟩
  unfold writeFrame
  rw [← hn]
  clear hn
  split
  · rfl
  · have h := devWriteCode_controls s ctx (frameAddr s ctx slot) n
    simp only
    split <;> simp_all

@[simp] theorem writeFrames_controls (s : State) (ctx : Nat) (l : List (Nat × Nat)) :
    controls (writeFrames s ctx l).1 = controls s := by
  induction l generalizing s with
  | nil => rfl
  | cons e r ih =>
    obtain ⟨core, slot⟩ := e
    have h := writeFrame_controls s ctx core slot
    rw [writeFrames]
    generalize writeFrame s ctx core slot = w at h ⊢
    obtain ⟨t, o⟩ := w
    cases o <;> simp_all

@[simp] theorem ctxFaulted_controls (s : State) (ctx : Nat) : controls (ctxFaulted s ctx) = controls s := by
  unfold ctxFaulted
  split
  · refine foldSt_controls (fun t i => ?_) _ _
    split <;> simp
  · rfl

@[simp] theorem saveFailed_controls (s : State) (core : Nat) (b : Block) (code : Byte) :
    controls (saveFailed s core b code) = controls s := by simp [saveFailed]

@[simp] theorem dropWaitFlags_controls (s : State) (core : Nat) :
    controls (dropWaitFlags s core) = controls s := by simp [dropWaitFlags]

@[simp] theorem leaveCore_controls (s : State) (parked : Bool) (core : Nat) (frame : Option Nat) :
    controls (leaveCore s parked core frame).1 = controls s := by
  simp only [leaveCore]
  (repeat' split) <;> simp

@[simp] theorem leaveCores_controls (s : State) (parked : Bool) (l : List (Nat × Option Nat)) :
    controls (leaveCores s parked l).1 = controls s := by
  induction l generalizing s with
  | nil => rfl
  | cons e r ih => simp [leaveCores, ih]

@[simp] theorem execClusterSave_keeps (cl : Nat) (s : State) : Keeps (controls s) (execClusterSave cl s) := by
  unfold execClusterSave
  split
  · simp
  · simp only
    refine event_keeps rfl ?_ _
    split
    · have h := congrArg (controls ·.1) ‹writeFrames _ _ _ = _›
      rw [writeFrames_controls] at h
      split <;> simp [h]
    · have h := congrArg (controls ·.1) ‹writeFrames _ _ _ = _›
      rw [writeFrames_controls] at h
      simp [h]

@[simp] theorem execIdempotentDiscard_keeps (cl : Nat) (s : State) :
    Keeps (controls s) (execIdempotentDiscard cl s) := by
  unfold execIdempotentDiscard
  split <;> simp

@[simp] theorem execBudgetExhausted_keeps (cl : Nat) (s : State) : Keeps (controls s) (execBudgetExhausted cl s) := by
  simp only [execBudgetExhausted]
  (repeat' split) <;> simp

@[simp] theorem profRead_controls (s : State) (ctx off n : Nat) : controls (profRead s ctx off n).1 = controls s := by
  have h := devRead_controls s ctx ((getCtx s ctx).profbase.toNat + off) n
  unfold profRead
  split <;> simp_all

@[simp] theorem profWrite_controls (s : State) (ctx off n v : Nat) :
    controls (profWrite s ctx off n v) = controls s := by simp [profWrite]

@[simp] theorem profDrop_controls (s : State) (ctx : Nat) : controls (profDrop s ctx) = controls s := by
  have h := profRead_controls s ctx 8 4
  unfold profDrop
  split <;> simp_all

@[simp] theorem profAppend_controls (s : State) (core ctx : Nat) (bytes : List Byte) :
    controls (profAppend s core ctx bytes) = controls s := by
  have h := profRead_controls s ctx 0 8
  unfold profAppend
  simp only
  split
  · rfl
  · split
    · simp_all
    · rename_i t next ht
      have h' := devStoreRel_controls t [coreDie core] ctx ((getCtx s ctx).profbase.toNat + 64 + next) bytes
      split
      · simp_all
      · split <;> simp_all

@[simp] theorem releaseCluster_controls (s : State) (n : Nat) (cl : Cluster) :
    controls (releaseCluster s n cl) = controls s := by simp [releaseCluster]

@[simp] theorem execBlockRetire_keeps (core : Nat) (s : State) : Keeps (controls s) (execBlockRetire core s) := by
  simp only [execBlockRetire]
  (repeat' split) <;> simp

/-! ### The functions of `Machine/Queues.lean` -/

@[simp] theorem execQueueSubmit_keeps (q : BitVec 6) (addr : BitVec 64) (s : State) :
    Keeps (controls s) (execQueueSubmit q addr s) := by rfl

@[simp] theorem execQueuePause_keeps (q : BitVec 6) (s : State) : Keeps (controls s) (execQueuePause q s) := by rfl

@[simp] theorem execQueueUnpause_keeps (q : BitVec 6) (s : State) :
    Keeps (controls s) (execQueueUnpause q s) := by rfl

@[simp] theorem execQueueFlush_keeps (q : BitVec 6) (s : State) :
    Keeps (controls s) (execQueueFlush q s) := by simp [execQueueFlush]

@[simp] theorem execAcceptanceDraw_keeps (s : State) : Keeps (controls s) (execAcceptanceDraw s) := by
  simp only [execAcceptanceDraw]
  (repeat' split) <;> simp

@[simp] theorem execJenq_keeps (p : BitVec 3) (a b q : BitVec 6) (s : State) :
    Keeps (controls s) (execJenq p a b q s) := by simp [execJenq]

@[simp] theorem execJspawn_keeps (p : BitVec 3) (a b : BitVec 6) (s : State) :
    Keeps (controls s) (execJspawn p a b s) := by simp [execJspawn]

@[simp] theorem writeSpawn_controls (s : State) (t : Thread) (d : SpawnDest) (num : Option Word) :
    controls (writeSpawn s t d num) = controls s := by
  simp only [writeSpawn]
  (repeat' split) <;> simp

@[simp] theorem resolveSpawn_controls (s : State) (key : Nat) (j : Job) (t : Thread) (d : SpawnDest) :
    controls (resolveSpawn s key j t d) = controls s := by
  simp only [resolveSpawn]
  (repeat' split) <;> simp

@[simp] theorem execJspawnResolve_keeps (job : Nat) (s : State) : Keeps (controls s) (execJspawnResolve job s) := by
  unfold execJspawnResolve
  (repeat' split) <;> simp

@[simp] theorem execJdone_keeps (g : BitVec 3) (a : BitVec 6) (s : State) :
    Keeps (controls s) (execJdone g a s) := by simp [execJdone]

@[simp] theorem execJyield_keeps (g : BitVec 3) (s : State) : Keeps (controls s) (execJyield g s) := by
  unfold execJyield
  refine sharedInstr_keeps (fun i => ?_) _ _ _ _ _ _ _
  split <;> simp

@[simp] theorem execJself_keeps (g : BitVec 3) (d : BitVec 6) (h : BitVec 1) (k : BitVec 4) (s : State) :
    Keeps (controls s) (execJself g d h k s) := by
  unfold execJself
  refine sharedInstr_keeps (fun i => ?_) _ _ _ _ _ _ _
  split <;> simp

@[simp] theorem leaveSet_controls (s : State) (i : Iss) : controls (leaveSet s i) = controls s := by
  unfold leaveSet
  split <;> simp

@[simp] theorem execWaitw_keeps (g : BitVec 3) (a b : BitVec 6) (s : State) :
    Keeps (controls s) (execWaitw g a b s) := by
  simp only [execWaitw]
  refine sharedInstr_keeps (fun i => ?_) _ _ _ _ _ _ _
  (repeat' split) <;> simp

@[simp] theorem compareWord_controls (s : State) (r : GlobalReq) (e : DWord) :
    controls (compareWord s r e) = controls s := by
  simp only [compareWord]
  (repeat' split) <;> simp

@[simp] theorem execWaitwCompare_keeps (id : Nat) (s : State) : Keeps (controls s) (execWaitwCompare id s) := by
  unfold execWaitwCompare
  (repeat' split) <;> simp

@[simp] theorem performWake_controls (s : State) (r : GlobalReq) : controls (performWake s r) = controls s := by
  unfold performWake
  split <;> simp

@[simp] theorem execWakeWritePerform_keeps (id : Nat) (s : State) :
    Keeps (controls s) (execWakeWritePerform id s) := by
  unfold execWakeWritePerform
  (repeat' split) <;> simp

@[simp] theorem endUnrouted_controls (s : State) : controls (endUnrouted s) = controls s := by rfl

/-! ### The functions of `Machine/Services.lean` -/

@[simp] theorem reissue_controls (s : State) (core g : Nat) (b : Block) (x : Group) (r : StoreFaultRec) :
    controls (reissue s core g b x r) = controls s := by simp [reissue]

@[simp] theorem replayThread_controls (s : State) (t : Thread) (h : Word) (again : Bool) :
    controls (replayThread s t h again) = controls s := by
  unfold replayThread
  (repeat' split) <;> simp

@[simp] theorem forgetThread_controls (s : State) (t : Thread) :
    controls (forgetThread s t) = controls s := by simp [forgetThread]

@[simp] theorem killThread_controls (s : State) (t : Thread) : controls (killThread s t) = controls s := by
  unfold killThread
  split <;> simp

@[simp] theorem killFrom_controls (s : State) (t : Thread) : controls (killFrom s t) = controls s := by
  unfold killFrom
  split <;> simp

@[simp] theorem sendService_keeps {v : Controls} {s : State} (hs : controls s = v) (i : Iss) (pd : BitVec 3)
    (h : Word) (kind : Nat) (sel : BitVec 9) (dst : Word) : EffKeeps v (sendService s i pd h kind sel dst) := by
  simp [sendService, hs]

@[simp] theorem execGstate_keeps (g : BitVec 3) (a b : BitVec 6) (k : BitVec 2) (i : BitVec 7) (s : State) :
    Keeps (controls s) (execGstate g a b k i s) := by simp [execGstate]

@[simp] theorem actOn_keeps (s : State) (lit : Bool) (p : BitVec 3) (a : BitVec 6) (kind : Nat) (sel : BitVec 9) :
    Keeps (controls s) (actOn s lit p a kind sel) := by simp [actOn]

@[simp] theorem answerService_controls (s : State) (id : Nat) (ok : Bool) (b : List Byte) :
    controls (answerService s id ok b) = controls s := by rfl

@[simp] theorem serviceEffect_controls (s : State) (r : Service) : controls (serviceEffect s r) = controls s := by
  unfold serviceEffect
  (repeat' split) <;> simp

@[simp] theorem execServiceRequestArrive_keeps (id : Nat) (s : State) :
    Keeps (controls s) (execServiceRequestArrive id s) := by
  unfold execServiceRequestArrive
  split <;> simp

@[simp] theorem writeReply_controls (s : State) (r : Service) (b : List Byte) :
    controls (writeReply s r b) = controls s := by
  unfold writeReply
  split <;> simp

@[simp] theorem execServiceReply_keeps (id : Nat) (s : State) : Keeps (controls s) (execServiceReply id s) := by
  unfold execServiceReply
  (repeat' split) <;> simp

/-! ### The functions of `Machine/Contexts.lean` -/

@[simp] theorem setStatus_controls (s : State) (v : BitVec 2) : controls (setStatus s v) = controls s := by rfl

@[simp] theorem ctxCommand_keeps {f : State → Option State} (h : ∀ t, OptKeeps (controls t) (f t)) (s : State)
    (cmd : Nat) (ctx : BitVec 12) (w1 : Option DWord) : Keeps (controls s) (ctxCommand s cmd ctx w1 f) := by
  refine event_keeps rfl (getD_controls ?_ ?_) _
  · exact h _
  · simp

@[simp] theorem openCtx_keeps (s : State) (n pa : Nat) : OptKeeps (controls s) (openCtx s n pa) := by
  simp only [openCtx]
  (repeat' split) <;> simp

@[simp] theorem execCtxOpen_keeps (ctx : BitVec 12) (desc : BitVec 64) (s : State) :
    Keeps (controls s) (execCtxOpen ctx desc s) := by simp [execCtxOpen]

@[simp] theorem updateCtx_keeps (s : State) (n pa : Nat) : OptKeeps (controls s) (updateCtx s n pa) := by
  simp only [updateCtx]
  (repeat' split) <;> simp

@[simp] theorem execCtxUpdate_keeps (ctx : BitVec 12) (desc : BitVec 64) (s : State) :
    Keeps (controls s) (execCtxUpdate ctx desc s) := by simp [execCtxUpdate]

@[simp] theorem suspendCtx_keeps (s : State) (n : Nat) : OptKeeps (controls s) (suspendCtx s n) := by
  unfold suspendCtx
  split <;> simp

@[simp] theorem execCtxSuspend_keeps (ctx : BitVec 12) (s : State) :
    Keeps (controls s) (execCtxSuspend ctx s) := by simp [execCtxSuspend]

@[simp] theorem execSuspendComplete_keeps (ctx : BitVec 12) (s : State) :
    Keeps (controls s) (execSuspendComplete ctx s) := by simp [execSuspendComplete]

@[simp] theorem continueBlocks_controls (s : State) (n : Nat) : controls (continueBlocks s n) = controls s := by
  unfold continueBlocks
  refine foldSt_controls (fun s a => ?_) _ _
  split <;> simp

@[simp] theorem resumeCtx_keeps (s : State) (n : Nat) : OptKeeps (controls s) (resumeCtx s n) := by
  unfold resumeCtx
  split <;> simp

@[simp] theorem execCtxResume_keeps (ctx : BitVec 12) (s : State) :
    Keeps (controls s) (execCtxResume ctx s) := by simp [execCtxResume]

@[simp] theorem evictCore_controls (s : State) (core : Nat) :
    controls (evictCore s core) = controls s := by simp [evictCore]

@[simp] theorem closeCtx_keeps (s : State) (n : Nat) : OptKeeps (controls s) (closeCtx s n) := by
  unfold closeCtx
  split
  · simp
  · simp only [optKeeps_some, setStatus_controls, controls_mk, controls_eta]
    rw [foldSt_controls (fun s k => ?_)]
    · simp
    · split <;> simp

@[simp] theorem execCtxClose_keeps (ctx : BitVec 12) (s : State) :
    Keeps (controls s) (execCtxClose ctx s) := by simp [execCtxClose]

@[simp] theorem drainCtx_controls (s : State) (n : Nat) : controls (drainCtx s n) = controls s := by simp [drainCtx]

@[simp] theorem zeroLeft_controls (s : State) (n : Nat) : controls (zeroLeft s n) = controls s := by simp [zeroLeft]

@[simp] theorem dropMigs_controls (s : State) (n : Nat) : controls (dropMigs s n) = controls s := by
  unfold dropMigs
  refine foldSt_controls (fun s a => ?_) _ _
  split <;> simp

@[simp] theorem forgetCtx_controls (s : State) (n : Nat) :
    controls (forgetCtx s n) = controls s := by simp [forgetCtx]

@[simp] theorem freeCtx_controls (s : State) (n : Nat) : controls (freeCtx s n) = controls s := by
  unfold freeCtx
  simp only [modCtx_controls, forgetCtx_controls, zeroLeft_controls, drainCtx_controls, controls_mk, controls_eta]
  refine foldSt_controls (fun s e => ?_) _ _
  split <;> simp

@[simp] theorem execZeroingComplete_keeps (ctx : BitVec 12) (s : State) :
    Keeps (controls s) (execZeroingComplete ctx s) := by simp [execZeroingComplete]

@[simp] theorem mailRecord_controls (s : State) (r : FaultRec) :
    controls (mailRecord s r) = controls s := by simp [mailRecord]

@[simp] theorem queueEnds_controls (s : State) (ctx : Nat) : controls (queueEnds s ctx).1 = controls s := by
  have h := devRead_controls s ctx (getCtx s ctx).fqbase.toNat 8
  unfold queueEnds
  simp only
  split <;> simp_all

@[simp] theorem writeEntry_controls (s : State) (ctx : Nat) (prod : Word) (r : FaultRec) :
    controls (writeEntry s ctx prod r).1 = controls s := by
  have h := devWrite_controls s ctx ((getCtx s ctx).fqbase.toNat + 64 + 64 * (prod.toNat % 2 ^ (getCtx s ctx).fqlog)) (recordBytes r)
  unfold writeEntry
  simp only
  split <;> simp_all

@[simp] theorem keepSeq_controls (s : State) (r : FaultRec) (seq : Word) :
    controls (keepSeq s r seq) = controls s := by simp [keepSeq]

@[simp] theorem faultMsix_controls (s : State) (ctx : Nat) : controls (faultMsix s ctx) = controls s := by rfl

@[simp] theorem deliverRecord_controls (s : State) (ctx : Nat) (r : FaultRec) :
    controls (deliverRecord s ctx r) = controls s := by
  have h := queueEnds_controls s ctx
  unfold deliverRecord
  simp only
  split
  · simp_all
  · rename_i t prod cons ht
    have h' := writeEntry_controls t ctx prod { r with seq := prod }
    split
    · simp_all
    · split <;> simp_all

@[simp] theorem execFaultRecordAppend_keeps (ctx : BitVec 12) (s : State) :
    Keeps (controls s) (execFaultRecordAppend ctx s) := by
  unfold execFaultRecordAppend
  split <;> simp

@[simp] theorem execFaultMailboxFree_keeps (s : State) : Keeps (controls s) (execFaultMailboxFree s) := by rfl

/-! ### The functions of `Machine/System.lean` -/

@[simp] theorem writeSplit_controls (s : State) (die : Nat) (v : DWord) :
    controls (writeSplit s die v) = controls s := by rfl

@[simp] theorem execSmfsy_keeps (d : BitVec 6) (n : BitVec 18) (s : State) :
    Keeps (controls s) (execSmfsy d n s) := by simp [execSmfsy]

@[simp] theorem execVmfsy_keeps (g : BitVec 3) (d : BitVec 7) (h c : BitVec 1) (n : BitVec 12) (s : State) :
    Keeps (controls s) (execVmfsy g d h c n s) := by simp [execVmfsy]

@[simp] theorem execL2splitWrite_keeps (die : BitVec 2) (v : BitVec 64) (s : State) :
    Keeps (controls s) (execL2splitWrite die v s) := by rfl

@[simp] theorem execL2splitDone_keeps (die : BitVec 2) (s : State) :
    Keeps (controls s) (execL2splitDone die s) := by simp [execL2splitDone]

/-! ### The functions of `Machine/Groups.lean` -/

@[simp] theorem joinSplits_controls (s : State) (core g p : Nat) (first last : Word) :
    controls (joinSplits s core g p first last) = controls s := by rfl

@[simp] theorem execWaitj_keeps (p : BitVec 3) (t : BitVec 14) (s : State) :
    Keeps (controls s) (execWaitj p t s) := by simp [execWaitj]

@[simp] theorem execWaitjTimeout_keeps (core grp split : Nat) (s : State) :
    Keeps (controls s) (execWaitjTimeout core grp split s) := by
  simp only [execWaitjTimeout]
  (repeat' split) <;> simp

@[simp] theorem execDqpop_keeps (g : BitVec 3) (d : BitVec 7) (s : State) : Keeps (controls s) (execDqpop g d s) := by
  refine grpInstr_keeps (fun c => ?_) _
  simp only
  split
  · simp
  · exact chk_keeps (wholeGuard_keeps rfl (chk_keeps (by simp) _) _ _) _

@[simp] theorem endPop_controls (s : State) (w : Waiting) (g vd : Nat) (flag : Option Nat) :
    controls (endPop s w g vd flag) = controls s := by
  unfold endPop
  split <;> simp

@[simp] theorem endLoopState_controls (s : State) (w : Waiting) (e : PoolInst) :
    controls (endLoopState s w e) = controls s := by
  unfold endLoopState
  (repeat' split) <;> simp

@[simp] theorem endAfence_controls (s : State) (w : Waiting) (id : Nat) :
    controls (endAfence s w id) = controls s := by
  unfold endAfence
  split <;> simp

@[simp] theorem endProbe_controls (s : State) (w : Waiting) (va : Nat) (p : BitVec 3) (rb : Nat) :
    controls (endProbe s w va p rb) = controls s := by
  have h := probeAsk_controls s w.core (((getBlk s w.core).map Block.ctx).getD 0) va
  unfold endProbe
  split <;> simp_all

@[simp] theorem finishWait_controls (s : State) (w : Waiting) : controls (finishWait s w) = controls s := by
  unfold finishWait
  (repeat' split) <;> simp

@[simp] theorem execActiveSetRefill_keeps (core : Nat) (part : BitVec 2) (s : State) :
    Keeps (controls s) (execActiveSetRefill core part s) := by
  simp only [execActiveSetRefill]
  (repeat' split) <;> simp

@[simp] theorem execActiveSetLeave_keeps (core grp : Nat) (s : State) :
    Keeps (controls s) (execActiveSetLeave core grp s) := by
  unfold execActiveSetLeave
  split <;> simp

/-! ### The functions of `Machine/Links.lean` -/

@[simp] theorem setLink_controls (s : State) (l : Nat) (st : LinkState) :
    controls (setLink s l st) = controls s := by simp [setLink]

@[simp] theorem beginTraining_controls (s : State) (l : Nat) :
    controls (beginTraining s l) = controls s := by simp [beginTraining]

@[simp] theorem beginRetraining_controls (s : State) (l : Nat) :
    controls (beginRetraining s l) = controls s := by simp [beginRetraining]

@[simp] theorem quiesceLink_controls (s : State) (l : Nat) :
    controls (quiesceLink s l) = controls s := by simp [quiesceLink]

@[simp] theorem execLinkEnable_keeps (link : BitVec 5) (s : State) : Keeps (controls s) (execLinkEnable link s) := by
  simp only [execLinkEnable]
  (repeat' split) <;> simp

@[simp] theorem execLinkQuiesce_keeps (link : BitVec 5) (s : State) :
    Keeps (controls s) (execLinkQuiesce link s) := by simp [execLinkQuiesce]

@[simp] theorem execLinkDisable_keeps (link : BitVec 5) (s : State) :
    Keeps (controls s) (execLinkDisable link s) := by
  simp only [execLinkDisable]
  (repeat' split) <;> simp

@[simp] theorem execTrainingSuccess_keeps (link : BitVec 5) (s : State) :
    Keeps (controls s) (execTrainingSuccess link s) := by simp [execTrainingSuccess]

@[simp] theorem cutPool_controls (s : State) (r : PoolReq) : controls (cutPool s r) = controls s := by
  simp only [cutPool]
  (repeat' split) <;> simp

@[simp] theorem cutWait_controls (s : State) (t : Thread) (split : Nat) (wait : Wait) :
    controls (cutWait s t split wait) = controls s := by simp [cutWait]

@[simp] theorem cutRequests_controls (s : State) : controls (cutRequests s) = controls s := by simp [cutRequests]

@[simp] theorem repost_controls (s : State) (core recv : Nat) : controls (repost s core recv) = controls s := by rfl

@[simp] theorem partWritten_controls (s : State) (m : MsgFlight) : controls (partWritten s m) = controls s := by
  unfold partWritten
  split <;> simp

@[simp] theorem cutMsg_controls (s : State) (m : MsgFlight) : controls (cutMsg s m) = controls s := by
  unfold cutMsg
  split <;> simp

@[simp] theorem cutMsgs_controls (s : State) (l : Nat) : controls (cutMsgs s l) = controls s := by simp [cutMsgs]

@[simp] theorem failLink_controls (s : State) (l : Nat) : controls (failLink s l) = controls s := by simp [failLink]

@[simp] theorem execTrainingFailure_keeps (link : BitVec 5) (s : State) :
    Keeps (controls s) (execTrainingFailure link s) := by simp [execTrainingFailure]

@[simp] theorem execCrcFailure_keeps (link : BitVec 5) (s : State) :
    Keeps (controls s) (execCrcFailure link s) := by simp [execCrcFailure]

@[simp] theorem execReplayLimit_keeps (link : BitVec 5) (s : State) :
    Keeps (controls s) (execReplayLimit link s) := by simp [execReplayLimit]

@[simp] theorem execLinkQuiesced_keeps (link : BitVec 5) (s : State) :
    Keeps (controls s) (execLinkQuiesced link s) := by simp [execLinkQuiesced]

@[simp] theorem execTimeExchange_keeps (link : BitVec 5) (t1 t2 t3 t4 : BitVec 64) (s : State) :
    Keeps (controls s) (execTimeExchange link t1 t2 t3 t4 s) := by
  simp only [execTimeExchange]
  (repeat' split) <;> simp

@[simp] theorem execDevnumWrite_keeps (v : BitVec 64) (s : State) : Keeps (controls s) (execDevnumWrite v s) := by rfl

@[simp] theorem peerAtomic_controls (s : State) (op : BitVec 4) (a : Nat) (data : List Byte) :
    controls (peerAtomic s op a data) = controls s := by simp [peerAtomic]

@[simp] theorem peerWake_controls (s : State) (a : Nat) (data : List Byte) :
    controls (peerWake s a data) = controls s := by simp [peerWake]

@[simp] theorem peerHeader_controls (s : State) (d : List Byte) : controls (peerHeader s d) = controls s := by rfl

@[simp] theorem execPeerRequest_keeps (link : BitVec 5) (kind : BitVec 2) (op : BitVec 4) (addr : BitVec 52)
    (data : List (BitVec 8)) (s : State) : Keeps (controls s) (execPeerRequest link kind op addr data s) := by
  unfold execPeerRequest
  split <;> simp

@[simp] theorem evacuate_controls (s : State) (d : Nat) : controls (evacuate s d) = controls s := by simp [evacuate]

@[simp] theorem loseLine_controls (s : State) (x k : Nat) :
    controls (loseLine s x k) = controls s := by simp [loseLine]

@[simp] theorem drainOrLose_controls (s : State) (x k : Nat) :
    controls (drainOrLose s x k) = controls s := by simp [drainOrLose]

@[simp] theorem drainForReset_controls (s : State) (d : Nat) :
    controls (drainForReset s d) = controls s := by simp [drainForReset]

@[simp] theorem writeBackDie_controls (s : State) (d : Nat) :
    controls (writeBackDie s d) = controls s := by simp [writeBackDie]

@[simp] theorem resetDie_controls (s : State) (d : Nat) : controls (resetDie s d) = controls s := by simp [resetDie]

@[simp] theorem zeroDie_controls (s : State) (d : Nat) : controls (zeroDie s d) = controls s := by simp [zeroDie]

@[simp] theorem resetStep_controls (s : State) (d x2 : Nat) : controls (resetStep s d x2) = controls s := by
  unfold resetStep
  split <;> simp

@[simp] theorem resetStepEnd_controls (s : State) (d x2 : Nat) : controls (resetStepEnd s d x2) = controls s := by
  unfold resetStepEnd
  split <;> simp

@[simp] theorem resetAdvance_controls (s : State) : controls (resetAdvance s) = controls s := by simp [resetAdvance]

@[simp] theorem resetGoes_controls (s : State) : controls (resetGoes s) = controls s := by simp [resetGoes]

@[simp] theorem startReset_controls (s : State) (d : BitVec 2) :
    controls (startReset s d) = controls s := by simp [startReset]

@[simp] theorem execDieResetStart_keeps (die : BitVec 2) (s : State) :
    Keeps (controls s) (execDieResetStart die s) := by simp [execDieResetStart]

@[simp] theorem execDieResetContinue_keeps (s : State) :
    Keeps (controls s) (execDieResetContinue s) := by simp [execDieResetContinue]

/-! ### The functions of `Machine/Stops.lean` -/

@[simp] theorem execTrap_keeps (g : BitVec 3) (a : BitVec 6) (c : BitVec 9) (s : State) :
    Keeps (controls s) (execTrap g a c s) := by simp [execTrap]

@[simp] theorem breakpoint_controls (s : State) (i : Iss) (v : DWord) (code : Word) :
    controls (breakpoint s i v code) = controls s := by simp [breakpoint]

@[simp] theorem execBkpt_keeps (g : BitVec 3) (a : BitVec 6) (c : BitVec 9) (s : State) :
    Keeps (controls s) (execBkpt g a c s) := by simp [execBkpt]

@[simp] theorem dbgStatus_controls (s : State) (v : BitVec 2) : controls (dbgStatus s v) = controls s := by rfl

@[simp] theorem dbgCommand_keeps {f : State → Option State} (h : ∀ t, OptKeeps (controls t) (f t)) (s : State)
    (word : DWord) (arg : Option DWord) : Keeps (controls s) (dbgCommand s word arg f) := by
  refine event_keeps rfl (getD_controls ?_ ?_) _
  · exact h _
  · simp

@[simp] theorem execDbgStop_keeps (core : BitVec 8) (s : State) : Keeps (controls s) (execDbgStop core s) :=
  dbgCommand_keeps (fun t => by split <;> simp) ..

@[simp] theorem releaseStop_controls (s : State) (n : Nat) (cl : Cluster) :
    controls (releaseStop s n cl) = controls s := by simp [releaseStop]

@[simp] theorem execDbgRelease_keeps (core : BitVec 8) (s : State) : Keeps (controls s) (execDbgRelease core s) := by
  refine dbgCommand_keeps (fun t => ?_) ..
  split
  · split <;> simp
  · simp

@[simp] theorem beginStep_controls (s : State) (core : Nat) (who : Who) :
    controls (beginStep s core who) = controls s := by
  unfold beginStep
  split <;> simp

@[simp] theorem execDbgStep_keeps (core : BitVec 8) (sel : BitVec 6) (fe : Bool) (s : State) :
    Keeps (controls s) (execDbgStep core sel fe s) := by
  simp only [execDbgStep]
  refine dbgCommand_keeps (fun t => ?_) ..
  split
  · simp
  · (repeat' split) <;> simp

@[simp] theorem endStep_controls (s : State) (core : Nat) (b : Block) (st : Stepping) (issued : Bool) :
    controls (endStep s core b st issued) = controls s := by simp [endStep]

@[simp] theorem stepSettle_controls (s : State) (core : Nat) : controls (stepSettle s core) = controls s := by
  unfold stepSettle
  (repeat' split) <;> simp

@[simp] theorem execStepTimeout_keeps (s : State) : Keeps (controls s) (execStepTimeout s) := by
  simp only [execStepTimeout]
  (repeat' split) <;> simp

@[simp] theorem execStopArrive_keeps (id : Nat) (s : State) : Keeps (controls s) (execStopArrive id s) := by
  unfold execStopArrive
  split <;> simp

@[simp] theorem writeDump_controls (s : State) (core : Nat) (b : Block) (dest : Bool) (arg : DWord) :
    controls (writeDump s core b dest arg) = controls s := by
  unfold writeDump
  simp only
  split
  · exact frameTaken_controls s
  · split <;> simp

@[simp] theorem dumpSettle_controls (s : State) : controls (dumpSettle s) = controls s := by
  unfold dumpSettle
  (repeat' split) <;> simp

@[simp] theorem execDbgDump_keeps (core : BitVec 8) (dest : Bool) (arg : BitVec 64) (s : State) :
    Keeps (controls s) (execDbgDump core dest arg s) :=
  dbgCommand_keeps (fun t => by split <;> simp) ..

@[simp] theorem execDbgWrite_keeps (core : BitVec 8) (sel : BitVec 6) (arg : BitVec 64) (s : State) :
    Keeps (controls s) (execDbgWrite core sel arg s) :=
  dbgCommand_keeps (fun t => by split <;> simp) ..

@[simp] theorem execTraceSample_keeps (core : Nat) (s : State) : Keeps (controls s) (execTraceSample core s) := by
  unfold execTraceSample
  split <;> simp

/-! ### The functions of `Machine/Device.lean` -/

@[simp] theorem execMillpondUpdate_keeps (measured : Nat) (s : State) :
    Keeps (controls s) (execMillpondUpdate measured s) := by simp [execMillpondUpdate]

@[simp] theorem execCurrentLimit_keeps (die : BitVec 2) (s : State) :
    Keeps (controls s) (execCurrentLimit die s) := by rfl

@[simp] theorem execCurrentLimitEnd_keeps (die : BitVec 2) (s : State) :
    Keeps (controls s) (execCurrentLimitEnd die s) := by simp [execCurrentLimitEnd]

@[simp] theorem execCorrectedError_keeps (unit : BitVec 8) (die : BitVec 2) (idx : BitVec 16) (s : State) :
    Keeps (controls s) (execCorrectedError unit die idx s) := by rfl

@[simp] theorem loseBank_controls (s : State) (core bank : Nat) :
    controls (loseBank s core bank) = controls s := by simp [loseBank]

@[simp] theorem loseCore_controls (s : State) (core : Nat) :
    controls (loseCore s core) = controls s := by simp [loseCore]

@[simp] theorem loseWay_controls (s : State) (d slice way : Nat) :
    controls (loseWay s d slice way) = controls s := by simp [loseWay]

@[simp] theorem halveRegistry_controls (s : State) (d slice : Nat) :
    controls (halveRegistry s d slice) = controls s := by simp [halveRegistry]

@[simp] theorem loseLane_controls (s : State) (l : Nat) : controls (loseLane s l) = controls s := by simp [loseLane]

@[simp] theorem enterRetired_controls (s : State) (ctx va : Nat) (l : Leaf) :
    controls (enterRetired s ctx va l) = controls s := by simp [enterRetired]

@[simp] theorem retirePage_controls (s : State) (u : DWord) (ctx va : Nat) (l : Leaf) :
    controls (retirePage s u ctx va l) = controls s := by
  simp only [retirePage]
  (repeat' split) <;> simp

@[simp] theorem postPage_controls (s : State) (ctx va : Nat) (u : DWord) :
    controls (postPage s ctx va u) = controls s := by rfl

@[simp] theorem movePost_controls (s : State) (e : Nat × Nat × DWord) : controls (movePost s e) = controls s := by
  unfold movePost
  (repeat' split) <;> simp

@[simp] theorem pagesSettle_controls (s : State) : controls (pagesSettle s) = controls s := by simp [pagesSettle]

@[simp] theorem movePages_controls (s : State) (unit : Byte) (die : BitVec 2) (idx : BitVec 16) :
    controls (movePages s unit die idx) = controls s := by simp [movePages]

@[simp] theorem applyLasting_controls (s : State) (unit : Byte) (die : BitVec 2) (idx : BitVec 16) :
    controls (applyLasting s unit die idx) = controls s := by
  simp only [applyLasting]
  (repeat' split) <;> simp

@[simp] theorem settleTest_controls (s : State) (t : SelfTest) (lasting : Bool) :
    controls (settleTest s t lasting) = controls s := by simp [settleTest]

@[simp] theorem postVerdict_controls (s : State) (t : SelfTest) (v : BitVec 2) :
    controls (postVerdict s t v) = controls s := by rfl

@[simp] theorem execSelftestVerdict_keeps (unit : BitVec 8) (die : BitVec 2) (idx : BitVec 16) (lasting : Bool)
    (s : State) : Keeps (controls s) (execSelftestVerdict unit die idx lasting s) := by
  unfold execSelftestVerdict
  split <;> simp

@[simp] theorem execSelftestAccept_keeps (s : State) : Keeps (controls s) (execSelftestAccept s) := by
  unfold execSelftestAccept
  split <;> simp

@[simp] theorem enterRecovery_controls (s : State) : controls (enterRecovery s) = controls s := by rfl

@[simp] theorem sideBandReport_controls (s : State) (ras : Bool) :
    controls (sideBandReport s ras) = controls s := by rfl

/-! ### The functions of `Machine/Bus.lean` -/

@[simp] theorem writeFabric_controls (s : State) (off : Nat) (v : DWord) :
    controls (writeFabric s off v) = controls s := by rfl

@[simp] theorem writeRoutes_controls (s : State) (off : Nat) (v : DWord) :
    controls (writeRoutes s off v) = controls s := by rfl

@[simp] theorem stateOf_controls {s : State} {o : Host.Outcome State Fault Refusal} (h : Keeps (controls s) o) :
    controls (stateOf s o) = controls s := by
  cases o with
  | next t => exact h
  | fault r => rfl
  | refused r => rfl

@[simp] theorem writeQueue_controls (s : State) (q : BitVec 6) (i : Nat) (v : DWord) :
    controls (writeQueue s q i v) = controls s := by
  have hp : controls (stateOf s (if v.getLsbD 0 then execQueuePause q s else execQueueUnpause q s)) = controls s :=
    stateOf_controls (by simp)
  unfold writeQueue
  split
  · simp
  · simp only
    split
    · rw [stateOf_controls (execQueueFlush_keeps ..), hp]
    · exact hp
  · rfl

/-! ### The functions of `Machine/Issue.lean` -/

@[simp] theorem putLine_controls (s : State) (core ctx va : Nat) (l : Line) :
    controls (putLine s core ctx va l) = controls s := by rfl

@[simp] theorem codeLine_controls (s : State) (core : Nat) (b : Block) (va : Nat) :
    controls (codeLine s core b va).1 = controls s := by
  have h := askLeaf_controls s core b.ctx va
  unfold codeLine
  split
  · simp_all
  · simp_all
  · split
    · simp_all
    · simp only
      split
      · simp_all
      · split <;> simp_all

@[simp] theorem fetchEnds_controls {s : State} {e : Eff} (h : EffKeeps (controls s) e) :
    controls (fetchEnds s e) = controls s := by
  unfold fetchEnds
  (repeat' split) <;> simp [h]

@[simp] theorem execInstructionFetchFill_keeps (s : State) : Keeps (controls s) (execInstructionFetchFill s) := by
  unfold execInstructionFetchFill
  split
  · simp
  · rename_i b pc _
    have h := codeLine_controls s s.cur.core b (codeVa b pc)
    split
    · simp
    · simp only
      split <;> simp_all

@[simp] theorem noteStep_controls (s : State) (core : Nat) (who : Who) (pc : Word) (i : Iss) (ins : Instr) :
    controls (noteStep s core who pc i ins) = controls s := by rfl

@[simp] theorem issueWord_keeps {v : Controls} {s : State} (h : controls s = v) (i : Iss) (pc : Word) :
    PickKeeps v (issueWord s i pc) := by
  unfold issueWord
  simp only
  split
  · simp [h]
  · split
    · simp [h]
    · split <;> simp [h]

@[simp] theorem pickFe_keeps {v : Controls} {s : State} (h : controls s = v) (core : Nat) :
    PickKeeps v (pickFe s core) := by
  unfold pickFe
  split
  · simp [h]
  · simp only
    split
    · simp [h]
    · split
      · simp [h]
      · split <;> simp [h]

@[simp] theorem wakeGroup_controls (s : State) (core g k : Nat) (r : Group) :
    controls (wakeGroup s core g k r) = controls s := by
  unfold wakeGroup
  split <;> simp

@[simp] theorem issueSplit_keeps {v : Controls} {s : State} (h : controls s = v) (b : Block) (c : GC) :
    PickKeeps v (issueSplit s b c) := by
  unfold issueSplit
  split
  · simp [h]
  · split <;> simp [h]

@[simp] theorem pickGroup_keeps {v : Controls} {s : State} (h : controls s = v) (core g k : Nat) :
    PickKeeps v (pickGroup s core g k) := by
  unfold pickGroup
  split
  · simp [h]
  · split
    · simp [h]
    · simp only
      (repeat' split) <;> simp [h]

theorem pick_keeps (s : State) (a : Agent) : PickKeeps (controls s) (pick s a) := by
  unfold pick
  simp only
  split
  · exact pickFe_keeps rfl ..
  · exact pickGroup_keeps rfl ..

@[simp] theorem afterIssue_controls (before s : State) (a : Agent) :
    controls (afterIssue before s a) = controls s := by
  unfold afterIssue
  (repeat' split) <;> simp

@[simp] theorem stopSettle_controls (s : State) (core : Nat) : controls (stopSettle s core) = controls s := by
  unfold stopSettle
  split <;> simp

@[simp] theorem ringSettle_controls (s : State) : controls (ringSettle s) = controls s := by
  simp only [ringSettle]
  (repeat' split) <;> simp

@[simp] theorem evictLine_controls (s : State) (d : Nat) (visitor : Bool) (k : Nat) :
    controls (evictLine s d visitor k) = controls s := by simp [evictLine]

@[simp] theorem upsetWord_controls (s : State) (loc : Nat) : controls (upsetWord s loc) = controls s := by rfl

@[simp] theorem loseWord_controls (s : State) (owner : BitVec 3) (k i : Nat) :
    controls (loseWord s owner k i) = controls s := by simp [loseWord]

@[simp] theorem upsetCopy_controls (s : State) (d k i : Nat) : controls (upsetCopy s d k i) = controls s := by
  unfold upsetCopy
  split <;> simp

@[simp] theorem upsetBuffer_controls (s : State) (k i : Nat) : controls (upsetBuffer s k i) = controls s := by
  unfold upsetBuffer
  split <;> simp

@[simp] theorem upsetMeta_controls (s : State) (block : Nat) : controls (upsetMeta s block) = controls s := by rfl

@[simp] theorem restOf_controls (s : State) : controls (restOf s) = controls s := by rfl

/-! ### The functions of `Machine/Matrix.lean` -/

@[simp] theorem modSlots_controls (s : State) (core : Nat) (ns : List Nat) (f : Slot → Slot) :
    controls (modSlots s core ns f) = controls s := by simp [modSlots]

@[simp] theorem execMclaim_keeps (p : BitVec 3) (d : BitVec 7) (n : BitVec 14) (s : State) :
    Keeps (controls s) (execMclaim p d n s) := by
  simp only [execMclaim]
  refine grpInstr_keeps (fun c => ?_) _
  (repeat' split) <;> simp

@[simp] theorem execMrel_keeps (g : BitVec 3) (a n : BitVec 7) (s : State) :
    Keeps (controls s) (execMrel g a n s) := by
  refine grpInstr_keeps (fun c => ?_) _
  simp only
  split
  · simp
  · exact chk_keeps (wholeGuard_keeps rfl (chk_keeps (by simp) _) _ _) _

@[simp] theorem modMma_controls (s : State) (core : Nat) (f : List MmaCmd → List MmaCmd) :
    controls (modMma s core f) = controls s := by rfl

@[simp] theorem execMma_keeps (p : BitVec 3) (a b : BitVec 6) (t : BitVec 4) (m : BitVec 3) (c s' : BitVec 1)
    (s : State) : Keeps (controls s) (execMma p a b t m c s' s) := by simp [execMma]

@[simp] theorem modOneMma_controls (s : State) (core id : Nat) (f : MmaCmd → MmaCmd) :
    controls (modOneMma s core id f) = controls s := by rfl

@[simp] theorem execMmaStart_keeps (core : Nat) (s : State) : Keeps (controls s) (execMmaStart core s) := by
  unfold execMmaStart
  (repeat' split) <;> simp

@[simp] theorem mmaProduct_controls (s : State) (core : Nat) (m : MmaCmd) :
    controls (mmaProduct s core m) = controls s := by rfl

@[simp] theorem dropRefs_controls (s : State) (core : Nat) (m : MmaCmd) :
    controls (dropRefs s core m) = controls s := by simp [dropRefs]

@[simp] theorem slotRecord_controls (s : State) (core : Nat) (b : Block) (m : MmaCmd) (r : Nat × Nat) :
    controls (slotRecord s core b m r) = controls s := by simp [slotRecord]

@[simp] theorem execMmaComplete_keeps (core id : Nat) (s : State) :
    Keeps (controls s) (execMmaComplete core id s) := by
  unfold execMmaComplete
  (repeat' split) <;> simp

@[simp] theorem execMfence_keeps (g : BitVec 3) (b : BitVec 6) (s : State) :
    Keeps (controls s) (execMfence g b s) := by
  unfold execMfence
  refine grpInstr_keeps (fun c => ?_) _
  split <;> simp

@[simp] theorem execBatchArrival_keeps (core grp : Nat) (s : State) :
    Keeps (controls s) (execBatchArrival core grp s) := by
  unfold execBatchArrival
  (repeat' split) <;> simp

@[simp] theorem addXfer_controls (s : State) (c : GC) (x : AccXfer) : controls (addXfer s c x) = controls s := by rfl

@[simp] theorem accMove_keeps (s : State) (load : Bool) (g d a : Nat) (m : BitVec 3) (t : BitVec 4) :
    Keeps (controls s) (accMove s load g d a m t) := by
  refine grpInstr_keeps (fun c => ?_) _
  refine EffKeeps.ite (by simp) (EffKeeps.ite (by simp) (chk_keeps (EffKeeps.ite (by simp) ?_) _))
  exact chk_keeps (heldBy_keeps (by simp) _) _

@[simp] theorem execAccz_keeps (g m : BitVec 3) (t : BitVec 4) (s : State) :
    Keeps (controls s) (execAccz g m t s) := by simp [execAccz]

@[simp] theorem execAccwait_keeps (g : BitVec 3) (n : BitVec 14) (s : State) :
    Keeps (controls s) (execAccwait g n s) := by simp [execAccwait]

@[simp] theorem landAccld_controls (s : State) (core : Nat) (b : Block) (x : AccXfer) :
    controls (landAccld s core b x) = controls s := by rfl

@[simp] theorem landAccst_controls (s : State) (core : Nat) (x : AccXfer) :
    controls (landAccst s core x) = controls s := by rfl

@[simp] theorem execAccTransferComplete_keeps (core id : Nat) (s : State) :
    Keeps (controls s) (execAccTransferComplete core id s) := by
  unfold execAccTransferComplete
  (repeat' split) <;> simp

@[simp] theorem execMquery_keeps (g : BitVec 3) (d : BitVec 7) (n : BitVec 6) (k : BitVec 2) (s : State) :
    Keeps (controls s) (execMquery g d n k s) := by simp [execMquery]

/-! ### The functions of `Machine/Order.lean` -/

@[simp] theorem noteRank_controls (s : State) (r : Rank) : controls (noteRank s r) = controls s := by rfl

/-! ### The functions of `Machine/Cycle.lean` -/

@[simp] theorem takeSample_controls (s : State) (core : Nat) (b : Block) :
    controls (takeSample s core b) = controls s := by
  unfold takeSample
  split <;> simp

@[simp] theorem debugCycle_controls (s : State) (core : Nat) : controls (debugCycle s core) = controls s := by
  unfold debugCycle
  split <;> simp

@[simp] theorem cycleClock_fstep (c : Clock) : (cycleClock c).fstep = c.fstep := by
  simp only [cycleClock]
  (repeat' split) <;> rfl

@[simp] theorem cycleGoes_controls (s : State) : controls (cycleGoes s) = controls s := by
  simp [cycleGoes]

@[simp] theorem cyclePass_controls (s : State) : controls (cyclePass s) = controls s := by simp [cyclePass]

@[simp] theorem tick_controls (n : Nat) (s : State) : controls (tick n s) = controls s := by
  induction n generalizing s with
  | zero => rfl
  | succ n ih => simp [tick, ih]

/-! ## Legal control fields -/

/-- The control fields hold values that the manual allows: `controlsLegal`, of the fields alone. -/
structure Controls.Legal (v : Controls) : Prop where
  slow : 32 ≤ v.fstep
  fast : v.fstep ≤ 68
  mode : v.mode &&& ~~~ 0x7F#64 = 0
  keys : v.keyIndex ≤ 2 ^ 20
  dctl : v.dctl &&& ~~~ 3#64 = 0

theorem controlsLegal_iff (s : State) : controlsLegal s = true ↔ (controls s).Legal := by
  simp only [controlsLegal, clockLegal, modeLegal, keysLegal, dctlLegal, Bool.and_eq_true, decide_eq_true_eq]
  constructor
  · rintro ⟨⟨⟨⟨slow, fast⟩, mode⟩, keys⟩, dctl⟩
    exact ⟨slow, fast, mode, keys, dctl⟩
  · rintro ⟨slow, fast, mode, keys, dctl⟩
    exact ⟨⟨⟨⟨slow, fast⟩, mode⟩, keys⟩, dctl⟩

theorem reset_legal : (controls State.reset).Legal := ⟨by decide, by decide, by decide, by decide, by decide⟩

/-- A fold whose steps keep the control fields legal keeps them legal. -/
theorem foldSt_legal {α : Type} {f : State → α → State} (h : ∀ s a, (controls s).Legal → (controls (f s a)).Legal)
    (l : List α) {s : State} (hs : (controls s).Legal) : (controls (foldSt f s l)).Legal := by
  induction l generalizing s with
  | nil => exact hs
  | cons a l ih => exact ih (h s a hs)

/-- The next state of an outcome, if there is one, has legal control fields. -/
def NextLegal : Host.Outcome State Fault Refusal → Prop
  | .next t => (controls t).Legal
  | _ => True

@[simp] theorem nextLegal_next (t : State) : NextLegal (.next t) ↔ (controls t).Legal := by rfl

theorem Keeps.nextLegal {v : Controls} {o : Host.Outcome State Fault Refusal} (h : Keeps v o) (hv : v.Legal) :
    NextLegal o := by
  cases o with
  | next t =>
    have ht : controls t = v := h
    simpa [ht] using hv
  | fault r => trivial
  | refused r => trivial

theorem event_legal {s t : State} {due : Bool} (hs : (controls s).Legal) (ht : due = true → (controls t).Legal) :
    NextLegal (event s due t) := by
  unfold event
  split
  · exact ht ‹_›
  · exact hs

theorem andThen_legal {o : Host.Outcome State Fault Refusal} {f : State → State} (h : NextLegal o)
    (hf : ∀ t, (controls t).Legal → (controls (f t)).Legal) : NextLegal (andThen o f) := by
  cases o with
  | next t => exact hf t h
  | fault r => trivial
  | refused r => trivial

/-! ## The writers -/

/-- SY.MODE takes its seven bits only (04 R91). -/
theorem sysWrite_legal {s : State} (hs : (controls s).Legal) (core n : Nat) (v : DWord) :
    (controls (sysWrite s core n v)).Legal := by
  unfold sysWrite
  split
  · have hm : (v &&& 0x7F) &&& ~~~ 0x7F#64 = 0 := by rw [BitVec.and_assoc]; exact BitVec.and_zero
    exact { hs with mode := hm }
  · (repeat' split) <;> simpa using hs

theorem chk_cases (l : List (Bool × Byte)) (e : Eff) : (∃ f, chk l e = .fault f) ∨ chk l e = e := by
  unfold chk
  split
  · exact .inl ⟨_, rfl⟩
  · exact .inr rfl

/-- SMTSY writes through `sysWrite`, or faults. -/
theorem execSmtsy_legal {s : State} (hs : (controls s).Legal) (a : BitVec 6) (n : BitVec 18) :
    NextLegal (execSmtsy a n s) := by
  unfold execSmtsy feInstr instr
  split
  · simpa using hs
  · split
    · rename_i c _
      have hw := sysWrite_legal hs c.core (imm18 (feLit c) n).toNat (sreg c a.toNat)
      simp only [Bool.not_true, Bool.and_false, chk_false, chk_nil, nextLegal_next]
      split
      · simpa using hs
      · rcases chk_cases [(decide (0x018 < (imm18 (feLit c) n).toNat), cILLEGAL),
          (((imm18 (feLit c) n).toNat = 0x009 || (imm18 (feLit c) n).toNat = 0x00D) && !privileged s c.core, cPRIVILEGE)]
          (.retire (sysWrite s c.core (imm18 (feLit c) n).toNat (sreg c a.toNat))) with ⟨f, h⟩ | h
        · simpa [h] using hs
        · simpa [h] using hw
    · trivial

/-- The clock moves by one step, down to FMIN and up to 1.7 GHz (18 R422). -/
theorem clockStep_bounds {level : Int} {cap fmin f : Nat} (hmin : 32 ≤ fmin) (h : 32 ≤ f) (h' : f ≤ 68) :
    32 ≤ clockStep level cap fmin f ∧ clockStep level cap fmin f ≤ 68 := by
  unfold clockStep
  (repeat' split) <;> omega

theorem pondFmin_ge (s : State) : 32 ≤ pondFmin s := by
  simp only [pondFmin]
  split
  · exact Nat.le_refl _
  · rename_i h
    simp only [Bool.or_eq_true, decide_eq_true_eq] at h
    omega

theorem execClockCheck_legal {s : State} (hs : (controls s).Legal) : NextLegal (execClockCheck s) := by
  obtain ⟨slow, fast⟩ := clockStep_bounds (level := s.mgmt.level) (cap := pondCap s) (pondFmin_ge s) hs.slow hs.fast
  exact event_legal hs fun _ => { hs with slow := slow, fast := fast }

/-- DCTL takes its two bits only (17 R405). -/
theorem writeRegister_legal {s : State} (hs : (controls s).Legal) (off : Nat) (v : DWord) :
    (controls (writeRegister s off v)).Legal := by
  have hd : (v &&& 3) &&& ~~~ 3#64 = 0 := by rw [BitVec.and_assoc]; exact BitVec.and_zero
  unfold writeRegister
  simp only
  split
  case h_13 => exact { hs with dctl := hd }
  all_goals simpa using hs

/-- A cold reset keeps the count of keys and nothing else of the control fields (18 R430). -/
theorem coldState_legal {s : State} (hs : (controls s).Legal) : (controls (coldState s)).Legal :=
  { reset_legal with keys := hs.keys }

theorem execColdReset_legal {s : State} (hs : (controls s).Legal) : NextLegal (execColdReset s) := by
  have h := coldState_legal hs
  unfold execColdReset
  split <;> simpa using h

theorem execRecoveryImage_legal {s : State} (hs : (controls s).Legal) (image : List (BitVec 8)) :
    NextLegal (execRecoveryImage image s) :=
  event_legal hs fun _ => coldState_legal (s := { s with mgmt := { s.mgmt with image := image } }) { hs with }

/-- A key is used only while fewer than 2^20 have been (18 R431). -/
theorem execAttestationRequest_legal {s : State} (hs : (controls s).Legal) (nonce : BitVec 128) :
    NextLegal (execAttestationRequest nonce s) :=
  event_legal hs fun due => { hs with keys := of_decide_eq_true due }

/-- Six instructions and events write a control field; every other one leaves the fields as they are. The last arm is
the recall of a word alone: its name is also a command's, so that an arm cannot name it. -/
theorem exec_legal {s : State} (hs : (controls s).Legal) (i : Instr) : NextLegal (exec i s) := by
  cases i with
  | smtsy a n => exact execSmtsy_legal hs a n
  | registerWrite off v => exact writeRegister_legal hs off v
  | coldReset => exact execColdReset_legal hs
  | recoveryImage image => exact execRecoveryImage_legal hs image
  | attestationRequest nonce => exact execAttestationRequest_legal hs nonce
  | clockCheck => exact execClockCheck_legal hs
  | sadd | ssub | smul | smulh | sand | sor | sxor | sshl | sshr | ssar | smin | smax | ssel | sclz | spop | saddi |
    sli | slih | stime =>
    exact (scalarOp_keeps ..).nextLegal hs
  | scmp => exact (execScmp_keeps ..).nextLegal hs
  | sldp => exact (execSldp_keeps ..).nextLegal hs
  | sstp => exact (execSstp_keeps ..).nextLegal hs
  | sj => exact (execSj_keeps ..).nextLegal hs
  | sbz => exact (execSbz_keeps ..).nextLegal hs
  | sbnz => exact (execSbnz_keeps ..).nextLegal hs
  | scall => exact (execScall_keeps ..).nextLegal hs
  | sret => exact (execSret_keeps ..).nextLegal hs
  | smfsy => exact (execSmfsy_keeps ..).nextLegal hs
  | sexit => exact (execSexit_keeps ..).nextLegal hs
  | dqpush => exact (execDqpush_keeps ..).nextLegal hs
  | swait => exact (execSwait_keeps ..).nextLegal hs
  | vadd | vsub | vmul | vmulhI | vmulhN | vmad | vand | vor | vxor | vandn | vshl | vshr | vsar | vminI | vminN |
    vmaxI | vmaxN | vabs | vclz | vpop | vbrev | vbfe | vbfi | vmov | vlane | vballot | vtime =>
    exact (intOp_keeps ..).nextLegal hs
  | vaddi | vli => exact (vecOp_keeps ..).nextLegal hs
  | vcmp => exact (execVcmp_keeps ..).nextLegal hs
  | vsel => exact (execVsel_keeps ..).nextLegal hs
  | vshflIdx => exact (execVshflIdx_keeps ..).nextLegal hs
  | vshflUp => exact (execVshflUp_keeps ..).nextLegal hs
  | vshflDown => exact (execVshflDown_keeps ..).nextLegal hs
  | vshflXor => exact (execVshflXor_keeps ..).nextLegal hs
  | vvote => exact (execVvote_keeps ..).nextLegal hs
  | vredadd | vredmin | vredmax => exact (reduceOp_keeps ..).nextLegal hs
  | vscan => exact (execVscan_keeps ..).nextLegal hs
  | pand => exact (execPand_keeps ..).nextLegal hs
  | por => exact (execPor_keeps ..).nextLegal hs
  | pxor => exact (execPxor_keeps ..).nextLegal hs
  | pnot => exact (execPnot_keeps ..).nextLegal hs
  | vmfsy => exact (execVmfsy_keeps ..).nextLegal hs
  | fadd | fsub | fmul | fmin | fmax | fabs | fneg | fclass | fround | idp4I8 => exact (fltOp_keeps ..).nextLegal hs
  | ffma | ffms | fnma => exact (fmaOp_keeps ..).nextLegal hs
  | fcmp => exact (execFcmp_keeps ..).nextLegal hs
  | cvt => exact (execCvt_keeps ..).nextLegal hs
  | cvtx => exact (execCvtx_keeps ..).nextLegal hs
  | hadd2F16 | hadd2Bf16 => exact (haddOp_keeps ..).nextLegal hs
  | hmul2F16 | hmul2Bf16 => exact (hmulOp_keeps ..).nextLegal hs
  | hfma2F16 | hfma2Bf16 => exact (hfmaOp_keeps ..).nextLegal hs
  | dot4E4m3 | dot4E5m2 | dot2Bf16 => exact (dotOp_keeps ..).nextLegal hs
  | frcp | frsq | fsqrt | fexp2 | flog2 | fsinp | fcosp => exact (sfuOp_keeps ..).nextLegal hs
  | twid => exact (execTwid_keeps ..).nextLegal hs
  | bfly2 | cmul | cmad => exact (pairOp_keeps ..).nextLegal hs
  | fredadd | fredmax | fredmin => exact (fredOp_keeps ..).nextLegal hs
  | br => exact (execBr_keeps ..).nextLegal hs
  | bru => exact (execBru_keeps ..).nextLegal hs
  | brx => exact (execBrx_keeps ..).nextLegal hs
  | join => exact (execJoin_keeps ..).nextLegal hs
  | waitj => exact (execWaitj_keeps ..).nextLegal hs
  | call => exact (execCall_keeps ..).nextLegal hs
  | ret => exact (execRet_keeps ..).nextLegal hs
  | loop => exact (execLoop_keeps ..).nextLegal hs
  | loops => exact (execLoops_keeps ..).nextLegal hs
  | rot => exact (execRot_keeps ..).nextLegal hs
  | lbrk => exact (execLbrk_keeps ..).nextLegal hs
  | lsave => exact (execLsave_keeps ..).nextLegal hs
  | lrest => exact (execLrest_keeps ..).nextLegal hs
  | dqpop => exact (execDqpop_keeps ..).nextLegal hs
  | exit => exact (execExit_keeps ..).nextLegal hs
  | yield => exact (execYield_keeps ..).nextLegal hs
  | ldp => exact (execLdp_keeps ..).nextLegal hs
  | stp => exact (execStp_keeps ..).nextLegal hs
  | atp => exact (execAtp_keeps ..).nextLegal hs
  | stg => exact (execStg_keeps ..).nextLegal hs
  | atg => exact (execAtg_keeps ..).nextLegal hs
  | drainst => exact (execDrainst_keeps ..).nextLegal hs
  | fence => exact (execFence_keeps ..).nextLegal hs
  | invr => exact (execInvr_keeps ..).nextLegal hs
  | afence => exact (execAfence_keeps ..).nextLegal hs
  | pfill => exact (execPfill_keeps ..).nextLegal hs
  | tcopy | tcopym | tfill | tslot | tstore | tgather | tscatter | tstream => exact (copyIssue_keeps ..).nextLegal hs
  | twait => exact (execTwait_keeps ..).nextLegal hs
  | tquery => exact (execTquery_keeps ..).nextLegal hs
  | mclaim => exact (execMclaim_keeps ..).nextLegal hs
  | mrel => exact (execMrel_keeps ..).nextLegal hs
  | mma => exact (execMma_keeps ..).nextLegal hs
  | mfence => exact (execMfence_keeps ..).nextLegal hs
  | accld | accst => exact (accMove_keeps ..).nextLegal hs
  | accz => exact (execAccz_keeps ..).nextLegal hs
  | accwait => exact (execAccwait_keeps ..).nextLegal hs
  | mquery => exact (execMquery_keeps ..).nextLegal hs
  | binit => exact (execBinit_keeps ..).nextLegal hs
  | bjoin => exact (execBjoin_keeps ..).nextLegal hs
  | bleave => exact (execBleave_keeps ..).nextLegal hs
  | barr => exact (execBarr_keeps ..).nextLegal hs
  | bwait => exact (execBwait_keeps ..).nextLegal hs
  | barrw => exact (execBarrw_keeps ..).nextLegal hs
  | btwait => exact (execBtwait_keeps ..).nextLegal hs
  | bexpect => exact (execBexpect_keeps ..).nextLegal hs
  | bquery => exact (execBquery_keeps ..).nextLegal hs
  | jenq => exact (execJenq_keeps ..).nextLegal hs
  | jspawn => exact (execJspawn_keeps ..).nextLegal hs
  | jdone => exact (execJdone_keeps ..).nextLegal hs
  | jyield => exact (execJyield_keeps ..).nextLegal hs
  | waitw => exact (execWaitw_keeps ..).nextLegal hs
  | jself => exact (execJself_keeps ..).nextLegal hs
  | msend => exact (execMsend_keeps ..).nextLegal hs
  | mrecv => exact (execMrecv_keeps ..).nextLegal hs
  | mprobe => exact (execMprobe_keeps ..).nextLegal hs
  | mcancel => exact (execMcancel_keeps ..).nextLegal hs
  | mwake => exact (execMwake_keeps ..).nextLegal hs
  | trap => exact (execTrap_keeps ..).nextLegal hs
  | bkpt => exact (execBkpt_keeps ..).nextLegal hs
  | greplay | gkill => exact (actOn_keeps ..).nextLegal hs
  | gstate => exact (execGstate_keeps ..).nextLegal hs
  | pgprobe => exact (execPgprobe_keeps ..).nextLegal hs
  | pgmig => exact (execPgmig_keeps ..).nextLegal hs
  | pgscrub => exact (execPgscrub_keeps ..).nextLegal hs
  | clause => exact (execClause_keeps ..).nextLegal hs
  | lit => exact (execLit_keeps ..).nextLegal hs
  | mod => exact (execMod_keeps ..).nextLegal hs
  | prio => exact (execPrio_keeps ..).nextLegal hs
  | definedHint w => exact (execDefinedHint_keeps w s).nextLegal hs
  | illegalEncoding w => exact (execIllegalEncoding_keeps w s).nextLegal hs
  | instructionFetchFill => exact (execInstructionFetchFill_keeps ..).nextLegal hs
  | ctxOpen => exact (execCtxOpen_keeps ..).nextLegal hs
  | ctxSuspend => exact (execCtxSuspend_keeps ..).nextLegal hs
  | ctxResume => exact (execCtxResume_keeps ..).nextLegal hs
  | ctxClose => exact (execCtxClose_keeps ..).nextLegal hs
  | ctxUpdate => exact (execCtxUpdate_keeps ..).nextLegal hs
  | suspendComplete => exact (execSuspendComplete_keeps ..).nextLegal hs
  | zeroingComplete => exact (execZeroingComplete_keeps ..).nextLegal hs
  | faultRecordAppend => exact (execFaultRecordAppend_keeps ..).nextLegal hs
  | faultMailboxFree => exact (execFaultMailboxFree_keeps ..).nextLegal hs
  | queueSubmit => exact (execQueueSubmit_keeps ..).nextLegal hs
  | queuePause => exact (execQueuePause_keeps ..).nextLegal hs
  | queueUnpause => exact (execQueueUnpause_keeps ..).nextLegal hs
  | queueFlush => exact (execQueueFlush_keeps ..).nextLegal hs
  | acceptanceDraw => exact (execAcceptanceDraw_keeps ..).nextLegal hs
  | jobAccept => exact (execJobAccept_keeps ..).nextLegal hs
  | jspawnResolve => exact (execJspawnResolve_keeps ..).nextLegal hs
  | dispatch => exact (execDispatch_keeps ..).nextLegal hs
  | placementMailboxGo => exact (execPlacementMailboxGo_keeps ..).nextLegal hs
  | coreZeroingComplete => exact (execCoreZeroingComplete_keeps ..).nextLegal hs
  | clusterLaunch => exact (execClusterLaunch_keeps ..).nextLegal hs
  | budgetExhausted => exact (execBudgetExhausted_keeps ..).nextLegal hs
  | clusterSave => exact (execClusterSave_keeps ..).nextLegal hs
  | idempotentDiscard => exact (execIdempotentDiscard_keeps ..).nextLegal hs
  | blockRetire => exact (execBlockRetire_keeps ..).nextLegal hs
  | wakeWritePerform => exact (execWakeWritePerform_keeps ..).nextLegal hs
  | waitwCompare => exact (execWaitwCompare_keeps ..).nextLegal hs
  | activeSetRefill => exact (execActiveSetRefill_keeps ..).nextLegal hs
  | activeSetLeave => exact (execActiveSetLeave_keeps ..).nextLegal hs
  | waitjTimeout => exact (execWaitjTimeout_keeps ..).nextLegal hs
  | poolPortAccess => exact (execPoolPortAccess_keeps ..).nextLegal hs
  | poolLoadReply => exact (execPoolLoadReply_keeps ..).nextLegal hs
  | remoteStoreAck => exact (execRemoteStoreAck_keeps ..).nextLegal hs
  | serviceRequestArrive => exact (execServiceRequestArrive_keeps ..).nextLegal hs
  | serviceReply => exact (execServiceReply_keeps ..).nextLegal hs
  | homeStore => exact (execHomeStore_keeps ..).nextLegal hs
  | storeAck => exact (execStoreAck_keeps ..).nextLegal hs
  | forwardedRead => exact (execForwardedRead_keeps ..).nextLegal hs
  | visitorFill => exact (execVisitorFill_keeps ..).nextLegal hs
  | atomicAtHome => exact (execAtomicAtHome_keeps ..).nextLegal hs
  | globalAtomicReply => exact (execGlobalAtomicReply_keeps ..).nextLegal hs
  | drainOrder => exact (execDrainOrder_keeps ..).nextLegal hs
  | drainAck => exact (execDrainAck_keeps ..).nextLegal hs
  | linkBufferStore => exact (execLinkBufferStore_keeps ..).nextLegal hs
  | linkBufferWriteback => exact (execLinkBufferWriteback_keeps ..).nextLegal hs
  | staleGenerationReturn => exact (execStaleGenerationReturn_keeps ..).nextLegal hs
  | storeFaultReport => exact (execStoreFaultReport_keeps ..).nextLegal hs
  | l2splitWrite => exact (execL2splitWrite_keeps ..).nextLegal hs
  | l2splitDone => exact (execL2splitDone_keeps ..).nextLegal hs
  | pageWalk => exact (execPageWalk_keeps ..).nextLegal hs
  | frameOwnerZeroing => exact (execFrameOwnerZeroing_keeps ..).nextLegal hs
  | walkMailboxDone => exact (execWalkMailboxDone_keeps ..).nextLegal hs
  | walkMailboxFault => exact (execWalkMailboxFault_keeps ..).nextLegal hs
  | shootdown => exact (execShootdown_keeps ..).nextLegal hs
  | shootdownComplete => exact (execShootdownComplete_keeps ..).nextLegal hs
  | restripeCheck => exact (execRestripeCheck_keeps ..).nextLegal hs
  | restripePassEnd => exact (execRestripePassEnd_keeps ..).nextLegal hs
  | restripeFinalCopy => exact (execRestripeFinalCopy_keeps ..).nextLegal hs
  | restripeShootdownAck => exact (execRestripeShootdownAck_keeps ..).nextLegal hs
  | restripeAbort => exact (execRestripeAbort_keeps ..).nextLegal hs
  | copyDataLand => exact (execCopyDataLand_keeps ..).nextLegal hs
  | copyTransferFault => exact (execCopyTransferFault_keeps ..).nextLegal hs
  | copyCommandComplete => exact (execCopyCommandComplete_keeps ..).nextLegal hs
  | mcidReplicaUpdate => exact (execMcidReplicaUpdate_keeps ..).nextLegal hs
  | mcidRelease => exact (execMcidRelease_keeps ..).nextLegal hs
  | streamPrefetch => exact (execStreamPrefetch_keeps ..).nextLegal hs
  | mmaStart => exact (execMmaStart_keeps ..).nextLegal hs
  | mmaComplete => exact (execMmaComplete_keeps ..).nextLegal hs
  | batchArrival => exact (execBatchArrival_keeps ..).nextLegal hs
  | accTransferComplete => exact (execAccTransferComplete_keeps ..).nextLegal hs
  | remoteBarrierOp => exact (execRemoteBarrierOp_keeps ..).nextLegal hs
  | barrierReply => exact (execBarrierReply_keeps ..).nextLegal hs
  | childArrival => exact (execChildArrival_keeps ..).nextLegal hs
  | phaseNotice => exact (execPhaseNotice_keeps ..).nextLegal hs
  | errorArrival => exact (execErrorArrival_keeps ..).nextLegal hs
  | absWaitPoll => exact (execAbsWaitPoll_keeps ..).nextLegal hs
  | btwaitTimeout => exact (execBtwaitTimeout_keeps ..).nextLegal hs
  | msgHeaderArrive => exact (execMsgHeaderArrive_keeps ..).nextLegal hs
  | msgPull => exact (execMsgPull_keeps ..).nextLegal hs
  | msgDataLand => exact (execMsgDataLand_keeps ..).nextLegal hs
  | msgCompletion => exact (execMsgCompletion_keeps ..).nextLegal hs
  | mwakeAck => exact (execMwakeAck_keeps ..).nextLegal hs
  | linkEnable => exact (execLinkEnable_keeps ..).nextLegal hs
  | linkQuiesce => exact (execLinkQuiesce_keeps ..).nextLegal hs
  | linkDisable => exact (execLinkDisable_keeps ..).nextLegal hs
  | trainingSuccess => exact (execTrainingSuccess_keeps ..).nextLegal hs
  | trainingFailure => exact (execTrainingFailure_keeps ..).nextLegal hs
  | linkQuiesced => exact (execLinkQuiesced_keeps ..).nextLegal hs
  | replayLimit => exact (execReplayLimit_keeps ..).nextLegal hs
  | crcFailure => exact (execCrcFailure_keeps ..).nextLegal hs
  | timeExchange => exact (execTimeExchange_keeps ..).nextLegal hs
  | dieResetStart => exact (execDieResetStart_keeps ..).nextLegal hs
  | dieResetContinue => exact (execDieResetContinue_keeps ..).nextLegal hs
  | dbgStop => exact (execDbgStop_keeps ..).nextLegal hs
  | dbgRelease => exact (execDbgRelease_keeps ..).nextLegal hs
  | dbgStep => exact (execDbgStep_keeps ..).nextLegal hs
  | dbgDump => exact (execDbgDump_keeps ..).nextLegal hs
  | dbgWrite => exact (execDbgWrite_keeps ..).nextLegal hs
  | stepTimeout => exact (execStepTimeout_keeps ..).nextLegal hs
  | stopArrive => exact (execStopArrive_keeps ..).nextLegal hs
  | traceSample => exact (execTraceSample_keeps ..).nextLegal hs
  | millpondUpdate => exact (execMillpondUpdate_keeps ..).nextLegal hs
  | currentLimit => exact (execCurrentLimit_keeps ..).nextLegal hs
  | correctedError => exact (execCorrectedError_keeps ..).nextLegal hs
  | selftestVerdict => exact (execSelftestVerdict_keeps ..).nextLegal hs
  | selftestAccept => exact (execSelftestAccept_keeps ..).nextLegal hs
  | currentLimitEnd => exact (execCurrentLimitEnd_keeps ..).nextLegal hs
  | peerRequest => exact (execPeerRequest_keeps ..).nextLegal hs
  | afenceDieAck => exact (execAfenceDieAck_keeps ..).nextLegal hs
  | pgscrubScanDone => exact (execPgscrubScanDone_keeps ..).nextLegal hs
  | devnumWrite => exact (execDevnumWrite_keeps ..).nextLegal hs
  | _ => exact (execRecall_keeps ..).nextLegal hs

/-! ## What settles -/

theorem writeCtxCommand_legal {s : State} (hs : (controls s).Legal) (v : DWord) :
    (controls (writeCtxCommand s v)).Legal := by
  simp only [writeCtxCommand]
  split
  case h_6 => exact writeRegister_legal hs ..
  all_goals simpa using hs

theorem writeDbgCommand_legal {s : State} (hs : (controls s).Legal) (v : DWord) :
    (controls (writeDbgCommand s v)).Legal := by
  simp only [writeDbgCommand]
  split
  case h_6 => exact writeRegister_legal hs ..
  all_goals simpa using hs

theorem writeBus_legal {s : State} (hs : (controls s).Legal) (off : Nat) (v : DWord) :
    (controls (writeBus s off v)).Legal := by
  unfold writeBus
  repeat' split
  · exact writeCtxCommand_legal hs v
  · exact writeRegister_legal hs off v
  · simpa using hs
  · simpa using hs
  · exact writeDbgCommand_legal hs v
  · exact writeRegister_legal hs off v
  · exact hs

theorem busSettle_legal {s : State} (hs : (controls s).Legal) : (controls (busSettle s)).Legal := by
  simp only [busSettle]
  split
  · exact hs
  · exact foldSt_legal (fun t e ht => writeBus_legal ht ..) _ (by simpa using hs)

theorem withWalks_legal {s t : State} (hs : (controls s).Legal) (ht : (controls t).Legal) :
    (controls (withWalks s t)).Legal := by
  unfold withWalks
  (repeat' split) <;> simpa

theorem settle_legal {s : State} (hs : (controls s).Legal) : (controls (settle s)).Legal := by
  have hb := busSettle_legal hs
  have hw : (controls (withWalks (busSettle s) (settleReturns (busSettle s)))).Legal :=
    withWalks_legal hb (by simpa using hb)
  simpa [settle] using hw

theorem ordered_legal {s t : State} (hs : (controls s).Legal) (ht : (controls t).Legal) (rs : List Rank) :
    (controls (ordered s t rs)).Legal := by
  rcases ordered_cases s t rs with h | h <;> simpa [h]

theorem orderedIssue_legal {s t : State} (hs : (controls s).Legal) (ht : (controls t).Legal) (a : Agent) (i : Instr) :
    (controls (orderedIssue s t a i)).Legal := by
  unfold orderedIssue
  repeat' split
  · exact hs
  · exact ordered_legal hs ht _
  · exact ordered_legal hs ht _
  · exact ht

theorem sfuTurn_legal {s t : State} (hs : (controls s).Legal) (ht : (controls t).Legal) (a : Agent) (i : Instr) :
    (controls (sfuTurn s t a i)).Legal := by
  unfold sfuTurn
  split
  · (repeat' split) <;> simpa
  · exact ht

theorem issueTurn_legal {s : State} (hs : (controls s).Legal) (a : Agent) : NextLegal (issueTurn s a) := by
  have hp := pick_keeps s a
  unfold issueTurn
  split
  · rename_i t h
    have ht : controls t = controls s := by simpa [h] using hp
    exact settle_legal (ordered_legal hs (ht ▸ hs) _)
  · rename_i t i h
    have ht : controls t = controls s := by simpa [h] using hp
    have htl : (controls t).Legal := ht ▸ hs
    exact andThen_legal (exec_legal htl i) fun u hu =>
      settle_legal (sfuTurn_legal htl (orderedIssue_legal htl (by simpa using hu) a i) a i)

theorem eventTurn_legal {s : State} (hs : (controls s).Legal) (i : Instr) : NextLegal (eventTurn s i) := by
  unfold eventTurn
  split
  · exact andThen_legal (exec_legal hs i) fun t ht => settle_legal (ordered_legal hs (withWalks_legal hs ht) _)
  · exact hs

theorem turn_legal {s : State} (hs : (controls s).Legal) (a : Act) : NextLegal (turn s a) := by
  cases a with
  | issue a => exact issueTurn_legal hs a
  | event i => exact eventTurn_legal hs i
  | credit id =>
    exact andThen_legal ((landCredit_keeps id s).nextLegal hs) fun t ht => settle_legal (ordered_legal hs ht _)
  | resetStep => exact settle_legal (ordered_legal hs (by simpa using hs) _)
  | evict | upset | upsetCopy | upsetBuffer | upsetMeta | sideBand => exact settle_legal (by simpa using hs)

/-- A step keeps the control fields legal. -/
theorem step_legal {s : State} (hs : (controls s).Legal) : NextLegal (step s) := by
  unfold step
  split
  · exact settle_legal (by simpa using hs)
  · exact turn_legal (by simpa using hs) _

/-- Settles O5: every writer of a control field writes a legal value, and everything else leaves the fields alone. -/
theorem stepKeepsControlsLegal : Obligations.StepKeepsControlsLegal := by
  unfold Obligations.StepKeepsControlsLegal
  intro s t hs hst
  rw [controlsLegal_iff] at hs ⊢
  have h := step_legal hs
  rwa [hst] at h

/-! ## The state after reset -/

/-- The seams are in TRAINING after reset, and every other link is DOWN (16 R383). -/
theorem getLink_reset_state (l : Nat) : (getLink State.reset l).state = if l < 4 then .training else .down := by
  match l with
  | 0 | 1 | 2 | 3 => rfl
  | n + 4 => simp [getLink, State.reset, tgetD, tfind]

/-- Settles O6: every table but that of the links is empty after reset, so that what it answers is the default. -/
theorem resetState : Obligations.ResetState := by
  unfold Obligations.ResetState
  intro s
  have dies (d : Nat) : (getDie s d).vways = 4 ∧ (getDie s d).active = 4 ∧ (getDie s d).busy = false ∧
      dieAdmitted s d = true :=
    ⟨rfl, rfl, rfl, rfl⟩
  have cap : s.mgmt.level = pondCap s := by decide
  have limit : pondLimit s = 1800 := by decide
  have capField : bitsOf s.mgmt.pwrcfg.toNat 47 16 = 50 := by decide
  have fmin : pondFmin s = 32 := by decide
  exact ⟨rfl, (controlsLegal_iff _).2 reset_legal, fun d _ => dies d, rfl, rfl, rfl, fun _ _ => rfl,
    getLink_reset_state, rfl, rfl, cap, limit, capField, fmin, rfl, fun _ => rfl, fun _ => rfl, fun _ => rfl⟩

end Sys2Proof.Machine
end

section
namespace Sys2Proof.Machine

/-!
# The integer product of the matrix engine (02 R58, 13 R328)

The element of an integer slot is a whole number: a value with exponent 0. Products and exact sums of whole numbers are
those of the integers they stand for, so that a K-group adds the integer sum of its products to the accumulator and
wraps it. As wrapping commutes with addition, one wrap of the total over all K-groups gives the same word.
-/

/-! ## Whole numbers -/

/-- A finite value with exponent 0. -/
def Val.IsWhole (v : Val) : Prop := ∃ n m, v = .num n m 0

theorem intVal_isWhole (x : Int) : (intVal x).IsWhole := ⟨_, _, rfl⟩

theorem intOf_whole (n : Bool) (m : Nat) : intOf (.num n m 0) = if n then -(m : Int) else m := by
  simp only [intOf, Int.toNat_zero, Nat.pow_zero, Nat.mul_one]

theorem intOf_intVal (x : Int) : intOf (intVal x) = x := by
  rw [intVal, intOf_whole]
  simp only [decide_eq_true_eq]
  split <;> omega

/-- The integer types have no floating format, so that an element is its code less the zero point (02 R38, R39). -/
theorem elemVal_isWhole {t : Nat} (lo : 6 ≤ t) (hi : t ≤ 10) (code zp : Nat) : (elemVal t code zp).IsWhole := by
  have h : typeFmt t = none := by
    obtain rfl | rfl | rfl | rfl | rfl : t = 6 ∨ t = 7 ∨ t = 8 ∨ t = 9 ∨ t = 10 := by omega
    all_goals rfl
  simpa only [elemVal, h] using intVal_isWhole _

theorem termMul_isWhole {a b : Val} (ha : a.IsWhole) (hb : b.IsWhole) : (termMul a b).v.IsWhole := by
  obtain ⟨n, m, rfl⟩ := ha
  obtain ⟨n', m', rfl⟩ := hb
  exact ⟨n != n', m * m', rfl⟩

theorem intOf_termMul {a b : Val} (ha : a.IsWhole) (hb : b.IsWhole) :
    intOf (termMul a b).v = intOf a * intOf b := by
  obtain ⟨n, m, rfl⟩ := ha
  obtain ⟨n', m', rfl⟩ := hb
  have h : (termMul (.num n m 0) (.num n' m' 0)).v = .num (n != n') (m * m') 0 := rfl
  rw [h, intOf_whole, intOf_whole, intOf_whole, Int.natCast_mul]
  match n, n' with
  | false, false => rfl
  | false, true => exact (Int.mul_neg ..).symm
  | true, false => exact (Int.neg_mul ..).symm
  | true, true => exact (Int.neg_mul_neg ..).symm

/-! ## Exact sums of whole numbers (02 R56) -/

theorem minExp_of_isWhole {ts : List Term} (h : ∀ t ∈ ts, t.v.IsWhole) : minExp ts = 0 := by
  unfold minExp
  induction ts with
  | nil => rfl
  | cons t ts ih =>
    obtain ⟨n, m, ht⟩ := h t List.mem_cons_self
    simpa [ht] using ih fun u hu => h u (List.mem_cons_of_mem t hu)

/-- The finite terms of a list are summed from its end. -/
theorem sumAt_append (ts : List Term) {t : Term} (h : t.v.IsWhole) :
    sumAt 0 (ts ++ [t]) = sumAt 0 ts + intOf t.v := by
  obtain ⟨n, m, ht⟩ := h
  unfold sumAt
  rw [List.foldl_append, ht, intOf_whole]
  cases n
  · simp [ht]
  · simp [ht, Int.sub_eq_add_neg]

theorem sumAt_reverse_of_isWhole {ts : List Term} (h : ∀ t ∈ ts, t.v.IsWhole) :
    sumAt 0 ts.reverse = (ts.reverse.map fun t => intOf t.v).sum := by
  induction ts with
  | nil => rfl
  | cons t ts ih =>
    rw [List.reverse_cons, sumAt_append _ (h t List.mem_cons_self), ih fun u hu => h u (List.mem_cons_of_mem t hu),
      List.map_append, List.sum_append, List.map_singleton, List.sum_singleton]

theorem sumAt_zero_of_isWhole {ts : List Term} (h : ∀ t ∈ ts, t.v.IsWhole) :
    sumAt 0 ts = (ts.map fun t => intOf t.v).sum := by
  have r := sumAt_reverse_of_isWhole (ts := ts.reverse) fun t ht => h t (List.mem_reverse.mp ht)
  rwa [List.reverse_reverse] at r

/-- The exact sum of whole numbers is their integer sum. -/
theorem exactSum_of_isWhole {ts : List Term} (h : ∀ t ∈ ts, t.v.IsWhole) :
    exactSum ts = intVal (ts.map fun t => intOf t.v).sum := by
  have noInf (n : Bool) : (ts.any fun t => t.v = .inf n) = false := by
    simp only [List.any_eq_false]
    intro t ht
    obtain ⟨_, _, hv⟩ := h t ht
    simp [hv]
  simp only [exactSum, noInf, minExp_of_isWhole h, sumAt_zero_of_isWhole h]
  rw [if_neg]
  · rfl
  · simp only [Bool.and_false, Bool.or_false, List.any_eq_true]
    rintro ⟨t, ht, nan⟩
    obtain ⟨_, _, hv⟩ := h t ht
    simp [hv] at nan

theorem intOf_groupSum {xs ys : List Val} (hx : ∀ v ∈ xs, v.IsWhole) (hy : ∀ v ∈ ys, v.IsWhole) :
    intOf (groupSum xs ys) = ((xs.zip ys).map fun v => intOf v.1 * intOf v.2).sum := by
  have whole : ∀ v ∈ xs.zip ys, v.1.IsWhole ∧ v.2.IsWhole := fun v hv =>
    ⟨hx _ (List.of_mem_zip hv).1, hy _ (List.of_mem_zip hv).2⟩
  have terms : ∀ t ∈ (xs.zip ys).map fun v => termMul v.1 v.2, t.v.IsWhole := by
    simp only [List.mem_map]
    rintro _ ⟨v, hv, rfl⟩
    exact termMul_isWhole (whole v hv).1 (whole v hv).2
  rw [groupSum, exactSum_of_isWhole terms, intOf_intVal, List.map_map]
  exact congrArg List.sum (List.map_congr_left fun v hv => intOf_termMul (whole v hv).1 (whole v hv).2)

/-! ## One K-group -/

/-- A slot without scales has neither a scale nor a zero point (02 R53). -/
theorem slotScale_none (x : Slot) (gsz row k : Nat) : slotScale x 0 gsz row k = (oneVal, 0) := rfl

/-- The integer of element k of a slot row without a zero point. -/
def slotInt (x : Slot) (t row k : Nat) : Int := intOf (elemVal t (slotCode x t row k) 0)

theorem intOf_groupSum_groupVals (x y : Slot) {t t' : Nat} (lo : 6 ≤ t) (hi : t ≤ 10) (lo' : 6 ≤ t') (hi' : t' ≤ 10)
    (gsz gsz' i j k n : Nat) :
    intOf (groupSum (groupVals x t 0 gsz i k n) (groupVals y t' 0 gsz' j k n)) =
      ((List.range n).map fun l => slotInt x t i (k + l) * slotInt y t' j (k + l)).sum := by
  have whole {x : Slot} {t gsz i : Nat} (lo : 6 ≤ t) (hi : t ≤ 10) :
      ∀ v ∈ groupVals x t 0 gsz i k n, v.IsWhole := by
    simp only [groupVals, List.mem_map]
    rintro _ ⟨l, -, rfl⟩
    exact elemVal_isWhole lo hi ..
  rw [intOf_groupSum (whole lo hi) (whole lo' hi')]
  simp only [groupVals, slotScale_none, List.zip_map', List.map_map]
  rfl

/-! ## All K-groups -/

/-- Wrapping after every K-group is wrapping the total once. -/
theorem foldl_accGroup_wraps (gs : List Nat) (p sa sb : Nat → Val) (acc : Word) :
    gs.foldl (fun acc g => accGroup false true acc (p g) (sa g) (sb g)) acc =
      BitVec.ofInt 32 (acc.toInt + (gs.map fun g => intOf (p g)).sum) := by
  induction gs generalizing acc with
  | nil => simp
  | cons g gs ih =>
    have step : accGroup false true acc (p g) (sa g) (sb g) = BitVec.ofInt 32 (acc.toInt + intOf (p g)) := rfl
    rw [List.foldl_cons, ih, step, BitVec.ofInt_add, BitVec.ofInt_toInt, ← BitVec.ofInt_add, List.map_cons,
      List.sum_cons, Int.add_assoc]

/-- A sum over q·n numbers is the sum over q runs of n. -/
theorem sum_range_mul (f : Nat → Int) (q n : Nat) :
    ((List.range (q * n)).map f).sum =
      ((List.range q).map fun g => ((List.range n).map fun l => f (g * n + l)).sum).sum := by
  induction q with
  | zero => simp
  | succ q ih => simp [Nat.succ_mul, List.range_add, List.range_succ, ih, Function.comp_def]

/-- The product of integer slots without scales, in terms of their headers: the K-groups together cover every k once. -/
theorem mmaWord_of_ints {s : State} {core a b t t' gsz gsz' n n' : Nat} {m : MmaCmd}
    (headA : headerOf s core a = (t, 0, gsz, n)) (headB : headerOf s core b = (t', 0, gsz', n'))
    (lo : 6 ≤ t) (hi : t ≤ 10) (lo' : 6 ≤ t') (hi' : t' ≤ 10) (whole : n % 32 = 0) (wraps : m.sat = false)
    (i j : Nat) (old : Word) :
    mmaWord s core m a b i j old =
      BitVec.ofInt 32 ((if m.acc then old.toInt else 0) +
        ((List.range n).map fun k => slotInt (getSlot s core a) t i k * slotInt (getSlot s core b) t' j k).sum) := by
  have size : kGroup t = 32 := if_neg (by simp; omega)
  have ints : typeClass t = 1 := by rw [typeClass, if_neg (by omega), if_pos hi]
  have start : (if m.acc then old else 0).toInt = if m.acc then old.toInt else 0 := by split <;> rfl
  have groups : n / 32 * 32 = n := Nat.div_mul_cancel (Nat.dvd_of_mod_eq_zero whole)
  calc mmaWord s core m a b i j old
      = (List.range (n / 32)).foldl (fun acc g => accGroup false true acc
          (groupSum (groupVals (getSlot s core a) t 0 gsz i (g * 32) 32)
            (groupVals (getSlot s core b) t' 0 gsz' j (g * 32) 32)) oneVal oneVal) (if m.acc then old else 0) := by
        simp only [mmaWord, headA, headB, size, ints, wraps, slotScale_none]
        rfl
    _ = BitVec.ofInt 32 ((if m.acc then old.toInt else 0) +
          ((List.range (n / 32)).map fun g => ((List.range 32).map fun l =>
            slotInt (getSlot s core a) t i (g * 32 + l) * slotInt (getSlot s core b) t' j (g * 32 + l)).sum).sum) := by
        rw [foldl_accGroup_wraps, start]
        simp only [intOf_groupSum_groupVals _ _ lo hi lo' hi']
    _ = _ := by
        rw [← sum_range_mul fun k => slotInt (getSlot s core a) t i k * slotInt (getSlot s core b) t' j k, groups]

/-- Settles O42: K-groups of whole numbers add up to one integer sum, wrapped once. -/
theorem integerProduct : Obligations.IntegerProduct := by
  unfold Obligations.IntegerProduct
  intro s core m a b i j old ha hb x y lo hi lo' hi' noScaleA noScaleB whole wraps
  have headA : headerOf s core a = (ha.1, 0, ha.2.2) := by rw [← noScaleA]
  have headB : headerOf s core b = (hb.1, 0, hb.2.2) := by rw [← noScaleB]
  exact mmaWord_of_ints headA headB lo hi lo' hi' whole wraps i j old

end Sys2Proof.Machine
end

section
namespace Sys2Proof

/-!
# Decoding (03 R64 to R67, R71, R74, R75)

A word is the concatenation of its fields, and the decoder reads the fields back: reading one drops the fields below it
and stops short of those above. The opcode, read first, chooses the row.
-/

/-- A property of each of n numbers, from one of them on. -/
def EachFrom (P : Nat → Prop) : Nat → Nat → Prop
  | _, 0 => True
  | lo, n + 1 => P lo ∧ EachFrom P (lo + 1) n

theorem eachFrom_apply {P : Nat → Prop} {op : Nat} :
    ∀ {n lo : Nat}, EachFrom P lo n → lo ≤ op → op < lo + n → P op
  | 0, _, _, hlo, hhi => absurd hhi (Nat.not_lt.mpr hlo)
  | n + 1, lo, ⟨first, rest⟩, hlo, hhi => by
    rcases Nat.eq_or_lt_of_le hlo with rfl | above
    · exact first
    · exact eachFrom_apply rest above (by omega)

/-- A property of each opcode of a range. -/
theorem forall_of_eachFrom {P : Nat → Prop} {lo hi : Nat} (h : EachFrom P lo (hi + 1 - lo)) :
    ∀ op, lo ≤ op → op ≤ hi → P op :=
  fun _ hlo hhi => eachFrom_apply h hlo (by omega)

theorem unassigned_iff (w : BitVec 32) : unassigned w = true ↔
    opcodeOf w = 0 ∨ (0x21 ≤ opcodeOf w ∧ opcodeOf w ≤ 0x2F) ∨ (0x5D ≤ opcodeOf w ∧ opcodeOf w ≤ 0x5F) ∨
      (0x87 ≤ opcodeOf w ∧ opcodeOf w ≤ 0x8F) ∨ (0xAA ≤ opcodeOf w ∧ opcodeOf w ≤ 0xAF) ∨
      (0xBA ≤ opcodeOf w ∧ opcodeOf w ≤ 0xBF) ∨ (0xC9 ≤ opcodeOf w ∧ opcodeOf w ≤ 0xCF) ∨ opcodeOf w = 0xDF ∨
      (0xE5 ≤ opcodeOf w ∧ opcodeOf w ≤ 0xE7) := by
  simp only [unassigned, Bool.or_eq_true, Bool.and_eq_true, decide_eq_true_eq, or_assoc]

/-- No row of the decoder has an unassigned opcode. -/
theorem decodeWord_unassigned {w : BitVec 32} (h : unassigned w = true) : decodeWord w = .illegalEncoding w := by
  rw [unassigned_iff] at h
  unfold decodeWord
  generalize opcodeOf w = op at h ⊢
  rcases h with rfl | ⟨lo, hi⟩ | ⟨lo, hi⟩ | ⟨lo, hi⟩ | ⟨lo, hi⟩ | ⟨lo, hi⟩ | ⟨lo, hi⟩ | rfl | ⟨lo, hi⟩
  case inl | inr.inr.inr.inr.inr.inr.inr.inl => rfl
  all_goals
    revert op
    refine forall_of_eachFrom ?_
    repeat refine ⟨rfl, ?_⟩
    exact trivial

/-- The defined hint region lies above every row of the decoder. -/
theorem decodeWord_hintWord {w : BitVec 32} (h : hintWord w = true) : decodeWord w = .definedHint w := by
  have region : 0xF4 ≤ opcodeOf w := of_decide_eq_true h
  have above (n : Nat) (hn : n ≤ 0xF4) : ¬ opcodeOf w < n := by omega
  simp only [decodeWord, above, Nat.reduceLeDiff, ↓reduceIte]

/-- Settles O2: the fields of each instruction's word are the operands it was made of. -/
theorem decodeEncodeRoundTrip : Obligations.DecodeEncodeRoundTrip := by
  unfold Obligations.DecodeEncodeRoundTrip
  intro i w hk he
  cases i
  case definedHint v =>
    cases he
    exact decodeWord_hintWord hk
  case illegalEncoding v =>
    cases he
    exact decodeWord_unassigned hk
  -- A step of the device has no word; every other instruction has the word of its row.
  all_goals cases he
  all_goals simp only [decodeWord, opcodeOf, decodeScalar, decodeVectorA, decodeVectorB, decodeFloatA, decodeFloatB,
    decodeControl, decodeMemory, decodeCopy, decodeMatrix, decodeBarrier, decodeLink, decodeSystem, decodeHint, field,
    BitVec.extractLsb'_append_eq_of_le, BitVec.extractLsb'_append_eq_of_add_le, BitVec.extractLsb'_eq_self,
    BitVec.reduceToNat, Nat.reduceLeDiff, Nat.reduceSub, Nat.reduceLT, Nat.reduceEqDiff, ↓reduceIte]

/-- Settles O1: the rows written out evaluate, and the opcodes outside the rows have the decoder's other two answers. -/
theorem wordsDecode : Obligations.WordsDecode := by
  unfold Obligations.WordsDecode
  refine ⟨by decide, fun w h => decodeWord_unassigned ((unassigned_iff w).mpr h), fun w h => ?_⟩
  exact decodeWord_hintWord (decide_eq_true h)

end Sys2Proof

namespace Sys2Proof.Machine

/-! ## The classes of threads (03 R71) -/

/-- The instruction is one of the front-end only. -/
def FrontEndOnly (i : Instr) : Prop := ∀ s, ∃ lit f, exec i s = feInstr s lit f

/-- The instruction is one of groups only. -/
def GroupOnly (i : Instr) : Prop := ∀ s, ∃ lit f, exec i s = grpInstr s lit f

/-- A group that executes an instruction of the front-end raises ILLEGAL. -/
theorem FrontEndOnly.exec_grp {i : Instr} (h : FrontEndOnly i) {s : State} {c : GC} (hc : groupCtx s = some c) :
    exec i s = .next (faultGrp s c { code := cILLEGAL }) := by
  obtain ⟨lit, f, hf⟩ := h s
  simp only [hf, feInstr, instr, hc]

/-- A front-end that executes an instruction of groups raises ILLEGAL. -/
theorem GroupOnly.exec_fe {i : Instr} (h : GroupOnly i) {s : State} {c : FC} (hc : feCtx s = some c) :
    exec i s = .next (feFault s c.core { code := cILLEGAL }) := by
  obtain ⟨lit, f, hf⟩ := h s
  simp only [hf, grpInstr, instr, groupCtx_of_feCtx hc, hc]

/-- The scalar and copy opcodes are the front-end's: one row each. -/
theorem decodeWord_frontEndOnly {w : BitVec 32}
    (h : (0x01 ≤ opcodeOf w ∧ opcodeOf w ≤ 0x20) ∨ (0xB0 ≤ opcodeOf w ∧ opcodeOf w ≤ 0xB9)) :
    FrontEndOnly (decodeWord w) := by
  unfold decodeWord
  generalize opcodeOf w = op at h ⊢
  rcases h with ⟨lo, hi⟩ | ⟨lo, hi⟩
  all_goals
    revert op
    refine forall_of_eachFrom ?_
    repeat refine ⟨fun s => ⟨_, _, rfl⟩, ?_⟩
    exact trivial

/-- The vector, floating-point, control-flow, memory and matrix opcodes are the groups', without FENCE: one row each. -/
theorem decodeWord_groupOnly {w : BitVec 32}
    (h : (0x30 ≤ opcodeOf w ∧ opcodeOf w ≤ 0x5C) ∨ (0x60 ≤ opcodeOf w ∧ opcodeOf w ≤ 0x86) ∨
      (0x90 ≤ opcodeOf w ∧ opcodeOf w ≤ 0x9F) ∨ (0xA0 ≤ opcodeOf w ∧ opcodeOf w ≤ 0xA9 ∧ opcodeOf w ≠ 0xA6) ∨
      (0xC0 ≤ opcodeOf w ∧ opcodeOf w ≤ 0xC8)) : GroupOnly (decodeWord w) := by
  unfold decodeWord
  generalize opcodeOf w = op at h ⊢
  have ranges : (0x30 ≤ op ∧ op ≤ 0x5C) ∨ (0x60 ≤ op ∧ op ≤ 0x86) ∨ (0x90 ≤ op ∧ op ≤ 0x9F) ∨
      (0xA0 ≤ op ∧ op ≤ 0xA5) ∨ (0xA7 ≤ op ∧ op ≤ 0xA9) ∨ (0xC0 ≤ op ∧ op ≤ 0xC8) := by omega
  clear h
  rcases ranges with ⟨lo, hi⟩ | ⟨lo, hi⟩ | ⟨lo, hi⟩ | ⟨lo, hi⟩ | ⟨lo, hi⟩ | ⟨lo, hi⟩
  all_goals
    revert op
    refine forall_of_eachFrom ?_
    repeat refine ⟨fun s => ⟨_, _, rfl⟩, ?_⟩
    exact trivial

/-- Settles O8: the word of an instruction decodes to it, so that its opcode says which threads execute it. -/
theorem threadClassIsEnforced : Obligations.ThreadClassIsEnforced := by
  unfold Obligations.ThreadClassIsEnforced
  intro s i w he hk op
  have hi : decodeWord w = i := decodeEncodeRoundTrip i w hk he
  exact ⟨fun c hc h => (hi ▸ decodeWord_frontEndOnly h).exec_grp hc, fun c hc h => (hi ▸ decodeWord_groupOnly h).exec_fe hc⟩

end Sys2Proof.Machine
end

section
namespace Sys2Proof.Machine

/-! # Reading a component of the state that has just been changed -/

theorem tfind_tmod_same {α : Type} (k : Nat) (f : α → α) (t : Table α) : tfind k (tmod k f t) = (tfind k t).map f := by
  unfold tmod
  split
  · rename_i v h
    rw [tfind_tput_same, h, Option.map_some]
  · rename_i h
    rw [h, Option.map_none]

/-- Looking up a key in a table of which every value has been changed; the table need not be canonical. -/
theorem tfind_map {α : Type} (k : Nat) (f : α → α) (t : Table α) :
    tfind k (t.map fun e => (e.1, f e.2)) = (tfind k t).map f := by
  induction t with
  | nil => rfl
  | cons e r ih =>
    simp only [List.map_cons, tfind]
    split
    · rfl
    · exact ih

/-- The first entry of a key, searched for or looked up. -/
theorem find?_key_map {α β : Type} (k : Nat) (f : α → β) (t : Table α) :
    ((t.find? fun e => e.1 = k).map fun e => f e.2) = (tfind k t).map f := by
  induction t with
  | nil => rfl
  | cons e r ih =>
    by_cases h : e.1 = k
    · simp [tfind, h]
    · simp [tfind, h, Ne.symm h, ih]

@[simp] theorem getBlk_modBlk (s : State) (core : Nat) (f : Block → Block) :
    getBlk (modBlk s core f) core = (getBlk s core).map f := by
  simp [getBlk, modBlk, modCore, getCore, tgetD, tfind_tput_same]

@[simp] theorem getBlk_modFe (s : State) (core : Nat) (f : FrontEnd → FrontEnd) :
    getBlk (modFe s core f) core = (getBlk s core).map fun b => { b with fe := f b.fe } := getBlk_modBlk ..

@[simp] theorem getBlk_modGrp (s : State) (core g : Nat) (f : Group → Group) :
    getBlk (modGrp s core g f) core = (getBlk s core).map fun b => { b with groups := tmod g f b.groups } := getBlk_modBlk ..

@[simp] theorem getBlk_queueRecord (s : State) (ctx core : Nat) (r : FaultRec) :
    getBlk (queueRecord s ctx r) core = getBlk s core := rfl

@[simp] theorem getCtx_queueRecord (s : State) (ctx : Nat) (r : FaultRec) :
    (getCtx (queueRecord s ctx r) ctx).pending = (getCtx s ctx).pending ++ [{ r with gts := s.clk.gts }] := by
  simp [getCtx, queueRecord, modCtx, tgetD, tfind_tput_same]

/-! ## Who issues -/

/-- What the issuing split is, of the state. -/
structure SplitIssues (s : State) (c : GC) : Prop where
  blk : getBlk s c.core = some c.blk
  grp : tfind c.g c.blk.groups = some c.grp
  spl : tfind c.k c.grp.splits = some c.spl
  core : s.cur.core = c.core
  who : s.cur.who = .grp c.g
  split : s.cur.split = c.k

theorem splitIssues_of_groupCtx {s : State} {c : GC} (h : groupCtx s = some c) : SplitIssues s c := by
  unfold groupCtx at h
  split at h
  · exact nomatch h
  next g hg =>
    split at h
    · exact nomatch h
    next b hb =>
      split at h
      · exact nomatch h
      next r hr =>
        split at h
        · exact nomatch h
        next x hx =>
          cases h
          exact ⟨hb, hr, hx, rfl, hg, rfl⟩

/-- The block of the issuing front-end, and its core. -/
theorem getBlk_of_feCtx {s : State} {c : FC} (h : feCtx s = some c) :
    getBlk s c.core = some c.blk ∧ s.cur.core = c.core := by
  unfold feCtx at h
  split at h
  · obtain ⟨b, hb, rfl⟩ := Option.map_eq_some_iff.mp h
    exact ⟨hb, rfl⟩
  · exact nomatch h

end Sys2Proof.Machine
end

section
namespace Sys2Proof.Machine

/-! # Taking a precise fault (03 R73, 04 R96, R97, R101, R108) -/

/-! ## The objects of a core are evaluated again -/

/-- The contexts are as before, and so is the block of a core but for its barrier objects. -/
structure OnlyBarriers (core : Nat) (s t : State) : Prop where
  ctxs : t.ctxs = s.ctxs
  blk : ∀ b, getBlk s core = some b → ∃ bs, getBlk t core = some { b with barriers := bs }

theorem OnlyBarriers.refl (core : Nat) (s : State) : OnlyBarriers core s s := ⟨rfl, fun b h => ⟨b.barriers, h⟩⟩

theorem OnlyBarriers.trans {core : Nat} {s t u : State} (h : OnlyBarriers core s t) (k : OnlyBarriers core t u) :
    OnlyBarriers core s u := by
  refine ⟨k.ctxs.trans h.ctxs, fun b hb => ?_⟩
  obtain ⟨bs, hbs⟩ := h.blk b hb
  obtain ⟨bs', hbs'⟩ := k.blk _ hbs
  exact ⟨bs', hbs'⟩

theorem modBar_onlyBarriers (s : State) (core i : Nat) (f : Barrier → Barrier) :
    OnlyBarriers core s (modBar s core i f) :=
  ⟨rfl, fun b hb => ⟨_, by rw [modBar, getBlk_modBlk, hb, Option.map_some]⟩⟩

theorem evalBarrier_onlyBarriers (s : State) (core k i : Nat) : OnlyBarriers core s (evalBarrier s k i) := by
  unfold evalBarrier
  split
  · exact .refl core s
  · exact ⟨rfl, fun b hb => ⟨b.barriers, hb⟩⟩

theorem foldSt_onlyBarriers {α : Type} {core : Nat} {f : State → α → State} (h : ∀ s a, OnlyBarriers core s (f s a))
    (l : List α) (s : State) : OnlyBarriers core s (foldSt f s l) := by
  induction l generalizing s with
  | nil => exact .refl core s
  | cons a r ih => exact (h s a).trans (ih (f s a))

theorem evalAll_onlyBarriers (s : State) (core : Nat) : OnlyBarriers core s (evalAll s core) := by
  unfold evalAll
  split
  · exact foldSt_onlyBarriers (fun t i => evalBarrier_onlyBarriers t core core i) _ s
  · exact .refl core s

theorem reevaluate_onlyBarriers (s : State) (core : Nat) (p : Barrier → Bool) :
    OnlyBarriers core s (reevaluate s core p) := by
  unfold reevaluate
  split
  · exact (foldSt_onlyBarriers (fun t i => modBar_onlyBarriers t core i _) _ s).trans (evalAll_onlyBarriers _ core)
  · exact .refl core s

/-! ## Handles (04 R101) -/

theorem handleOf_gen (b : Block) (core : Nat) (who : Who) : (handleOf b core who).extractLsb' 27 5 = threadGen b who := by
  simp only [handleOf]
  rw [BitVec.extractLsb'_append_eq_of_le (by decide), BitVec.extractLsb'_append_eq_of_le (by decide),
    BitVec.extractLsb'_append_eq_of_le (by decide), BitVec.extractLsb'_append_eq_of_le (by decide)]
  exact BitVec.extractLsb'_eq_self

theorem handleOf_kind (b : Block) (core : Nat) (who : Who) : (handleOf b core who).getLsbD 26 = decide (who = .fe) := by
  simp only [handleOf]
  rw [BitVec.getLsbD_append, if_neg (by decide), BitVec.getLsbD_append, if_neg (by decide), BitVec.getLsbD_append,
    if_neg (by decide), BitVec.getLsbD_append, if_pos (by decide)]
  cases who with
  | fe => rfl
  | grp g =>
    rw [decide_eq_false (nofun : Who.grp g ≠ .fe)]
    exact BitVec.getLsbD_zero

/-! ## A group -/

/-- A group that has taken a fault of split k, but for its record. -/
def faultedGroup (r : Group) (k : Nat) (code : Byte) (pc restart : Word) : Group :=
  { r with
    run := .faulted, gen := r.gen + 1, fault := faultWord pc (r.gen + 1) k code, undone := openPrefixes r
    splits := tmod k (fun x => { x with pc := restart }) (r.splits.map fun e => (e.1, toUnitStart e.2)) }

/-- The faulting split stands at its restart PC with its lanes. -/
theorem faultedGroup_split {r : Group} {k : Nat} {x : Split} (h : tfind k r.splits = some x) (code : Byte)
    (pc restart : Word) : tfind k (faultedGroup r k code pc restart).splits = some { toUnitStart x with pc := restart } := by
  rw [faultedGroup, tfind_tmod_same, tfind_map, h]
  rfl

/-- The state in which a fault of group r makes its record. -/
def faultedAt (s : State) (core g k : Nat) (r : Group) (code : Byte) (pc restart : Word) : State :=
  modSpl (modGrp s core g fun x =>
    { x with run := .faulted, gen := r.gen + 1, fault := faultWord pc (r.gen + 1) k code, undone := openPrefixes x
             splits := x.splits.map fun e => (e.1, toUnitStart e.2) }) core g k fun x => { x with pc := restart }

theorem getBlk_faultedAt {s : State} {core g : Nat} {b : Block} {r : Group} (hb : getBlk s core = some b)
    (hr : tfind g b.groups = some r) (k : Nat) (code : Byte) (pc restart : Word) :
    ∃ gs, getBlk (faultedAt s core g k r code pc restart) core = some { b with groups := gs } ∧
      tfind g gs = some (faultedGroup r k code pc restart) := by
  rw [faultedAt, modSpl, getBlk_modGrp, getBlk_modGrp, hb]
  refine ⟨_, rfl, ?_⟩
  rw [tfind_tmod_same, tfind_tmod_same, hr]
  rfl

/-- The record of a fault of group r, of block b. -/
def groupRecord (s : State) (core g k : Nat) (b : Block) (r : Group) (kind code : Byte) (pc restart : Word)
    (addr : DWord) (bar : BitVec 16) (detail : Word) (skid : Byte) : FaultRec :=
  { blockRecord s core b (.grp g) code kind with
    restart := restart, pc := pc, addr := addr, detail := detail, skid := skid
    lanes := ((r.splits.find? fun e => e.1 = k).map fun e => e.2.lanes).getD 0
    barrier := bar, thread := some ⟨core, .grp g⟩ }

theorem groupRecord_lanes {r : Group} {k : Nat} {x : Split} (h : tfind k r.splits = some x) (s : State) (core g : Nat)
    (b : Block) (kind code : Byte) (pc restart : Word) (addr : DWord) (bar : BitVec 16) (detail : Word) (skid : Byte) :
    (groupRecord s core g k b r kind code pc restart addr bar detail skid).lanes = x.lanes := by
  rw [groupRecord, find?_key_map, h]
  rfl

theorem groupFault_eq {s : State} {core g : Nat} {b : Block} {r : Group} (hr : getGrp s core g = some r) (k : Nat)
    (kind code : Byte) (pc restart : Word) (addr : DWord) (bar : BitVec 16) (detail : Word) (skid : Byte)
    (hb : getBlk (faultedAt s core g k r code pc restart) core = some b) :
    let u := faultedAt s core g k r code pc restart
    let rec_ := groupRecord u core g k b r kind code pc restart addr bar detail skid
    groupFault s core g k kind code pc restart addr bar detail skid =
      reevaluate (queueRecord (modGrp u core g fun x => { x with lastRec := some rec_ }) b.ctx rec_) core
        fun o => isMember o (.grp g) := by
  unfold faultedAt at hb
  simp only [groupFault, hr, hb]
  rfl

/-- What a fault of a group leaves: the group with its record, and the record at the end of those of its context. -/
theorem groupFault_taken {s : State} {core g : Nat} {b : Block} {r : Group} (hb : getBlk s core = some b)
    (hr : tfind g b.groups = some r) (k : Nat) (kind code : Byte) (pc restart : Word) (addr : DWord) (bar : BitVec 16)
    (detail : Word) (skid : Byte) :
    let t := groupFault s core g k kind code pc restart addr bar detail skid
    ∃ gs, tfind g gs = some (faultedGroup r k code pc restart) ∧
      let rec_ := groupRecord (faultedAt s core g k r code pc restart) core g k { b with groups := gs } r kind code pc
        restart addr bar detail skid
      getGrp t core g = some { faultedGroup r k code pc restart with lastRec := some rec_ } ∧
      (getCtx t b.ctx).pending = (getCtx s b.ctx).pending ++ [rec_] := by
  intro t
  obtain ⟨gs, hgs, hg⟩ := getBlk_faultedAt hb hr k code pc restart
  refine ⟨gs, hg, ?_⟩
  intro rec_
  have ht := groupFault_eq (show getGrp s core g = some r by rw [getGrp, hb]; exact hr) k kind code pc restart addr bar
    detail skid hgs
  obtain ⟨hctx, hblk⟩ := ht ▸ reevaluate_onlyBarriers _ core _
  constructor
  · obtain ⟨bs, hbs⟩ := hblk _ (by rw [getBlk_queueRecord, getBlk_modGrp, hgs]; rfl)
    rw [getGrp, hbs]
    exact (tfind_tmod_same g _ gs).trans (by rw [hg]; rfl)
  · rw [getCtx, hctx]
    exact getCtx_queueRecord _ b.ctx rec_

/-! ## A front-end -/

/-- A front-end that has taken a fault, but for its record. -/
def faultedFe (e : FrontEnd) (f : Flt) : FrontEnd :=
  { e with
    run := .faulted, gen := e.gen + 1, fault := faultWord e.pc (e.gen + 1) 0 f.code, pre := {}, clause := none, held := 0
    pc := if f.next then e.pc + 4 else unitStart e.pre e.pc }

/-- The record of a fault of the front-end of block b: its PCs are those at which the fault finds the front-end, its handle
that of the front-end after the fault. -/
def feRecord (s : State) (core : Nat) (b : Block) (f : Flt) : FaultRec :=
  { blockRecord s core { b with fe := faultedFe b.fe f } .fe f.code 0 with
    restart := if f.next then b.fe.pc + 4 else unitStart b.fe.pre b.fe.pc, pc := b.fe.pc, addr := f.addr
    detail := f.detail, barrier := f.bar, thread := some ⟨core, .fe⟩ }

theorem feFault_eq {s : State} {core : Nat} {b : Block} (hb : getBlk s core = some b) (f : Flt) :
    let u := modFe s core fun e =>
      { e with run := .faulted, gen := b.fe.gen + 1, fault := faultWord b.fe.pc (b.fe.gen + 1) 0 f.code
               pc := if f.next then b.fe.pc + 4 else unitStart b.fe.pre b.fe.pc, pre := {}, clause := none, held := 0 }
    feFault s core f = reevaluate (queueRecord (modFe u core fun e => { e with lastRec := some (feRecord u core b f) })
      b.ctx (feRecord u core b f)) core fun o => isMember o .fe := by
  intro u
  have hu : getBlk u core = some { b with fe := faultedFe b.fe f } := by rw [getBlk_modFe, hb]; rfl
  simp only [feFault, hb]
  rw [show getBlk (modFe s core _) core = _ from hu]
  rfl

/-- What a fault of a front-end leaves: its block but for the barrier objects, and a record at the end of those of its
context. -/
theorem feFault_taken {s : State} {core : Nat} {b : Block} (hb : getBlk s core = some b) (f : Flt) :
    let t := feFault s core f
    ∃ u rec_ bs, rec_ = feRecord u core b f ∧
      getBlk t core = some { b with fe := { faultedFe b.fe f with lastRec := some rec_ }, barriers := bs } ∧
      (getCtx t b.ctx).pending = (getCtx s b.ctx).pending ++ [rec_] := by
  intro t
  obtain ⟨hctx, hblk⟩ := feFault_eq hb f ▸ reevaluate_onlyBarriers _ core _
  obtain ⟨bs, hbs⟩ := hblk _ (by rw [getBlk_queueRecord, getBlk_modFe, getBlk_modFe, hb]; rfl)
  refine ⟨_, _, bs, rfl, hbs, ?_⟩
  rw [getCtx, hctx]
  exact getCtx_queueRecord _ b.ctx _

/-- Settles O7: a fault changes its thread and adds one record to its context; the evaluation of the barrier objects that
follows touches neither. -/
theorem preciseFaultIsTaken : Obligations.PreciseFaultIsTaken := by
  unfold Obligations.PreciseFaultIsTaken
  constructor
  · intro s c f hc t restart
    have hi := splitIssues_of_groupCtx hc
    obtain ⟨gs, hg, hgrp, hpend⟩ := groupFault_taken hi.blk hi.grp c.k 0 f.code c.spl.pc restart f.addr f.bar f.detail 0
    refine ⟨⟨_, _, hgrp, rfl, rfl, rfl, rfl, rfl, rfl, rfl, faultedGroup_split hi.spl f.code c.spl.pc restart, rfl, rfl⟩,
      _, hpend, rfl, rfl, rfl, rfl, rfl, groupRecord_lanes hi.spl .., rfl, rfl, ?gen, handleOf_kind ..⟩
    case gen =>
      refine (handleOf_gen ..).trans ?_
      rw [threadGen, hg]
      rfl
  · intro s c f hc t restart
    obtain ⟨u, rec_, bs, rfl, hblk, hpend⟩ := feFault_taken (getBlk_of_feCtx hc).1 f
    exact ⟨⟨_, hblk, rfl, rfl, rfl, rfl, rfl, rfl, rfl⟩, _, hpend, rfl, rfl, rfl, rfl, rfl, handleOf_kind ..⟩

end Sys2Proof.Machine
end

section
namespace Sys2Proof.Machine

/-! # The scalar register that reads zero (03 R68, R69) -/

/-- Settles O13: register 0 is read and written apart from the table of the others. -/
theorem scalarZeroIsHardwired : Obligations.ScalarZeroIsHardwired := by
  unfold Obligations.ScalarZeroIsHardwired
  refine ⟨fun c => rfl, fun c => rfl, fun s core v => rfl, fun s core v => rfl, ?_⟩
  intro s core n m v b hn hb hwf
  refine ⟨{ b with fe := { b.fe with regs := tputD 0 n v b.fe.regs } }, ?_, ?_, ?_⟩
  · rw [writeS, if_neg hn, getBlk_modFe, hb, Option.map_some]
  · rw [sregOf, if_neg hn, tgetD_tputD_same 0 n v hwf]
  · intro hm
    rw [sregOf, sregOf, tgetD_tputD_other 0 v hm]

end Sys2Proof.Machine
end

section
namespace Sys2Proof.Machine

/-! # The hints (03 R75, R77 to R81) -/

/-- A mask whose flags all read zero has none up. -/
theorem flagsUp_eq_false {t : Table Nat} {w : BitVec 12} (h : ∀ i, i < 12 → w.getLsbD i = true → tgetD 0 i t = 0) :
    flagsUp t w = false := by
  simp only [flagsUp, List.any_eq_false, decide_eq_true_eq]
  intro i hi
  obtain ⟨lo, hw⟩ := List.mem_filter.mp hi
  rw [h i (List.mem_range.mp lo) hw]
  exact Nat.lt_irrefl 0

/-! ## LIT and MOD -/

section hints
variable {s : State}

/-- A LIT or MOD has joined the unit of the issuing split: the word is counted, and the unit goes on (03 R77). -/
def prefixedGrp (s : State) (c : GC) (add : Pre → Pre) : State :=
  modGrp s c.core c.g fun q => { q with
    issued := q.issued + 1
    splits := tmod c.k (fun x => { x with
      pre := joinUnit (add x.pre) c.spl.pc, pc := c.spl.pc + 4, clause := clauseTick x.clause, held := 0 }) q.splits }

/-- A LIT or MOD has joined the unit of the issuing front-end. -/
def prefixedFe (s : State) (c : FC) (add : Pre → Pre) : State :=
  modFe s c.core fun e => { e with
    pre := joinUnit (add e.pre) c.blk.fe.pc, pc := c.blk.fe.pc + 4, issued := e.issued + 1
    clause := clauseTick e.clause, held := 0 }

section joins
variable {dup : Pre → Bool} {add : Pre → Pre}

theorem prefixWord_grp {c : GC} (hc : groupCtx s = some c) (h : dup c.spl.pre = false) :
    prefixWord s dup add = .next (prefixedGrp s c add) := by
  rw [prefixWord, instr_grp hc (.inl rfl), h, chk_false, chk_nil, endGrp_whole, prefixedGrp]

theorem prefixWord_grp_dup {c : GC} (hc : groupCtx s = some c) (h : dup c.spl.pre = true) :
    prefixWord s dup add = .next (faultGrp s c { code := cILLEGAL }) := by
  rw [prefixWord, instr_grp hc (.inl rfl), h, chk_true, endGrp_fault]

theorem prefixWord_fe {c : FC} (hc : feCtx s = some c) (h : dup c.blk.fe.pre = false) :
    prefixWord s dup add = .next (prefixedFe s c add) := by
  rw [prefixWord, instr_fe hc (.inl rfl), h, chk_false, chk_nil, endFe_whole, prefixedFe]

end joins

section group
variable {c : GC} (hc : groupCtx s = some c)
include hc

theorem execLit_grp (p : BitVec 24) (h : c.spl.pre.lit = none) :
    execLit p s = .next (prefixedGrp s c fun x => { x with lit := some p }) :=
  prefixWord_grp hc (by rw [h]; rfl)

theorem execLit_grp_again (p : BitVec 24) (h : c.spl.pre.lit ≠ none) :
    execLit p s = .next (faultGrp s c { code := cILLEGAL }) :=
  prefixWord_grp_dup hc (Option.isSome_iff_ne_none.mpr h)

theorem execMod_grp (n m : BitVec 1) (r : BitVec 2) (h : c.spl.pre.mod = none) :
    execMod n m r s = .next (prefixedGrp s c fun x => { x with mod := some ((0 : BitVec 20) ++ n ++ m ++ r) }) :=
  prefixWord_grp hc (by rw [h]; rfl)

theorem execMod_grp_again (n m : BitVec 1) (r : BitVec 2) (h : c.spl.pre.mod ≠ none) :
    execMod n m r s = .next (faultGrp s c { code := cILLEGAL }) :=
  prefixWord_grp_dup hc (Option.isSome_iff_ne_none.mpr h)

end group

section frontEnd
variable {c : FC} (hc : feCtx s = some c)
include hc

theorem execLit_fe (p : BitVec 24) (h : c.blk.fe.pre.lit = none) :
    execLit p s = .next (prefixedFe s c fun x => { x with lit := some p }) :=
  prefixWord_fe hc (by rw [h]; rfl)

theorem execMod_fe (n m : BitVec 1) (r : BitVec 2) (h : c.blk.fe.pre.mod = none) :
    execMod n m r s = .next (prefixedFe s c fun x => { x with mod := some ((0 : BitVec 20) ++ n ++ m ++ r) }) :=
  prefixWord_fe hc (by rw [h]; rfl)

end frontEnd

/-! ## The other hints -/

section group
variable {c : GC} (hc : groupCtx s = some c)
include hc

theorem execIllegalEncoding_grp (w : BitVec 32) : execIllegalEncoding w s = .next (faultGrp s c { code := cILLEGAL }) := by
  rw [execIllegalEncoding, instr_grp hc (.inl rfl), endGrp_fault]

variable (hl : c.spl.pre.lit = none)
include hl

theorem execDefinedHint_grp (w : BitVec 32) : execDefinedHint w s = .next (retireGrp s c) := by
  rw [execDefinedHint, instr_grp hc (.inr hl), endGrp_retire]

theorem execPrio_grp (l : BitVec 2) : execPrio l s =
    .next (retireGrp (modGrp s c.core c.g fun q => { q with prio := if l = 3 then 0 else l }) c) := by
  rw [execPrio, instr_grp hc (.inr hl), endGrp_retire]

/-- A CLAUSE without words is ILLEGAL. -/
theorem execClause_grp_empty (w : BitVec 12) (a b : BitVec 4) :
    execClause w 0 a b s = .next (faultGrp s c { code := cILLEGAL }) := by
  rw [execClause, instr_grp hc (.inr hl)]
  rfl

/-- A CLAUSE whose flags are down opens its clause. -/
theorem execClause_grp {w : BitVec 12} {l : BitVec 4} (a b : BitVec 4) (h0 : l ≠ 0)
    (hw : flagsUp c.grp.flags w = false) :
    execClause w l a b s = .next (retireGrp (onSplit s c fun x =>
      { x with clause := some { newClause l a b with left := l.toNat + 1 } }) c) := by
  rw [execClause, instr_grp hc (.inr hl), decide_eq_false h0, hw]
  rfl

end group

section frontEnd
variable {c : FC} (hc : feCtx s = some c)
include hc

theorem execIllegalEncoding_fe (w : BitVec 32) :
    execIllegalEncoding w s = .next (feFault s c.core { code := cILLEGAL }) := by
  rw [execIllegalEncoding, instr_fe hc (.inl rfl), endFe_fault]

variable (hl : c.blk.fe.pre.lit = none)
include hl

theorem execDefinedHint_fe (w : BitVec 32) : execDefinedHint w s = .next (retireFe s c) := by
  rw [execDefinedHint, instr_fe hc (.inr hl), endFe_retire]

theorem execPrio_fe (l : BitVec 2) : execPrio l s = .next (retireFe s c) := by
  rw [execPrio, instr_fe hc (.inr hl), endFe_retire]

/-- A CLAUSE whose flags are down opens its clause. -/
theorem execClause_fe {w : BitVec 12} {l : BitVec 4} (a b : BitVec 4) (h0 : l ≠ 0)
    (hw : flagsUp c.blk.fe.flags w = false) :
    execClause w l a b s = .next (retireFe (modFe s c.core fun e =>
      { e with clause := some { newClause l a b with left := l.toNat + 1 } }) c) := by
  rw [execClause, instr_fe hc (.inr hl), decide_eq_false h0, hw]
  rfl

end frontEnd

end hints

/-- Settles O27: a LIT or a MOD joins the unit or is a second one; the other hints retire unless a LIT precedes them. -/
theorem hintResults : Obligations.HintResults := by
  unfold Obligations.HintResults
  intro s w p n m r l2 wt l a b payload joined
  constructor
  · intro c hc add
    exact ⟨execLit_grp hc p, execLit_grp_again hc p, execMod_grp hc n m r, execMod_grp_again hc n m r,
      execIllegalEncoding_grp hc w, fun hl => ⟨execDefinedHint_grp hc hl w, execPrio_grp hc hl l2,
        fun h0 => h0 ▸ execClause_grp_empty hc hl wt a b,
        fun h0 hf => execClause_grp hc hl a b h0 (flagsUp_eq_false hf)⟩⟩
  · intro c hc add
    exact ⟨execLit_fe hc p, execMod_fe hc n m r, execIllegalEncoding_fe hc w, fun hl =>
      ⟨execDefinedHint_fe hc hl w, execPrio_fe hc hl l2,
        fun h0 hf => execClause_fe hc hl a b h0 (flagsUp_eq_false hf)⟩⟩

end Sys2Proof.Machine
end

section
namespace Sys2Proof.Machine

/-! # A step (03 R77, 06 R157, 07 R164) -/

/-- A step takes the head of the agenda after the cycles that pass before it. -/
theorem step_of_head {s : State} {t : Turn} (h : s.agenda.head? = some t) :
    step s = turn (tick t.dt (restOf s)) t.act := by
  obtain ⟨r, hr⟩ := List.head?_eq_some_iff.mp h
  rw [step, hr]

theorem step_idle {s : State} (h : s.agenda = []) : step s = .next (settle (tick 1 s)) := by rw [step, h]

/-! ## A turn to issue -/

/-- A word in the code and in the instruction cache, not held by a pending JSPAWN, is decoded and run. -/
theorem issueWord_run {s : State} {i : Iss} {pc w : Word} (hcode : inCode (issBlk i) pc = true)
    (hw : fetchWord s (issCore i) (issBlk i) pc = some w) (hspawn : spawnHolds s (issThread i) (decodeWord w) = false) :
    issueWord s i pc = .run (noteStep s (issCore i) (issThread i).who pc i (decodeWord w)) (decodeWord w) := by
  simp only [issueWord, hcode, hw, hspawn]
  rfl

/-- What a turn does that runs an instruction. -/
theorem issueTurn_run {s x : State} {a : Agent} {i : Instr} (h : pick s a = .run x i) :
    (∀ y, exec i x = .next y →
      issueTurn s a = .next (settle (sfuTurn x (orderedIssue x (afterIssue x y a) a i) a i))) ∧
    (∀ e, exec i x = .fault e → issueTurn s a = .fault e) := by
  constructor
  · intro y hy
    rw [issueTurn, h]
    simp only [hy, andThen]
  · intro e he
    rw [issueTurn, h]
    simp only [he, andThen]

/-- The issuing front-end runs the word at its PC, unless it is not alive, stopped, waits or has issued in this cycle. -/
theorem pickFe_run {s : State} {core : Nat} {b : Block} {c : FC} {w : Word} (hb : getBlk s core = some b)
    (hl : b.launched = true) (hr : b.fe.run = .ready ∨ b.fe.run = .active ∨ b.fe.run = .waiting)
    (hi : b.fe.issuedAt ≠ some s.clk.cycle) (hs : stopAllows b .fe b.fe.stopped (atBoundary b.fe.pre) true = true)
    (hwait : b.fe.wait = .none) (hc : feCtx s = some c) (hcore : s.cur.core = core)
    (hcode : inCode c.blk c.blk.fe.pc = true) (hw : fetchWord s core c.blk c.blk.fe.pc = some w)
    (hspawn : spawnHolds s ⟨core, .fe⟩ (decodeWord w) = false) :
    pickFe s core = .run (noteStep s core .fe c.blk.fe.pc (.fe c) (decodeWord w)) (decodeWord w) := by
  obtain rfl : c.core = core := (getBlk_of_feCtx hc).2.symm.trans hcore
  have live : (decide (b.fe.run = .ready) || decide (b.fe.run = .active) || decide (b.fe.run = .waiting)) = true := by
    simpa [or_assoc] using hr
  simp only [pickFe, hb, hl, live, hi, hs, hwait, hc]
  exact issueWord_run (i := .fe c) hcode hw hspawn

/-- A split that comes first in its partition and its group runs the word at its PC. -/
theorem issueSplit_run {s : State} {b : Block} {c : GC} {w : Word} (hbusy : c.spl.busyUntil ≤ s.clk.cycle)
    (hheld : groupHeld s c.core c.g c.grp = false)
    (hfirst : stepped b (.grp c.g) = true ∨ (groupLoses s c.core c.g b c.grp = false ∧ splitLoses s c.k c.grp = false))
    (hcode : inCode c.blk c.spl.pc = true) (hw : fetchWord s c.core c.blk c.spl.pc = some w)
    (hspawn : spawnHolds s ⟨c.core, .grp c.g⟩ (decodeWord w) = false) :
    issueSplit s b c = .run (noteStep s c.core (.grp c.g) c.spl.pc (.grp c) (decodeWord w)) (decodeWord w) := by
  have wins : (!stepped b (.grp c.g) && (groupLoses s c.core c.g b c.grp || splitLoses s c.k c.grp)) = false := by
    rcases hfirst with h | ⟨h, h'⟩
    · rw [h]; rfl
    · rw [h, h', Bool.or_self, Bool.and_false]
  simp only [issueSplit, Nat.not_lt.mpr hbusy, hheld, wins]
  exact issueWord_run (i := .grp c) hcode hw hspawn

/-- The unit of split k is at its first word; a split that does not exist stands there too. -/
def splitAtStart (k : Nat) (r : Group) : Bool :=
  match tfind k r.splits with
  | some x => atBoundary x.pre
  | none => true

/-- The turn of an admitted group that runs, is not stopped and does not wait is that of its split. -/
theorem pickGroup_issueSplit {s : State} {core g k : Nat} {b : Block} {r : Group} {c : GC} (hb : getBlk s core = some b)
    (hr : tfind g b.groups = some r) (hl : b.launched = true) (hrun : r.run = .active)
    (hs : stopAllows b (.grp g) r.stopped (splitAtStart k r) (grpAtBoundary r) = true)
    (hadm : r.admitted + 4 ≤ s.clk.cycle) (hthr : throttled s core = false)
    (hc : groupCtx (modGrp s core g mergeSplits) = some c) (hwait : c.spl.wait = .none) :
    pickGroup s core g k = issueSplit (modGrp s core g mergeSplits) b c := by
  have hstop : (!b.launched || !stopAllows b (.grp g) r.stopped (splitAtStart k r) (grpAtBoundary r)) = false := by
    rw [hl, hs]
    rfl
  unfold pickGroup
  simp only [hb, hr]
  refine (if_neg fun h => Bool.false_ne_true (hstop.symm.trans h)).trans ?_
  simp only [hrun, Nat.not_lt.mpr hadm, hthr, hc, hwait]
  rfl

/-! ## The order of a cycle -/

/-- A list of ranks of which none is that of an event that comes about once only. -/
def Repeatable (rs : List Rank) : Prop := ∀ r ∈ rs, r.once = false

@[simp] theorem repeatable_nil : Repeatable [] := nofun

@[simp] theorem repeatable_cons (r : Rank) (rs : List Rank) : Repeatable (r :: rs) ↔ r.once = false ∧ Repeatable rs :=
  List.forall_mem_cons

@[simp] theorem repeatable_append (rs qs : List Rank) : Repeatable (rs ++ qs) ↔ Repeatable rs ∧ Repeatable qs :=
  List.forall_mem_append

@[simp] theorem repeatable_map {α : Type} (f : α → Rank) (l : List α) :
    Repeatable (l.map f) ↔ ∀ a ∈ l, (f a).once = false := List.forall_mem_map

@[simp] theorem repeatable_ite (p : Prop) [Decidable p] (rs qs : List Rank) :
    Repeatable (if p then rs else qs) ↔ if p then Repeatable rs else Repeatable qs := by
  split <;> rfl

theorem agentRanks_repeatable (s t : State) (a : Agent) : Repeatable (agentRanks s t a) := by
  unfold agentRanks freedRanks leftRanks joinRanks
  split <;> simp

theorem objectRanks_repeatable (s t : State) (rank : Nat) : Repeatable (objectRanks s t rank) := by simp [objectRanks]

theorem namedRanks_repeatable (a : Agent) (i : Instr) : Repeatable (namedRanks a i) := by
  unfold namedRanks
  split <;> simp

theorem issueRanks_repeatable (s t : State) (a : Agent) (i : Instr) : Repeatable (issueRanks s t a i) := by
  unfold issueRanks
  split <;> simp

/-- A cycle that has seen nothing yet precludes no turn whose ranks may repeat. -/
theorem ordered_first {s : State} {rs : List Rank} (t : State) (hd : s.done = []) (h : Repeatable rs) :
    ordered s t rs = { t with done := (rs.foldl noteRank t).done } := by
  have may : rs.all (mayRank s) = true := List.all_eq_true.mpr fun r hr => by
    simp [mayRank, hd, h r hr, tgetD, tfind]
  rw [ordered_pass t may, noteRanks_eq]

/-- In a cycle that has seen nothing yet the turn of an instruction comes about as a whole. -/
theorem orderedIssue_first {s : State} (t : State) (a : Agent) {i : Instr} (hd : s.done = [])
    (he : readsEnergy i = false ∨ pondDue s = false) : ∃ d, orderedIssue s t a i = { t with done := d } := by
  have due : (readsEnergy i && pondDue s) = false := by
    rcases he with h | h
    · rw [h, Bool.false_and]
    · rw [h, Bool.and_false]
  have own := agentRanks_repeatable s t a
  have named := namedRanks_repeatable a i
  have objects := objectRanks_repeatable s t (objectRank i)
  unfold orderedIssue
  simp only [due]
  split
  · exact ⟨_, ordered_first t hd (by simp [own, issueRanks_repeatable s t a i, named, objects])⟩
  · split
    · exact ⟨_, ordered_first t hd (by simp [own, named, objects])⟩
    · exact ⟨t.done, rfl⟩

/-! ## The special-function unit (09 R237) -/

/-- What the unit makes of an issue of one of its instructions. -/
theorem sfuTurn_sfu {s t : State} {core g k : Nat} {i : Instr} {b : Block} (hb : getBlk s core = some b)
    (hi : sfuCycles i ≠ 0) (h : hasIssued s t ⟨core, .grp g, k⟩ = true) : sfuTurn s t ⟨core, .grp g, k⟩ i =
      if sfuAccepts s core (g % 4) b then
        modBlk t core fun b => { b with sfuFree := s.clk.cycle + sfuCycles i, sfuLast := g % 4 }
      else modSpl s core g k fun x =>
        { x with held := 8, heldAt := s.clk.cycle, since := if x.held = 8 then x.since else s.clk.cycle } := by
  simp only [sfuTurn, hb, h, decide_eq_false hi]
  rfl

/-- A free unit accepts an instruction when no partition presents one before it. -/
theorem sfuAccepts_free {s : State} {core : Nat} {b : Block} (part : Nat) (hf : b.sfuFree ≤ s.clk.cycle)
    (h : ∀ q, q < 4 → presents s core q = false) : sfuAccepts s core part b = true := by
  simp only [sfuAccepts, decide_eq_true hf, Bool.true_and, List.all_eq_true]
  intro q hq
  rw [h q (List.mem_range.mp hq), Bool.not_false, Bool.or_true]

/-- A busy unit accepts nothing. -/
theorem sfuAccepts_busy {s : State} {b : Block} (core part : Nat) (hf : s.clk.cycle < b.sfuFree) :
    sfuAccepts s core part b = false := by
  rw [sfuAccepts, decide_eq_false (Nat.not_le.mpr hf), Bool.false_and]

/-! ## Cycles -/

/-- A cycle begins with nothing done in it. -/
theorem tick_succ_done (n : Nat) (s : State) : (tick (n + 1) s).done = [] := by
  induction n generalizing s with
  | zero => rfl
  | succ n ih => exact ih (cyclePass s)

/-! ## The turns that are no instruction -/

theorem turn_event {s u : State} {i : Instr} (he : encode i = []) (hu : exec i s = .next u) :
    turn s (.event i) = .next (settle (orderedEvent s (withWalks s u) i)) := by
  have hocc : isOccurrence i = true := List.isEmpty_iff.mpr he
  simp only [turn, eventTurn, hocc, hu]
  rfl

theorem turn_event_encoded {s : State} {i : Instr} (he : encode i ≠ []) : turn s (.event i) = .next s := by
  have hocc : isOccurrence i = false := List.isEmpty_eq_false_iff.mpr he
  simp only [turn, eventTurn, hocc]
  rfl

theorem turn_credit {s u : State} {id : Nat} (hu : landCredit id s = .next u) :
    turn s (.credit id) = .next (settle (orderedCredit s u)) := by
  simp only [turn, hu, andThen]

/-! ## The turns of threads -/

theorem pick_frontEnd {a : Agent} (s : State) (h : a.who = .fe) : pick s a = pickFe { s with cur := a } a.core := by
  rw [pick, h]

theorem pick_group {a : Agent} {g : Nat} (s : State) (h : a.who = .grp g) :
    pick s a = pickGroup { s with cur := a } a.core g a.split := by
  rw [pick, h]

/-- A step whose turn picks an instruction runs it. -/
theorem step_run {s x : State} {t : Turn} {a : Agent} {i : Instr} (ht : s.agenda.head? = some t)
    (ha : t.act = .issue a) (h : pick (tick t.dt (restOf s)) a = .run x i) :
    (∀ y, exec i x = .next y →
      step s = .next (settle (sfuTurn x (orderedIssue x (afterIssue x y a) a i) a i))) ∧
    (∀ e, exec i x = .fault e → step s = .fault e) := by
  rw [step_of_head ht, ha]
  exact issueTurn_run h

/-- Settles O3: what each kind of turn does, the order of its cycle, and the special-function unit. -/
theorem stepRunsDecodedInstruction : Obligations.StepRunsDecodedInstruction := by
  unfold Obligations.StepRunsDecodedInstruction
  refine ⟨?issue, ⟨fun s => step_idle, ?event, ?encoded, ?reset, ?evict, ?upset, ?upsetCopy, ?upsetBuffer, ?upsetMeta,
    ?credit, ?sideBand⟩, fun s t a i => orderedIssue_first t a, fun s t a i => sfuTurn_other s t a, ?sfu,
    fun s n => tick_succ_done n s⟩
  case issue =>
    intro s t a ht ha u runs
    constructor
    · intro b c w hwho hb hl hr hi hs hwait hc hcode hw hspawn
      refine step_run ht ha ((pick_frontEnd _ hwho).trans ?_)
      rw [hwho]
      exact pickFe_run hb hl hr hi hs hwait hc rfl hcode hw hspawn
    · intro g b r c w hwho hb hr hl hrun hs hadm hthr v hc hwait hbusy hheld hfirst hcode hw hspawn
      obtain ⟨-, -, -, hcore, hg, hk⟩ := splitIssues_of_groupCtx hc
      obtain ⟨core, g', k, blk, grp, spl⟩ := c
      obtain rfl : a.core = core := hcore
      obtain rfl : a.split = k := hk
      obtain rfl : g = g' := Who.grp.inj (hwho.symm.trans hg)
      refine step_run ht ha ((pick_group _ hwho).trans ?_)
      rw [pickGroup_issueSplit hb hr hl hrun hs hadm hthr hc hwait, hwho]
      exact issueSplit_run hbusy hheld hfirst hcode hw hspawn
  case event =>
    intro s t i u ht ha he v hu
    rw [step_of_head ht, ha, turn_event he hu]
  case encoded =>
    intro s t i ht ha he
    rw [step_of_head ht, ha, turn_event_encoded he]
  case reset =>
    intro s t ht ha v
    rw [step_of_head ht, ha, turn]
  case evict =>
    intro s t d v k ht ha
    rw [step_of_head ht, ha, turn]
  case upset =>
    intro s t l ht ha
    rw [step_of_head ht, ha, turn]
  case upsetCopy =>
    intro s t d k i ht ha
    rw [step_of_head ht, ha, turn]
  case upsetBuffer =>
    intro s t k i ht ha
    rw [step_of_head ht, ha, turn]
  case upsetMeta =>
    intro s t n ht ha
    rw [step_of_head ht, ha, turn]
  case credit =>
    intro s t id u ht ha v hu
    rw [step_of_head ht, ha, turn_credit hu]
  case sideBand =>
    intro s t ras ht ha
    rw [step_of_head ht, ha, turn]
  case sfu =>
    intro s t core g k i b hb hi h
    rw [sfuTurn_sfu hb hi h]
    exact ⟨fun hf hp => if_pos (sfuAccepts_free (g % 4) hf hp),
      fun hf => if_neg (by rw [sfuAccepts_busy core (g % 4) hf]; exact Bool.false_ne_true)⟩

end Sys2Proof.Machine
end

section
namespace Sys2Proof.Machine

/-! # Events and folds -/

theorem event_due {s t : State} {due : Bool} (h : due = true) : event s due t = .next t := if_pos h

theorem event_not_due {s t : State} {due : Bool} (h : due = false) : event s due t = .next s :=
  if_neg (ne_true_of_eq_false h)

/-- What one step of a fold establishes and every step keeps holds after the fold. -/
theorem foldSt_establishes {σ α : Type} {f : σ → α → σ} {P : σ → Prop} {a : α} (keep : ∀ s b, P s → P (f s b))
    (make : ∀ s, P (f s a)) {l : List α} {s : σ} (h : P s ∨ a ∈ l) : P (foldSt f s l) := by
  induction l generalizing s with
  | nil => exact h.resolve_right List.not_mem_nil
  | cons b r ih =>
    refine ih ?_
    rcases h with hs | ha
    · exact .inl (keep s b hs)
    · rcases List.mem_cons.mp ha with rfl | hr
      · exact .inl (make s)
      · exact .inr hr

/-- A component that no step of a fold changes is as before. -/
theorem foldSt_frame {σ α β : Type} {f : σ → α → σ} (p : σ → β) (h : ∀ s a, p (f s a) = p s) (l : List α) (s : σ) :
    p (foldSt f s l) = p s := by
  induction l generalizing s with
  | nil => rfl
  | cons a r ih => rw [foldSt, ih, h]

/-- Related states stay related through a fold whose every step relates. -/
theorem foldSt_rel {σ α : Type} {f : σ → α → σ} {R : σ → σ → Prop} (refl : ∀ s, R s s)
    (trans : ∀ {s t u}, R s t → R t u → R s u) (h : ∀ s a, R s (f s a)) (l : List α) (s : σ) : R s (foldSt f s l) := by
  induction l generalizing s with
  | nil => exact refl s
  | cons a r ih => exact trans (h s a) (ih (f s a))

end Sys2Proof.Machine
end

section
namespace Sys2Proof.Machine

/-! # System registers (04 R105 to R107) -/

/-! ## What a write does -/

theorem sysWrite_mode (s : State) (core : Nat) (v : DWord) : sysWrite s core 0x009 v = { s with mode := v &&& 0x7F } := rfl

/-- SY.L2SPLIT takes its four bits while no change is under way (01 R20). -/
theorem sysWrite_l2split (s : State) (core : Nat) (v : DWord) : sysWrite s core 0x00D v = modDie s (coreDie core) fun x =>
    if x.busy then x else { x with vways := v.truncate 4, busy := waysOf (v.truncate 4) ≠ x.active } := rfl

/-- The registers below the watchpoints are read-only but for SY.MODE and SY.L2SPLIT. -/
theorem sysWrite_readOnly {n : Nat} (s : State) (core : Nat) (v : DWord) (h9 : n ≠ 0x009) (hD : n ≠ 0x00D)
    (hn : n < 0x010) : sysWrite s core n v = s := by
  rw [sysWrite, if_neg h9, if_neg hD, if_neg (by simp; omega)]

/-- A watchpoint keeps the fields of 17 R408. -/
theorem sysWrite_watch {n : Nat} (s : State) (core : Nat) (v : DWord) (h0 : 0x010 ≤ n) (h1 : n ≤ 0x017) :
    sysWrite s core n v =
      modBlk s core fun b => { b with watch := tputD 0 (n - 0x010) (v &&& 0xFBFFFFFFFFFFFFF8) b.watch } := by
  have slot : n - 0x010 < 8 := by omega
  rw [sysWrite, if_neg (by omega), if_neg (by omega), if_pos (by simp; omega)]
  simp only [writeDebug, if_pos slot]

/-- The trigger keeps the fields of 17 R416, and REC only with EN. -/
theorem sysWrite_trigger (s : State) (core : Nat) (v : DWord) : sysWrite s core 0x018 v = modBlk s core fun b =>
    { b with trig := (v &&& 0x80FFCFE0FE000000) ||| (if v.getLsbD 63 then b.trig &&& 1 else 0) } := rfl

/-! ## The front-end -/

section frontEnd
variable {s : State} {c : FC} {n : BitVec 18}

theorem execSmfsy_reads {d : BitVec 6} (h : FrontEndIssues s c [d.toNat]) (hn : (imm18 (feLit c) n).toNat ≤ 0x018) :
    execSmfsy d n s = .next (retireFe (writeS s c.core d.toNat
      (sysCommon s c.core c.blk c.blk.fe.fault (imm18 (feLit c) n).toNat)) c) := by
  simp only [execSmfsy, feInstr_run h.issuing (.inl rfl), h.ready, decide_eq_false (Nat.not_lt.mpr hn), chk_false]
  rfl

theorem execSmfsy_illegal {d : BitVec 6} (h : FrontEndIssues s c [d.toNat]) (hn : 0x018 < (imm18 (feLit c) n).toNat) :
    execSmfsy d n s = .next (feFault s c.core { code := cILLEGAL }) := by
  simp only [execSmfsy, feInstr_run h.issuing (.inl rfl), h.ready, decide_eq_true hn, chk_true]
  rfl

variable {a : BitVec 6} (h : FrontEndIssues s c [a.toNat])
include h

theorem execSmtsy_illegal (hn : 0x018 < (imm18 (feLit c) n).toNat) :
    execSmtsy a n s = .next (feFault s c.core { code := cILLEGAL }) := by
  simp only [execSmtsy, feInstr_run h.issuing (.inl rfl), h.ready, decide_eq_true hn, chk_true]
  rfl

/-- SY.MODE and SY.L2SPLIT are written by privileged contexts only. -/
theorem execSmtsy_unprivileged (hn : (imm18 (feLit c) n).toNat = 0x009 ∨ (imm18 (feLit c) n).toNat = 0x00D)
    (hp : privileged s c.core = false) : execSmtsy a n s = .next (feFault s c.core { code := cPRIVILEGE }) := by
  have legal : ¬ 0x018 < (imm18 (feLit c) n).toNat := by omega
  simp only [execSmtsy, feInstr_run h.issuing (.inl rfl), h.ready, decide_eq_false legal, chk_false, hp, Bool.not_false,
    Bool.and_true, ← Bool.decide_or, decide_eq_true hn, chk_true]
  rfl

/-- A write of a number that is listed, by a context that may write it. -/
theorem execSmtsy_writes {num : Nat} (hnum : (imm18 (feLit c) n).toNat = num) (hn : num ≤ 0x018)
    (hp : num = 0x009 ∨ num = 0x00D → privileged s c.core = true) :
    execSmtsy a n s = .next (retireFe (sysWrite s c.core num (sreg c a.toNat)) c) := by
  have allowed : (decide (num = 0x009 ∨ num = 0x00D) && !privileged s c.core) = false := by
    by_cases hr : num = 0x009 ∨ num = 0x00D
    · rw [hp hr, Bool.not_true, Bool.and_false]
    · rw [decide_eq_false hr, Bool.false_and]
  simp only [execSmtsy, feInstr_run h.issuing (.inl rfl), h.ready, hnum, decide_eq_false (Nat.not_lt.mpr hn),
    ← Bool.decide_or, allowed, chk_false, chk_nil]
  rfl

end frontEnd

/-! ## Groups -/

section group
variable {s : State} {c : GC} {g : BitVec 3} {d : BitVec 7} {h clr : BitVec 1} {n : BitVec 12}

theorem halfOf_eq (v : DWord) :
    halfOf (h = 1) v = if h = 1 then v.extractLsb' 32 32 else v.extractLsb' 0 32 := by
  simp only [halfOf, decide_eq_true_eq, BitVec.truncate_eq_setWidth, BitVec.setWidth_eq_extractLsb' (by decide : 32 ≤ 64)]

/-- Without a LIT the number of VMFSY is that of its word. -/
theorem execVmfsy_grp (hi : GroupIssues s c [d.toNat]) (hl : c.spl.pre.lit = none) :
    execVmfsy g d h clr n s = .next (endGrp s c
      (chk ([(decide (0x018 < n.toNat), cILLEGAL), (clr = 1 && n ≠ 0x008, cILLEGAL)]
        ++ (vecChecks c (ones [d.toNat]) [] .uniform ++ [bankCheck c g.toNat [d.toNat]])) <|
      if (activeLanes c g.toNat).isEmpty then .retire s
      else
        let t := writeReg s c d.toNat (activeLanes c g.toNat) fun _ => halfOf (h = 1) (sysGroup s c n.toNat)
        .retire (if clr = 1 then modGrp t c.core c.g fun r => { r with fpflags := 0 } else t))) := by
  simp only [execVmfsy, grpInstr_run hi.issuing (.inl rfl), hi.ready, grpLit, hl]
  rfl

theorem execVmfsy_illegal (hi : GroupIssues s c [d.toNat]) (hl : c.spl.pre.lit = none)
    (hn : 0x018 < n.toNat ∨ (clr = 1 ∧ n ≠ 0x008)) :
    execVmfsy g d h clr n s = .next (faultGrp s c { code := cILLEGAL }) := by
  rw [execVmfsy_grp hi hl, List.cons_append, List.cons_append]
  by_cases hr : 0x018 < n.toNat
  · rw [decide_eq_true hr, chk_true, endGrp_fault]
  · have clear : clr = 1 ∧ n ≠ 0x008 := hn.resolve_left hr
    rw [decide_eq_false hr, chk_false, ← Bool.decide_and, decide_eq_true clear, chk_true, endGrp_fault]

theorem execVmfsy_reads (hi : GroupIssues s c [d.toNat]) (hl : c.spl.pre.lit = none)
    (hr : RegsLegal c (ones [d.toNat]) [] .uniform) (hn : n.toNat ≤ 0x018) (hc : clr = 1 → n = 0x008) :
    execVmfsy g d h clr n s = .next (retireGrp (if activeLanes c g.toNat = [] then s
      else
        let v := sysGroup s c n.toNat
        let t := writeReg s c d.toNat (activeLanes c g.toNat) fun _ =>
          if h = 1 then v.extractLsb' 32 32 else v.extractLsb' 0 32
        if clr = 1 then modGrp t c.core c.g fun r => { r with fpflags := 0 } else t) c) := by
  have clear : ¬ (clr = 1 ∧ n ≠ 0x008) := fun ⟨h1, h2⟩ => h2 (hc h1)
  rw [execVmfsy_grp hi hl, List.cons_append, List.cons_append, decide_eq_false (Nat.not_lt.mpr hn), chk_false,
    ← Bool.decide_and, decide_eq_false clear, chk_false, List.nil_append, vecChecks_pass hr]
  by_cases ha : activeLanes c g.toNat = []
  · rw [if_pos ha, if_pos (List.isEmpty_iff.mpr ha), endGrp_retire]
  · simp only [if_neg ha, if_neg (mt List.isEmpty_iff.mp ha), endGrp_retire, halfOf_eq]

end group

/-- Settles O18: the number and the privilege decide whether the instruction faults; what a write does follows from the
number alone. -/
theorem systemRegisterAccess : Obligations.SystemRegisterAccess := by
  unfold Obligations.SystemRegisterAccess
  refine ⟨?frontEnd, ?illegal, ?legal⟩
  case frontEnd =>
    intro s c a d n num
    refine ⟨fun h => ⟨execSmfsy_reads h, execSmfsy_illegal h⟩, fun h =>
      ⟨execSmtsy_illegal h, execSmtsy_unprivileged h, ?mode, ?readOnly, ?split, ?watch, ?trigger⟩⟩
    case mode =>
      intro hn hp
      refine (execSmtsy_writes h hn (by decide) fun _ => hp).trans ?_
      rw [sysWrite_mode]
    case readOnly =>
      intro hn h9 hD hw
      refine (execSmtsy_writes h rfl hn fun hr => (hr.elim h9 hD).elim).trans ?_
      rw [sysWrite_readOnly s c.core _ h9 hD hw]
    case split =>
      intro hn hp
      refine (execSmtsy_writes h hn (by decide) fun _ => hp).trans ?_
      rw [sysWrite_l2split]
    case watch =>
      intro h0 h1
      refine (execSmtsy_writes h rfl (show num ≤ 0x018 by omega) fun hr => ?_).trans ?_
      · exact absurd hr (show ¬ (num = 0x009 ∨ num = 0x00D) by omega)
      · rw [sysWrite_watch s c.core _ h0 h1]
    case trigger =>
      intro hn
      refine (execSmtsy_writes h hn (by decide) fun hr => absurd hr (by decide)).trans ?_
      rw [sysWrite_trigger]
  case illegal => exact fun s c g d h clr n => execVmfsy_illegal
  case legal => exact fun s c g d h clr n => execVmfsy_reads

end Sys2Proof.Machine
end
section
namespace Sys2Proof.Machine

/-! # Context commands and fault records (04 R88 to R90, R93, R98, R99) -/

@[simp] theorem getCtx_modCtx (s : State) (n : Nat) (f : Context → Context) :
    getCtx (modCtx s n f) n = f (getCtx s n) := by
  simp [getCtx, modCtx, tgetD, tfind_tput_same]

@[simp] theorem getQueue_modQueue (s : State) (q : Nat) (f : HwQueue → HwQueue) :
    getQueue (modQueue s q f) q = f (getQueue s q) := by
  simp [getQueue, modQueue, tgetD, tfind_tput_same]

theorem getQueue_modQueue_other (s : State) {p q : Nat} (f : HwQueue → HwQueue) (h : q ≠ p) :
    getQueue (modQueue s p f) q = getQueue s q := by
  simp [getQueue, modQueue, tgetD, tfind_tput_other _ h]

/-! ## The command register (04 R88) -/

@[simp] theorem getCtx_setStatus (s : State) (v : BitVec 2) (n : Nat) : getCtx (setStatus s v) n = getCtx s n := rfl

theorem ctxStatus_setStatus (s : State) (v : BitVec 2) : (setStatus s v).host.ctxStatus = v := rfl

/-- A command's words stand in its registers. -/
def ctxWritten (s : State) (cmd : Nat) (n : BitVec 12) (w : DWord) : State :=
  { s with host := { s.host with ctxCmd0 := (0 : BitVec 20) ++ n ++ (0 : BitVec 28) ++ BitVec.ofNat 4 cmd, ctxCmd1 := w } }

section command
variable {s t : State} {cmd : Nat} {n : BitVec 12} {w : Option DWord} {f : State → Option State}

theorem ctxCommand_ignored (h : s.host.ctxStatus = 1) : ctxCommand s cmd n w f = .next s :=
  event_not_due (decide_eq_false (not_not_intro h))

variable (h : s.host.ctxStatus ≠ 1)
include h

theorem ctxCommand_eq : ctxCommand s cmd n w f = .next ((f (ctxWritten s cmd n (w.getD s.host.ctxCmd1))).getD
    (setStatus (ctxWritten s cmd n (w.getD s.host.ctxCmd1)) 3)) :=
  event_due (decide_eq_true h)

theorem ctxCommand_rejected (hf : f (ctxWritten s cmd n (w.getD s.host.ctxCmd1)) = none) :
    ctxCommand s cmd n w f = .next (setStatus (ctxWritten s cmd n (w.getD s.host.ctxCmd1)) 3) := by
  rw [ctxCommand_eq h, hf, Option.getD_none]

theorem ctxCommand_accepted (hf : f (ctxWritten s cmd n (w.getD s.host.ctxCmd1)) = some t) :
    ctxCommand s cmd n w f = .next t := by
  rw [ctxCommand_eq h, hf, Option.getD_some]

end command

/-! ## OPEN -/

/-- A descriptor's root and queues admit an OPEN. -/
def opens (s : State) (c : Context) : Bool :=
  !rootBad c && !(setBits 64 c.qmask).any fun q => (getQueue s q).state ≠ .free

/-- A queue that context n has just taken. -/
structure Taken (n : Nat) (k : HwQueue) : Prop where
  state : k.state = .open_
  owner : k.owner = n
  fifo : k.fifo = []
  pause : k.pause = false

/-- The queues of a list are taken by context n. -/
def takeQueues (s : State) (n : Nat) (qs : List Nat) : State :=
  foldSt (fun s q => modQueue s q fun k =>
    { k with state := .open_, owner := n, fifo := [], drops := 0, pause := false }) s qs

theorem getQueue_takeQueues (s : State) (n : Nat) {qs : List Nat} {q : Nat} (h : q ∈ qs) :
    Taken n (getQueue (takeQueues s n qs) q) := by
  refine foldSt_establishes (P := fun s => Taken n (getQueue s q)) (fun s p hs => ?_) (fun s => ?_) (.inr h)
  · by_cases hp : q = p
    · subst hp
      rw [getQueue_modQueue]
      exact ⟨rfl, rfl, rfl, rfl⟩
    · rwa [getQueue_modQueue_other s _ hp]
  · rw [getQueue_modQueue]
    exact ⟨rfl, rfl, rfl, rfl⟩

theorem takeQueues_ctxs (s : State) (n : Nat) (qs : List Nat) : (takeQueues s n qs).ctxs = s.ctxs :=
  foldSt_frame State.ctxs (fun (s : State) (q : Nat) => modQueue_ctxs s q _) qs s

section openUpdate
variable {s : State} {n pa : Nat} {c : Context}

theorem openCtx_rejected (h : (getCtx s n).state ≠ .free ∨ (goodDescriptor s pa).any (opens s) = false) :
    openCtx s n pa = none := by
  unfold openCtx
  split
  · rename_i hst hd
    rw [hd, Option.any_some] at h
    refine if_pos ?_
    simpa only [opens, ← Bool.not_or, Bool.not_eq_false'] using h.resolve_left (not_not_intro hst)
  · rfl

theorem openCtx_opened (hst : (getCtx s n).state = .free) (hd : goodDescriptor s pa = some c) (ho : opens s c = true) :
    openCtx s n pa = some (setStatus (modCtx (takeQueues s n (setBits 64 c.qmask)) n fun k =>
      { c with pending := k.pending }) 2) := by
  have sound : ¬ (rootBad c || (setBits 64 c.qmask).any fun q => (getQueue s q).state ≠ .free) = true := by
    simpa only [opens, ← Bool.not_or, Bool.not_eq_true', Bool.not_eq_true] using ho
  simp only [openCtx, hst, hd]
  exact if_neg sound

/-! ## UPDATE -/

theorem updateCtx_rejected (h : (getCtx s n).state = .free ∨ (getCtx s n).state = .suspending ∨
    (getCtx s n).state = .closing ∨ goodDescriptor s pa = none) : updateCtx s n pa = none := by
  unfold updateCtx
  split
  · rename_i hd
    refine if_neg ?_
    rcases h with h | h | h | h
    · simp [h]
    · simp [h]
    · simp [h]
    · exact nomatch hd.symm.trans h
  · rfl

theorem updateCtx_updated (hd : goodDescriptor s pa = some c) (h : (getCtx s n).state = .open_ ∨
    (getCtx s n).state = .active ∨ (getCtx s n).state = .suspended ∨ (getCtx s n).state = .faulted) :
    updateCtx s n pa = some (setStatus (modCtx s n fun k =>
      { c with state := k.state, ptroot := k.ptroot, qmask := k.qmask, pending := k.pending }) 2) := by
  simp only [updateCtx, hd]
  refine if_pos ?_
  simpa [or_assoc] using h

end openUpdate

/-! ## SUSPEND, RESUME and CLOSE -/

section transitions
variable {s : State} {n : Nat}

theorem suspendCtx_rejected (ho : (getCtx s n).state ≠ .open_) (ha : (getCtx s n).state ≠ .active) :
    suspendCtx s n = none := if_neg (by simp [ho, ha])

theorem suspendCtx_begun (h : (getCtx s n).state = .open_ ∨ (getCtx s n).state = .active) :
    ∃ u, suspendCtx s n = some u ∧ u.host.ctxStatus = 1 := ⟨_, if_pos (by simpa using h), rfl⟩

theorem resumeCtx_rejected (hs : (getCtx s n).state ≠ .suspended) (hf : (getCtx s n).state ≠ .faulted) :
    resumeCtx s n = none := by
  unfold resumeCtx
  split
  · exact absurd ‹_› hs
  · exact absurd ‹_› hf
  · rfl

theorem resumeCtx_suspended (h : (getCtx s n).state = .suspended) :
    resumeCtx s n = some (setStatus (modCtx s n fun k => { k with state := .open_ }) 2) := by
  simp only [resumeCtx, h]

theorem resumeCtx_faulted (h : (getCtx s n).state = .faulted) :
    resumeCtx s n = some (continueBlocks (setStatus (modCtx s n fun k => { k with state := .open_ }) 2) n) := by
  simp only [resumeCtx, h]

theorem closeCtx_rejected (h : (getCtx s n).state = .free ∨ (getCtx s n).state = .closing) : closeCtx s n = none :=
  if_pos (by simpa using h)

/-- The jobs of context n are cancelled, and its queues are empty. -/
def cancelJobs (s : State) (n : Nat) : State :=
  { s with sched := { s.sched with
      jobs := s.sched.jobs.filter fun e => e.2.ctx ≠ n
      queues := s.sched.queues.map fun e =>
        (e.1, if e.2.state ≠ .free && e.2.owner = n then { e.2 with fifo := [] } else e.2) } }

theorem cancelJobs_jobs (s : State) (n : Nat) : ∀ e ∈ (cancelJobs s n).sched.jobs, e.2.ctx ≠ n :=
  fun _ he => of_decide_eq_true (List.mem_filter.mp he).2

/-- A CLOSE runs on, its jobs cancelled. -/
theorem closeCtx_begun (hf : (getCtx s n).state ≠ .free) (hc : (getCtx s n).state ≠ .closing) :
    ∃ t, closeCtx s n = some (setStatus (cancelJobs t n) 1) := by
  rw [closeCtx, if_neg (by simp [hf, hc])]
  exact ⟨_, rfl⟩

end transitions

/-! ## Completions -/

theorem execSuspendComplete_due {s : State} {n : BitVec 12} (hst : (getCtx s n.toNat).state = .suspending)
    (hr : ctxResident s n.toNat = false) : execSuspendComplete n s =
      .next (setStatus (modCtx s n.toNat fun k => { k with state := .suspended }) 2) :=
  event_due (by rw [hst, hr]; rfl)

theorem execZeroingComplete_due {s : State} {n : BitVec 12} (hst : (getCtx s n.toNat).state = .closing)
    (hs : ∀ r ∈ s.flight.global, r.ctx = n.toNat → r.send.isSome) :
    execZeroingComplete n s = .next (setStatus (freeCtx s n.toNat) 2) := by
  have ended : (s.flight.global.any fun r => r.ctx = n.toNat && r.send.isNone) = false := by
    simp only [List.any_eq_false, Bool.and_eq_true, decide_eq_true_eq, not_and, Option.isNone_iff_eq_none]
    exact fun r hr hc => Option.ne_none_iff_isSome.mpr (hs r hr hc)
  exact event_due (by rw [hst, ended]; rfl)

@[simp] theorem getCtx_freeCtx (s : State) (n : Nat) : getCtx (freeCtx s n) n = {} := by
  simp only [freeCtx, getCtx_modCtx]

/-! ## Fault records -/

theorem execFaultRecordAppend_cons {s : State} {n : BitVec 12} {r : FaultRec} {l : List FaultRec}
    (h : (getCtx s n.toNat).pending = r :: l) : execFaultRecordAppend n s =
      .next (deliverRecord (modCtx s n.toNat fun k => { k with pending := l }) n.toNat r) := by
  simp only [execFaultRecordAppend, h]

/-- With its fault queue full a record goes to the mailbox, and its context is FAULTED. -/
theorem deliverRecord_full {t u : State} {n : Nat} {prod cons : Word} (r : FaultRec)
    (hq : queueEnds t n = (u, some (prod, cons))) (hf : (prod - cons).toNat = 2 ^ (getCtx t n).fqlog) :
    deliverRecord t n r =
      ctxFaulted (faultMsix (mailRecord (keepSeq u { r with seq := prod } prod) { r with seq := prod }) n) n := by
  simp only [deliverRecord, hq, hf, if_true]

theorem mailRecord_full {s : State} (r : FaultRec) (h : s.host.faultFull = true) :
    mailRecord s r = { s with host := { s.host with faultLost := s.host.faultLost + 1 } } := if_pos h

theorem mailRecord_free {s : State} (r : FaultRec) (h : s.host.faultFull = false) :
    mailRecord s r = raiseIrq { s with host := { s.host with faultRec := recordBytes r, faultFull := true } } 0 :=
  if_neg (by simp [h])

theorem mem_setBits {w n q : Nat} {m : BitVec w} : q ∈ setBits n m ↔ q < n ∧ m.getLsbD q = true := by
  simp [setBits]

/-- Settles O50: a command is ignored, rejected or accepted by its context's state and its descriptor; a record whose queue
is full goes to the mailbox. -/
theorem contextEvents : Obligations.ContextEvents := by
  unfold Obligations.ContextEvents
  refine ⟨?commands, ?records, ?mailbox, ?free⟩
  case commands =>
    intro s n pa word refused st old fits
    refine ⟨fun h => ?ignored, fun h => ⟨?openRejected, ?opened, ?suspendRejected, ?suspended, ?resumeRejected, ?resumed,
      ?continued, ?closeRejected, ?closed, ?updateRejected, ?updated⟩, ?suspendComplete, ?zeroingComplete⟩
    case ignored =>
      exact ⟨show execCtxOpen n pa s = _ from ctxCommand_ignored h, show execCtxSuspend n s = _ from ctxCommand_ignored h,
        show execCtxResume n s = _ from ctxCommand_ignored h, show execCtxClose n s = _ from ctxCommand_ignored h,
        show execCtxUpdate n pa s = _ from ctxCommand_ignored h⟩
    case openRejected => exact fun hr => show execCtxOpen n pa s = _ from ctxCommand_rejected h (openCtx_rejected hr)
    case opened =>
      intro c hst hd hf
      have ho : opens s c = true := (congrArg (Option.any (opens s)) hd).symm.trans hf
      refine ⟨_, show execCtxOpen n pa s = _ from ctxCommand_accepted h (openCtx_opened hst hd ho), rfl, ?_,
        fun q hq hm => ?_⟩
      · rw [getCtx_setStatus, getCtx_modCtx, getCtx, takeQueues_ctxs]
        rfl
      · obtain ⟨hstate, howner, hfifo, hpause⟩ :=
          getQueue_takeQueues (ctxWritten s 1 n pa) n.toNat (mem_setBits.mpr ⟨hq, hm⟩)
        exact ⟨hstate, howner, hfifo, hpause⟩
    case suspendRejected =>
      exact fun ho ha => show execCtxSuspend n s = _ from ctxCommand_rejected h (suspendCtx_rejected ho ha)
    case suspended =>
      intro hst
      obtain ⟨u, hu, hs⟩ := suspendCtx_begun (s := ctxWritten s 2 n old) hst
      exact ⟨u, show execCtxSuspend n s = _ from ctxCommand_accepted h hu, hs⟩
    case resumeRejected =>
      exact fun hs hf => show execCtxResume n s = _ from ctxCommand_rejected h (resumeCtx_rejected hs hf)
    case resumed => exact fun hst => show execCtxResume n s = _ from ctxCommand_accepted h (resumeCtx_suspended hst)
    case continued => exact fun hst => show execCtxResume n s = _ from ctxCommand_accepted h (resumeCtx_faulted hst)
    case closeRejected => exact fun hst => show execCtxClose n s = _ from ctxCommand_rejected h (closeCtx_rejected hst)
    case closed =>
      intro hf hc
      obtain ⟨t, ht⟩ := closeCtx_begun (s := ctxWritten s 4 n old) hf hc
      exact ⟨_, show execCtxClose n s = _ from ctxCommand_accepted h ht, ctxStatus_setStatus ..,
        cancelJobs_jobs t n.toNat⟩
    case updateRejected =>
      exact fun hr => show execCtxUpdate n pa s = _ from ctxCommand_rejected h (updateCtx_rejected hr)
    case updated =>
      intro c hd hst
      refine ⟨_, show execCtxUpdate n pa s = _ from ctxCommand_accepted h (updateCtx_updated hd hst), rfl, ?_⟩
      rw [getCtx_setStatus, getCtx_modCtx]
      exact ⟨rfl, rfl, rfl, rfl, rfl⟩
    case suspendComplete =>
      intro hst hr
      refine ⟨_, execSuspendComplete_due hst hr, ?_, rfl⟩
      rw [getCtx_setStatus, getCtx_modCtx]
    case zeroingComplete =>
      exact fun hst hs => ⟨_, execZeroingComplete_due hst hs, (getCtx_setStatus ..).trans (getCtx_freeCtx s n.toNat),
        ctxStatus_setStatus ..⟩
  case records =>
    intro s n r l hp t
    refine ⟨execFaultRecordAppend_cons hp, fun u prod cons hq hf => ?_⟩
    exact (execFaultRecordAppend_cons hp).trans (congrArg _ (deliverRecord_full r hq hf))
  case mailbox =>
    intro s r
    refine ⟨fun h => ?_, fun h => ?_⟩
    · rw [mailRecord_full r h]
      exact ⟨rfl, rfl⟩
    · rw [mailRecord_free r h]
      exact ⟨rfl, rfl⟩
  case free => exact fun s => ⟨_, rfl, rfl⟩

end Sys2Proof.Machine
end
section
namespace Sys2Proof.Machine

/-! # What leaves the cores alone -/

/-! ## Lines of the L2 -/

@[simp] theorem foldSt_cores {α : Type} {f : State → α → State} (h : ∀ s a, (f s a).cores = s.cores) (l : List α)
    (s : State) : (foldSt f s l).cores = s.cores := foldSt_frame State.cores h l s

@[simp] theorem memPut_cores (s : State) (n : Nat) (l : List Byte) : (memPut s n l).cores = s.cores := by
  induction l generalizing s n with
  | nil => rfl
  | cons b r ih => rw [memPut, ih]

@[simp] theorem clearBad_cores (s : State) (loc n : Nat) : (clearBad s loc n).cores = s.cores := rfl

@[simp] theorem writeBack_cores (s : State) (k : Nat) (h : HomeLine) : (writeBack s k h).cores = s.cores := by
  unfold writeBack
  split
  · exact memPut_cores ..
  · rfl

@[simp] theorem evictHome_cores (s : State) (d k : Nat) : (evictHome s d k).cores = s.cores := by
  unfold evictHome
  split
  · exact writeBack_cores ..
  · rfl

@[simp] theorem putHome_cores (s : State) (p : Word) (a : Nat) (h : HomeLine) : (putHome s p a h).cores = s.cores := by
  unfold putHome
  (repeat' split) <;> simp

@[simp] theorem markDirty_cores (s : State) (p : Word) (a : Nat) : (markDirty s p a).cores = s.cores := rfl

@[simp] theorem putHomeWord_cores (s : State) (p : Word) (a : Nat) (w : Word) :
    (putHomeWord s p a w).cores = s.cores := by simp [putHomeWord]

@[simp] theorem modReg_cores (s : State) (p : Word) (a : Nat) (f : RegWord → RegWord) :
    (modReg s p a f).cores = s.cores := rfl

@[simp] theorem storesReturned_cores (s : State) (die : Nat) (p : Word) (a : Nat) :
    (storesReturned s die p a).cores = s.cores := rfl

@[simp] theorem ownerClean_cores (s : State) (owner : BitVec 3) (p : Word) (a : Nat) :
    (ownerClean s owner p a).cores = s.cores := by
  unfold ownerClean
  (repeat' split) <;> simp

@[simp] theorem drainLine_cores (s : State) (d k : Nat) (which : Nat → Bool) :
    (drainLine s d k which).cores = s.cores := by
  unfold drainLine
  split
  · exact foldSt_cores (fun s i => by simp [apply_ite State.cores]) _ s
  · rfl

@[simp] theorem evictVisitor_cores (s : State) (d k : Nat) : (evictVisitor s d k).cores = s.cores := by
  simp [evictVisitor]

@[simp] theorem putVisitor_cores (s : State) (d k : Nat) (v : VisitorLine) : (putVisitor s d k v).cores = s.cores := by
  simp only [putVisitor]
  (repeat' split) <;> simp

/-! ## Requests to memory -/

@[simp] theorem visitorStore_cores (s : State) (r : GlobalReq) (p : Word) (a : Nat) :
    (visitorStore s r p a).cores = s.cores := by simp [visitorStore]

@[simp] theorem visitorThrough_cores (s : State) (r : GlobalReq) (p : Word) (a : Nat) :
    (visitorThrough s r p a).cores = s.cores := by
  unfold visitorThrough
  exact foldSt_cores (fun s i => by simp [apply_ite State.cores]) _ s

@[simp] theorem modReq_cores (s : State) (id : Nat) (f : GlobalReq → GlobalReq) : (modReq s id f).cores = s.cores := rfl

@[simp] theorem startWalk_cores (s : State) (core ctx va : Nat) (keep : Bool) :
    (startWalk s core ctx va keep).cores = s.cores := by
  unfold startWalk
  split <;> rfl

@[simp] theorem startWalk_dies (s : State) (core ctx va : Nat) (keep : Bool) :
    (startWalk s core ctx va keep).dies = s.dies := by
  unfold startWalk
  split <;> rfl

end Sys2Proof.Machine
end

section
namespace Sys2Proof.Machine

/-! # Services (04 R110 to R113) -/

/-! ## Groups and blocks after a change -/

theorem getBlk_congr {s t : State} (h : t.cores = s.cores) (core : Nat) : getBlk t core = getBlk s core := by
  rw [getBlk, getCore, h]
  rfl

theorem getGrp_congr {s t : State} (h : t.cores = s.cores) (core g : Nat) : getGrp t core g = getGrp s core g := by
  rw [getGrp, getGrp, getBlk_congr h]

theorem getBlk_modBlk_other (s : State) {k core : Nat} (f : Block → Block) (h : core ≠ k) :
    getBlk (modBlk s k f) core = getBlk s core := by
  simp [getBlk, modBlk, modCore, getCore, tgetD, tfind_tput_other _ h]

@[simp] theorem getGrp_modGrp (s : State) (core g : Nat) (f : Group → Group) :
    getGrp (modGrp s core g f) core g = (getGrp s core g).map f := by
  rw [getGrp, getGrp, getBlk_modGrp]
  cases getBlk s core with
  | none => rfl
  | some b => exact tfind_tmod_same g f b.groups

theorem tfind_tmod_other {α : Type} {k j : Nat} (f : α → α) (t : Table α) (h : k ≠ j) :
    tfind k (tmod j f t) = tfind k t := by
  unfold tmod
  split
  · exact tfind_tput_other _ h t
  · rfl

/-- A key that is looked up with success is listed. -/
theorem mem_keys_of_tfind {α : Type} {k : Nat} {v : α} {t : Table α} (h : tfind k t = some v) : k ∈ t.map Prod.fst := by
  induction t with
  | nil => exact nomatch h
  | cons e r ih =>
    by_cases hk : k = e.1
    · exact hk ▸ List.mem_cons_self
    · rw [tfind, if_neg hk] at h
      exact List.mem_cons_of_mem _ (ih h)

/-! ## The barrier objects -/

theorem OnlyBarriers.of_cores {s t : State} (core : Nat) (hx : t.ctxs = s.ctxs) (hc : t.cores = s.cores) :
    OnlyBarriers core s t := ⟨hx, fun b hb => ⟨b.barriers, (getBlk_congr hc core).trans hb⟩⟩

theorem OnlyBarriers.group {s t : State} {core g : Nat} {x : Group} (h : OnlyBarriers core s t)
    (hx : getGrp s core g = some x) : getGrp t core g = some x := by
  obtain ⟨b, hb, hg⟩ := Option.bind_eq_some_iff.mp hx
  obtain ⟨bs, hbs⟩ := h.blk b hb
  rw [getGrp, hbs]
  exact hg

theorem setWatch_onlyBarriers (core : Nat) (s : State) (k i : Nat) : OnlyBarriers core s (setWatch s k i) := by
  unfold setWatch
  split
  · by_cases hk : core = k
    · exact hk ▸ modBar_onlyBarriers s core i _
    · exact ⟨rfl, fun b hb => ⟨b.barriers, (getBlk_modBlk_other s _ hk).trans hb⟩⟩
  · exact .refl core s

theorem leaveOne_onlyBarriers (s : State) (core i : Nat) (b : Block) (who : Who) :
    OnlyBarriers core s (leaveOne s core i b who) := by
  unfold leaveOne
  split
  · split
    · exact modBar_onlyBarriers s core i _
    · exact .refl core s
  · exact modBar_onlyBarriers s core i _

theorem leaveAll_onlyBarriers (s : State) (core : Nat) (who : Who) : OnlyBarriers core s (leaveAll s core who) := by
  unfold leaveAll
  split
  · exact (foldSt_onlyBarriers (fun t i => leaveOne_onlyBarriers t core i _ who) _ s).trans (evalAll_onlyBarriers _ core)
  · exact .refl core s

theorem forgetThread_onlyBarriers (core : Nat) (s : State) (t : Thread) : OnlyBarriers core s (forgetThread s t) := by
  unfold forgetThread
  refine OnlyBarriers.trans ?_ (foldSt_onlyBarriers (fun u (r : BarReq) => setWatch_onlyBarriers core u r.dst r.index) _ _)
  exact .of_cores core rfl rfl

/-! ## GREPLAY (04 R112) -/

/-- Group g of a core is as before, but for the lines that an AFENCE of it is to wait for. -/
def StoredOnly (core g : Nat) (s t : State) : Prop :=
  ∀ x, getGrp s core g = some x → ∃ l, getGrp t core g = some { x with stored := l }

section replay
variable {core g : Nat} {s t u : State}

theorem StoredOnly.of_cores (h : t.cores = s.cores) : StoredOnly core g s t :=
  fun x hx => ⟨x.stored, (getGrp_congr h core g).trans hx⟩

theorem StoredOnly.trans (h : StoredOnly core g s t) (k : StoredOnly core g t u) : StoredOnly core g s u := by
  intro x hx
  obtain ⟨l, hl⟩ := h x hx
  obtain ⟨m, hm⟩ := k _ hl
  exact ⟨m, hm⟩

theorem noteStored_storedOnly (s : State) (k : Nat) : StoredOnly core g s (noteStored s ⟨core, .grp g⟩ k) := by
  intro x hx
  simp only [noteStored, getGrp_modGrp, hx, Option.map_some]
  split
  · exact ⟨x.stored, rfl⟩
  · exact ⟨_, rfl⟩

theorem sendReq_storedOnly (s : State) {r : GlobalReq} (l : Leaf) (h : r.thread = ⟨core, .grp g⟩) :
    StoredOnly core g s (sendReq s r l) := by
  simp only [sendReq, h]
  split
  · exact .of_cores rfl
  · refine StoredOnly.trans (t := if isCompare r.op then bumpId s
      else noteStored (bumpId s) ⟨core, .grp g⟩ (lineKey l.place (physAddr l r.va))) ?noted (.of_cores ?sent)
    case noted =>
      split
      · exact .of_cores rfl
      · exact .trans (.of_cores rfl) (noteStored_storedOnly (bumpId s) _)
    case sent =>
      generalize (if isCompare r.op then bumpId s
        else noteStored (bumpId s) ⟨core, .grp g⟩ (lineKey l.place (physAddr l r.va))) = n
      (repeat' split) <;> simp

theorem routeReq_storedOnly (s : State) {r : GlobalReq} (res : WalkRes) (h : r.thread = ⟨core, .grp g⟩)
    (hc : r.copy = none) : StoredOnly core g s (routeReq s r res) := by
  simp only [routeReq, hc]
  (repeat' split)
  · exact .of_cores rfl
  · exact .of_cores rfl
  · exact .of_cores rfl
  · exact sendReq_storedOnly s _ h

theorem issueReq_storedOnly (s : State) {r : GlobalReq} (h : r.thread = ⟨core, .grp g⟩) (hc : r.copy = none) :
    StoredOnly core g s (issueReq s r) := by
  simp only [issueReq]
  refine StoredOnly.trans (t := modFlight s fun f => { f with global := f.global ++ [r] }) (.of_cores rfl) ?_
  (repeat' split)
  · exact routeReq_storedOnly _ _ h hc
  · exact routeReq_storedOnly _ _ h hc
  · exact .of_cores (startWalk_cores ..)

theorem reissue_storedOnly (s : State) (b : Block) (x : Group) (r : StoreFaultRec) :
    StoredOnly core g s (reissue s core g b x r) :=
  .trans (t := bumpId s) (.of_cores rfl) (issueReq_storedOnly _ rfl rfl)

/-- A group that GREPLAY lets go on, but for what its stores note. -/
def replayedGroup (r : Group) : Group :=
  { r with run := .ready, sfrq := [], sfOvf := false, issued := r.issued - r.undone, undone := 0 }

theorem getGrp_replayThread {x : Group} (hx : getGrp s core g = some x) (h : Word) (again : Bool) :
    ∃ l, getGrp (replayThread s ⟨core, .grp g⟩ h again) core g = some { replayedGroup x with stored := l } := by
  obtain ⟨b, hb, -⟩ := Option.bind_eq_some_iff.mp hx
  have ready : getGrp (modGrp s core g replayedGroup) core g = some (replayedGroup x) := by
    rw [getGrp_modGrp, hx, Option.map_some]
  have stores : StoredOnly core g (modGrp s core g replayedGroup)
      (if again then foldSt (fun t r => reissue t core g b x r) (modGrp s core g replayedGroup) x.sfrq
        else modGrp s core g replayedGroup) := by
    split
    · exact foldSt_rel (fun _ => .of_cores rfl) .trans (fun t r => reissue_storedOnly t b x r) _ _
    · exact .of_cores rfl
  obtain ⟨l, hl⟩ := stores _ ready
  refine ⟨l, ?_⟩
  simp only [replayThread, hb, hx]
  exact (reevaluate_onlyBarriers _ core _).group hl

theorem getBlk_replayThread {b : Block} (hb : getBlk s core = some b) (h : Word) (again : Bool) :
    ∃ bs, getBlk (replayThread s ⟨core, .fe⟩ h again) core =
      some { b with fe := { b.fe with run := .ready }, barriers := bs } :=
  (reevaluate_onlyBarriers (modFe s core fun e => { e with run := .ready }) core _).blk
    { b with fe := { b.fe with run := .ready } } (by rw [getBlk_modFe, hb, Option.map_some])

end replay

/-! ## GKILL (04 R113) -/

/-- A group that is killed. -/
def killedGroup (r : Group) : Group :=
  if r.run = .exited then r
  else { r with run := .killed, wasKilled := true, sfrq := [], sfOvf := false, acquire := none
                splits := r.splits.map fun e => (e.1, { e.2 with wait := .none }) }

theorem killedGroup_of_run {r : Group} (h : r.run ≠ .exited) :
    (killedGroup r).run = .killed ∧ (killedGroup r).wasKilled = true := by
  rw [killedGroup, if_neg h]
  exact ⟨rfl, rfl⟩

/-- A block of which a thread is killed, but for its barrier objects. -/
def killedIn (b : Block) : Who → Block
  | .fe => { b with fe := { b.fe with run := if b.fe.run = .exited then .exited else .killed, wait := .none } }
  | .grp g => { b with groups := tmod g killedGroup b.groups }

theorem getBlk_killThread {s : State} {core : Nat} {b : Block} (hb : getBlk s core = some b) (who : Who) :
    ∃ bs, getBlk (killThread s ⟨core, who⟩) core = some { killedIn b who with barriers := bs } := by
  obtain ⟨cs, hcs⟩ := ((forgetThread_onlyBarriers core s ⟨core, who⟩).trans
    (reevaluate_onlyBarriers _ core fun o => isMember o who)).blk b hb
  have after (t : State) (is : List Nat) :
      OnlyBarriers core t (foldSt (fun s i => setWatch s core i) (leaveAll t core who) is) :=
    (leaveAll_onlyBarriers t core who).trans (foldSt_onlyBarriers (fun u i => setWatch_onlyBarriers core u core i) is _)
  cases who with
  | fe => exact (after _ _).blk { killedIn b .fe with barriers := cs } (by rw [getBlk_modFe, hcs]; rfl)
  | grp g => exact (after _ _).blk { killedIn b (.grp g) with barriers := cs } (by rw [getBlk_modGrp, hcs]; rfl)

/-- A block of which the groups of a list are killed, one by one. -/
theorem getBlk_killGroups {s : State} {core : Nat} {b : Block} (hb : getBlk s core = some b) (gs : List Nat) :
    ∃ bs, getBlk (foldSt (fun t g => killThread t ⟨core, .grp g⟩) s gs) core =
      some { b with groups := foldSt (fun t g => tmod g killedGroup t) b.groups gs, barriers := bs } := by
  induction gs generalizing s b with
  | nil => exact ⟨b.barriers, hb⟩
  | cons g r ih =>
    obtain ⟨cs, hcs⟩ := getBlk_killThread hb (.grp g)
    exact ih hcs

/-- A group that will not go on. -/
def Gone (r : Group) : Prop := r.run = .killed ∨ r.run = .exited

theorem gone_killedGroup (r : Group) : Gone (killedGroup r) := by
  by_cases h : r.run = .exited
  · exact .inr (by rw [killedGroup, if_pos h, h])
  · exact .inl (killedGroup_of_run h).1

theorem gone_of_tmod {g j : Nat} {q : Group} {t : Table Group} (ht : ∀ r, tfind g t = some r → Gone r ∨ g = j)
    (h : tfind g (tmod j killedGroup t) = some q) : Gone q := by
  by_cases hg : g = j
  · subst hg
    rw [tfind_tmod_same] at h
    obtain ⟨r, -, rfl⟩ := Option.map_eq_some_iff.mp h
    exact gone_killedGroup r
  · rw [tfind_tmod_other _ t hg] at h
    exact (ht q h).resolve_right hg

/-- Killing every group that a table lists leaves none that goes on. -/
theorem gone_of_killed_all {t : Table Group} {g : Nat} {q : Group}
    (h : tfind g (foldSt (fun t g => tmod g killedGroup t) t (t.map Prod.fst)) = some q) : Gone q := by
  refine foldSt_establishes (P := fun t : Table Group => ∀ r, tfind g t = some r → Gone r) (a := g)
    ?keep ?make ?listed q h
  case keep => exact fun t j ht r hr => gone_of_tmod (fun x hx => .inl (ht x hx)) hr
  case make => exact fun t r hr => gone_of_tmod (fun _ _ => .inr rfl) hr
  case listed =>
    by_cases hg : g ∈ t.map Prod.fst
    · exact .inr hg
    · exact .inl fun r hr => absurd (mem_keys_of_tfind hr) hg

/-- GKILL of a group. -/
theorem getGrp_killFrom {s : State} {core g : Nat} {x : Group} (hx : getGrp s core g = some x) :
    getGrp (killFrom s ⟨core, .grp g⟩) core g = some (killedGroup x) := by
  obtain ⟨b, hb, hg⟩ := Option.bind_eq_some_iff.mp hx
  obtain ⟨bs, hbs⟩ := getBlk_killThread hb (.grp g)
  rw [killFrom, getGrp, hbs]
  exact (tfind_tmod_same g killedGroup b.groups).trans (by rw [hg, Option.map_some])

/-- GKILL of a front-end: its block and every group of it. -/
theorem getBlk_killFrom {s : State} {core : Nat} {b : Block} (hb : getBlk s core = some b) :
    ∃ bs, getBlk (killFrom s ⟨core, .fe⟩) core = some { killedIn b .fe with
      killed := true, barriers := bs
      groups := foldSt (fun t g => tmod g killedGroup t) b.groups (b.groups.map Prod.fst) } := by
  obtain ⟨cs, hcs⟩ := getBlk_killThread (s := modBlk s core fun b => { b with killed := true })
    (b := { b with killed := true }) (by rw [getBlk_modBlk, hb, Option.map_some]) .fe
  obtain ⟨bs, hbs⟩ := getBlk_killGroups hcs (b.groups.map Prod.fst)
  refine ⟨bs, ?_⟩
  simp only [killFrom, hb]
  exact hbs

/-! ## A request and its reply (04 R110, R111) -/

section request
variable {s : State} {r : Service}

@[simp] theorem answerService_cores (s : State) (id : Nat) (ok : Bool) (bs : List Byte) :
    (answerService s id ok bs).cores = s.cores := rfl

theorem execServiceRequestArrive_due (h : getService s r.id = some r) (hr : r.reply = none)
    (hb : serviceBefore s r = false) (hh : serviceHeld s r = false) :
    execServiceRequestArrive r.id s = .next (serviceEffect s r) := by
  simp only [execServiceRequestArrive, h]
  exact event_due (by rw [hr, hb, hh]; rfl)

theorem serviceEffect_gstate (hk : r.kind = 0) :
    serviceEffect s r = answerService s r.id true (gstateBytes s r.handle r.sel) := if_pos hk

theorem serviceEffect_stale (hk : r.kind ≠ 0) (ht : handleThread s r.handle = none) :
    serviceEffect s r = answerService s r.id false [] := by
  simp only [serviceEffect, if_neg hk, ht]

/-- A thread that is not FAULTED, or STOPPED, is neither replayed nor killed. -/
theorem serviceEffect_otherState {t : Thread} (hk : r.kind ≠ 0) (ht : handleThread s r.handle = some t)
    (h : runOf s t ≠ .faulted ∨ isStopped s t = true) : serviceEffect s r = answerService s r.id false [] := by
  have not : isReplayable s t = false := by
    rcases h with h | h
    · rw [isReplayable, decide_eq_false h, Bool.false_and]
    · rw [isReplayable, h, Bool.not_true, Bool.and_false]
  simp only [serviceEffect, if_neg hk, ht, not]
  rfl

theorem isReplayable_grp {core g : Nat} {x : Group} (hx : getGrp s core g = some x) (hr : x.run = .faulted)
    (hs : x.stopped = false) : isReplayable s ⟨core, .grp g⟩ = true := by
  simp [isReplayable, runOf, isStopped, hx, hr, hs]

theorem isReplayable_fe {core : Nat} {b : Block} (hb : getBlk s core = some b) (hr : b.fe.run = .faulted)
    (hs : b.fe.stopped = false) : isReplayable s ⟨core, .fe⟩ = true := by
  simp [isReplayable, runOf, isStopped, hb, hr, hs]

theorem serviceEffect_replay {t : Thread} (hk : r.kind = 1) (ht : handleThread s r.handle = some t)
    (h : isReplayable s t = true) :
    serviceEffect s r = answerService (replayThread s t r.handle (r.sel.getLsbD 0)) r.id true [] := by
  simp only [serviceEffect, hk, ht, h]
  rfl

theorem serviceEffect_kill {t : Thread} (hk : r.kind = 2) (ht : handleThread s r.handle = some t)
    (h : isReplayable s t = true) : serviceEffect s r = answerService (killFrom s t) r.id true [] := by
  simp only [serviceEffect, hk, ht, h]
  rfl

theorem execServiceReply_due {ok : Bool} {bs : List Byte} (h : getService s r.id = some r)
    (hr : r.reply = some (ok, bs)) (hh : serviceHeld s r = false)
    (hw : waitOf s ⟨r.src.core, r.src.who, r.split⟩ = .service r.id) (hl : threadLive s r.src.core r.src.who = true) :
    let w : Waiting := { core := r.src.core, who := r.src.who, split := r.split }
    let t := modFlight s fun f => { f with services := f.services.filter fun x => x.id ≠ r.id }
    execServiceReply r.id s =
      .next (endWait (if r.kind = 0 then writeReply t r bs else destWait t w r.pd.toNat ok) w) := by
  intro w t
  simp only [execServiceReply, h, hr]
  refine event_due ?_
  rw [canEnd, hw, hl, hh]
  simp

end request

end Sys2Proof.Machine
end

section
namespace Sys2Proof.Machine

/-! # Walks and shootdowns (15 R363 to R366) -/

theorem bitOf_toNat {n : Nat} (w : BitVec n) (i : Nat) : bitOf w.toNat i = w.getLsbD i := by
  rw [bitOf, BitVec.getLsbD, Nat.testBit_eq_decide_div_mod_eq]

theorem bitsOf_toNat {n : Nat} (w : BitVec n) (hi lo : Nat) :
    bitsOf w.toNat hi lo = (w.extractLsb' lo (hi + 1 - lo)).toNat := by
  rw [bitsOf, BitVec.extractLsb'_toNat, Nat.shiftRight_eq_div_pow]

/-! ## Walks -/

section walks
variable {s : State} {w : Walk}

section pageWalk
variable (hf : (s.flight.walks.find? fun x => x.id = w.id) = some w) (hr : w.res = none) (hz : w.zeroing = none)
  (hp : w.posted = false) (hh : walkHeld s w = false)
include hf hr hz hp hh

theorem execPageWalk_device (hm : s.mode.getLsbD 1 = true) (hw : walkerFree s w = true) : execPageWalk w.id s =
    .next (ownWalk (noteSeen s w.id (rawLeaf s w.ctx w.va)) w (walkPage s w.ctx w.va)) := by
  simp only [execPageWalk, hf, hm, if_true]
  exact event_due (by rw [hr, hz, hp, hh, hw]; rfl)

theorem execPageWalk_host (hm : s.mode.getLsbD 1 = false) (hn : s.host.walkFor = none) :
    execPageWalk w.id s = .next (postWalk s w) := by
  simp only [execPageWalk, hf, hm]
  exact event_due (by rw [hr, hz, hp, hh, hn]; rfl)

end pageWalk

theorem execFrameOwnerZeroing_leaf {l : Leaf} (hf : (s.flight.walks.find? fun x => x.id = w.id) = some w)
    (hz : w.zeroing = some l) :
    execFrameOwnerZeroing w.id s = .next (endWalk (takeFrames s w.ctx l) w (.leaf l)) := by
  simp only [execFrameOwnerZeroing, hf, hz]

/-- A leaf that is not valid, or no leaf, ends the walk with TRANSLATION. -/
theorem hostLeaf_invalid (s : State) {leaf : BitVec 128} (h : leaf.getLsbD 0 = false ∨ leaf.getLsbD 1 = false) :
    hostLeaf s leaf.toNat = .code cTRANSLATION := by
  have off : (!leaf.getLsbD 0 || !leaf.getLsbD 1) = true := by
    rcases h with h | h
    · rw [h, Bool.not_false, Bool.true_or]
    · rw [h, Bool.not_false, Bool.or_true]
  refine if_pos ?_
  rw [bitOf_toNat, bitOf_toNat, off, Bool.true_or]

theorem execWalkMailboxDone_walk (h : mailWalk s = some w) (leaf : BitVec 128) : execWalkMailboxDone leaf s =
    .next (ownWalk (noteSeen (freeWalkMail s) w.id (some (leafOf leaf.toNat 0 0))) w (hostLeaf s leaf.toNat)) := by
  simp only [execWalkMailboxDone, h]

theorem execWalkMailboxFault_walk (h : mailWalk s = some w) :
    execWalkMailboxFault s = .next (endWalk (freeWalkMail s) w (.code cTRANSLATION)) := by
  simp only [execWalkMailboxFault, h]

theorem execWalkMailbox_none (h : mailWalk s = none) (leaf : BitVec 128) :
    execWalkMailboxDone leaf s = .next s ∧ execWalkMailboxFault s = .next s := by
  simp only [execWalkMailboxDone, execWalkMailboxFault, h, and_self]

end walks

/-! ## Shootdowns -/

section shootdowns
variable {s : State}

theorem dropTranslations_cores (s : State) (which : TEntry → Bool) :
    (dropTranslations s which).cores = s.cores.map fun c => (c.1, { c.2 with
      tcache := c.2.tcache.filter fun e => !which e
      block := c.2.block.map fun b => { b with copy := { b.copy with cmds := b.copy.cmds.map (dropKept which b.ctx) } } }) :=
  foldSt_cores (fun s (r : GlobalReq) => startWalk_cores s r.thread.core r.ctx r.va false) _ _

theorem dropTranslations_dies (s : State) (which : TEntry → Bool) :
    (dropTranslations s which).dies =
      s.dies.map fun d => (d.1, { d.2 with tcache := d.2.tcache.filter fun e => !which e }) :=
  foldSt_frame State.dies (fun s (r : GlobalReq) => startWalk_dies s r.thread.core r.ctx r.va false) _ _

/-- No core's cache keeps a translation that is dropped. -/
theorem dropTranslations_core_tcache {which : TEntry → Bool} :
    ∀ c ∈ (dropTranslations s which).cores, ∀ e ∈ c.2.tcache, which e = false := by
  rw [dropTranslations_cores]
  intro c hc e he
  obtain ⟨c0, -, rfl⟩ := List.mem_map.mp hc
  exact Bool.not_eq_true' _ ▸ (List.mem_filter.mp he).2

/-- No die's cache keeps a translation that is dropped. -/
theorem dropTranslations_die_tcache {which : TEntry → Bool} :
    ∀ d ∈ (dropTranslations s which).dies, ∀ e ∈ d.2.tcache, which e = false := by
  rw [dropTranslations_dies]
  intro d hd e he
  obtain ⟨d0, -, rfl⟩ := List.mem_map.mp hd
  exact Bool.not_eq_true' _ ▸ (List.mem_filter.mp he).2

/-- An access on its way to its home that was translated for an address which is picked. -/
theorem mem_translated {r : GlobalReq} {which : Nat → Nat → Bool} (hr : r ∈ s.flight.global) (hl : r.leaf.isSome)
    (hs : r.stage = .atHome) (hw : which r.ctx r.va = true) : r.id ∈ translated s (fun _ _ => true) which :=
  List.mem_append_left _ (List.mem_map_of_mem (List.mem_filter.mpr ⟨hr, by simp [hl, hs, hw]⟩))

/-- The shootdown register after a write, with its status and the accesses that it waits for. -/
def shootSet (s : State) (w0 w1 : DWord) (status : BitVec 2) (waiting : List Nat) : State :=
  { s with pages := { s.pages with shoot := { word0 := w0, word1 := w1, status := status, waiting := waiting } } }

variable {w0 w1 : DWord}

/-- A shootdown of no page is refused. -/
theorem execShootdown_refused (hs : s.pages.shoot.status ≠ 1) (h3 : w1.extractLsb' 12 2 ≠ 3)
    (h0 : w1.extractLsb' 16 32 = 0) : execShootdown w0 w1 s = .next (shootSet s w0 w1 3 []) := by
  have scope : bitsOf w1.toNat 13 12 ≠ 3 := fun h => h3 (BitVec.eq_of_toNat_eq ((bitsOf_toNat w1 13 12).symm.trans h))
  have pages : bitsOf w1.toNat 47 16 = 0 := (bitsOf_toNat w1 47 16).trans (congrArg BitVec.toNat h0)
  simp only [execShootdown, decide_eq_true scope, decide_eq_true pages]
  exact (event_due (decide_eq_true hs)).trans (congrArg _ (if_pos rfl))

/-- A shootdown with no re-stripe in hand drops the translations and waits for the accesses made with them. -/
theorem execShootdown_accepted (hs : s.pages.shoot.status ≠ 1) (hq : s.pages.queue = [])
    (h : w1.extractLsb' 12 2 = 3 ∨ w1.extractLsb' 16 32 ≠ 0) : execShootdown w0 w1 s =
      .next (shootSet (dropTranslations s fun e => shootCovers w0.toNat w1.toNat e.ctx e.va (pageBytes e.leaf.size)) w0 w1 1
        (translated s (fun _ _ => true) fun ctx va => shootCovers w0.toNat w1.toNat ctx va 128)) := by
  have names : (bitsOf w1.toNat 13 12 ≠ 3 && bitsOf w1.toNat 47 16 = 0) = false := by
    rcases h with h | h
    · simp [(bitsOf_toNat w1 13 12).trans (congrArg BitVec.toNat h)]
    · have : bitsOf w1.toNat 47 16 ≠ 0 := fun h0 => h (BitVec.eq_of_toNat_eq ((bitsOf_toNat w1 47 16).symm.trans h0))
      simp [this]
  simp only [execShootdown, names, hq]
  exact (event_due (decide_eq_true hs)).trans (congrArg _ (if_neg Bool.false_ne_true))

theorem execShootdownComplete_due (hs : s.pages.shoot.status = 1)
    (h : ∀ id ∈ s.pages.shoot.waiting, stillOut s id = false) : execShootdownComplete s =
      .next { s with pages := { s.pages with shoot := { s.pages.shoot with status := 2, waiting := [] } } } := by
  have done : s.pages.shoot.waiting.any (stillOut s) = false := List.any_eq_false.mpr fun id hid => by simp [h id hid]
  exact event_due (by rw [hs, done]; rfl)

theorem execShootdownComplete_none (hs : s.pages.shoot.status ≠ 1) : execShootdownComplete s = .next s :=
  event_not_due (by rw [decide_eq_false hs, Bool.false_and])

end shootdowns

/-- Settles O56: a request finds its thread FAULTED or is answered false; a walk ends with its leaf or its code; what a
shootdown waits for is what was translated before it. -/
theorem serviceAndWalkEvents : Obligations.ServiceAndWalkEvents := by
  unfold Obligations.ServiceAndWalkEvents
  constructor
  · intro s r h
    refine ⟨fun hr hb hh => ?arrive, fun ok bs hr hh hw hl => execServiceReply_due h hr hh hw hl⟩
    have answer : exec (.serviceRequestArrive r.id) s = .next (serviceEffect s r) :=
      execServiceRequestArrive_due h hr hb hh
    rw [answer]
    refine ⟨fun hk => congrArg _ (serviceEffect_gstate hk), fun hk ht => congrArg _ (serviceEffect_stale hk ht),
      fun t hk ht hx => congrArg _ (serviceEffect_otherState hk ht hx), fun core g x ht hx hf hs => ?group,
      fun core b ht hb hf hs => ?frontEnd⟩
    case group =>
      have faulted := isReplayable_grp hx hf hs
      constructor
      · intro hk
        obtain ⟨l, hl⟩ := getGrp_replayThread hx r.handle (r.sel.getLsbD 0)
        exact ⟨_, _, congrArg _ (serviceEffect_replay hk ht faulted), hl, rfl, rfl, rfl, rfl⟩
      · intro hk
        obtain ⟨hrun, hkilled⟩ := killedGroup_of_run (r := x) (by rw [hf]; decide)
        exact ⟨_, _, congrArg _ (serviceEffect_kill hk ht faulted), getGrp_killFrom hx, hrun, hkilled⟩
    case frontEnd =>
      have faulted := isReplayable_fe hb hf hs
      constructor
      · intro hk
        obtain ⟨bs, hbs⟩ := getBlk_replayThread hb r.handle (r.sel.getLsbD 0)
        exact ⟨_, _, congrArg _ (serviceEffect_replay hk ht faulted), hbs, rfl, rfl, rfl⟩
      · intro hk
        obtain ⟨bs, hbs⟩ := getBlk_killFrom hb
        refine ⟨_, _, congrArg _ (serviceEffect_kill hk ht faulted), hbs, rfl,
          if_neg (by rw [hf]; decide), fun g q hq => ?_⟩
        rw [getGrp_congr (answerService_cores ..), getGrp, hbs] at hq
        exact gone_of_killed_all hq
  · intro s
    refine ⟨?pageWalk, fun w l => execFrameOwnerZeroing_leaf, ?mailbox, execWalkMailbox_none,
      fun w0 w1 hs => ⟨?refused, ?accepted⟩, execShootdownComplete_due, execShootdownComplete_none⟩
    case pageWalk =>
      exact fun w hf hr hz hp hh => ⟨execPageWalk_device hf hr hz hp hh, execPageWalk_host hf hr hz hp hh⟩
    case mailbox =>
      exact fun w leaf hm => ⟨execWalkMailboxFault_walk hm, hostLeaf_invalid s, execWalkMailboxDone_walk hm leaf⟩
    case refused => exact fun h3 h0 => ⟨_, execShootdown_refused hs h3 h0, rfl⟩
    case accepted =>
      exact fun hq h => ⟨_, execShootdown_accepted hs hq h, rfl, dropTranslations_core_tcache, dropTranslations_die_tcache,
        fun r => mem_translated (which := fun ctx va => shootCovers w0.toNat w1.toNat ctx va 128)⟩

end Sys2Proof.Machine
end

section
namespace Sys2Proof.Machine

/-! # Wake writes (05 R136) -/

/-- An update of a die that leaves the die's waiters leaves every die's. -/
theorem getDie_modDie_waiters (s : State) (d k : Nat) {f : Die → Die} (h : ∀ x, (f x).waiters = x.waiters) :
    (getDie (modDie s d f) k).waiters = (getDie s k).waiters := by
  by_cases hk : k = d
  · subst hk
    simp only [getDie, modDie, tgetD, tfind_tput_same, Option.getD_some, h]
  · simp only [getDie, modDie, tgetD, tfind_tput_other _ hk]

/-- Serving release marks orders drains and clears marks: no waiter goes or comes. -/
theorem getDie_serveMarks_waiters (s : State) (req die : Nat) (p : Word) (ws : List Nat) (k : Nat) :
    (getDie (serveMarks s req die p ws) k).waiters = (getDie s k).waiters := by
  unfold serveMarks
  refine (foldSt_frame (fun s : State => (getDie s k).waiters) (fun s x => ?cleared) ws _).trans
    (foldSt_frame (fun s : State => (getDie s k).waiters) (fun s m => ?ordered) _ s)
  case cleared => exact getDie_modDie_waiters s _ k fun _ => rfl
  case ordered => rfl

/-- A translation for the device notes what it took or missed, and changes nothing else. -/
theorem devTranslate_modFlight (s : State) (ctx va : Nat) : ∃ f, (devTranslate s ctx va).1 = modFlight s f := by
  unfold devTranslate
  split
  · exact ⟨id, rfl⟩
  · split
    · exact ⟨id, rfl⟩
    · split
      · exact ⟨fun f => { f with taken := (ctx, va) :: f.taken }, rfl⟩
      · exact ⟨fun f => { f with misses := f.misses ++ [(ctx, va)] }, rfl⟩

theorem devTranslate_dies (s : State) (ctx va : Nat) : (devTranslate s ctx va).1.dies = s.dies := by
  obtain ⟨f, hf⟩ := devTranslate_modFlight s ctx va
  rw [hf, modFlight_dies]

theorem devTranslate_sched (s : State) (ctx va : Nat) : (devTranslate s ctx va).1.sched = s.sched := by
  obtain ⟨f, hf⟩ := devTranslate_modFlight s ctx va
  rw [hf, modFlight_sched]

theorem gatedOn_dies (s : State) (p : Word) (a : Nat) (j : Job) : (gatedOn s p a j).1.dies = s.dies := by
  have translated := devTranslate_dies s j.ctx j.record.wakeAddr.toNat
  unfold gatedOn
  split
  · rfl
  · split <;> simpa only [‹devTranslate _ _ _ = _›] using translated

theorem openGateW_dies (p : Word) (a : Nat) (s : State) (e : Nat × Job) : (openGateW p a s e).dies = s.dies := by
  unfold openGateW
  dsimp only
  split
  · exact gatedOn_dies s p a e.2
  · exact gatedOn_dies s p a e.2

/-- The registrations that a condition on waiters picks are the ones that end. -/
theorem getDie_endRegistrations_waiters (s : State) (on : Waiter → Bool) (d : Nat) :
    (getDie (endRegistrations s fun _ w => on w) d).waiters = (getDie s d).waiters.filter fun w => !on w := by
  simp only [getDie, endRegistrations, tgetD,
    tfind_map (f := fun x : Die => { x with waiters := x.waiters.filter fun w => !on w })]
  cases tfind d s.dies <;> rfl

/-- A waiter waits on the 8-byte word of an address. -/
def awaitsWord (p : Word) (a : Nat) (w : Waiter) : Bool := w.key = lineKey p a && w.word / 2 = a % 128 / 8

/-- What a wake write does to the waiters: those of its word go; the marks served for them and the gates opened leave the
others. -/
theorem getDie_wakeWord_waiters (s : State) (p : Word) (a d : Nat) :
    (getDie (wakeWord s p a) d).waiters = (getDie s d).waiters.filter fun w => !awaitsWord p a w := by
  refine Eq.trans ?_ (getDie_endRegistrations_waiters s (awaitsWord p a) d)
  unfold wakeWord
  refine (foldSt_frame (fun s : State => (getDie s d).waiters)
    (fun s e => by rw [getDie, openGateW_dies, ← getDie]) _ _).trans ?_
  dsimp only
  split
  · rfl
  · exact foldSt_frame (fun s : State => (getDie s d).waiters) (fun s w => getDie_serveMarks_waiters ..) _ _

/-- Settles O49: the waiters that a wake write leaves are those of other words. -/
theorem wakeEndsRegistrations : Obligations.WakeEndsRegistrations := by
  unfold Obligations.WakeEndsRegistrations
  intro s p a d w hw hon
  rw [getDie_wakeWord_waiters] at hw
  have other := (List.mem_filter.mp hw).2
  rw [awaitsWord, decide_eq_true hon.1, decide_eq_true hon.2] at other
  exact absurd other (by decide)

end Sys2Proof.Machine
end

section
namespace Sys2Proof.Machine

/-! # The job instructions (05 R141 to R146) -/

section shared
variable {s : State} {i : Iss} {lit : Bool} {regs : List (Nat × Nat)} {sregs : List Nat} {bad badFe : Bool}
  {priv : State → Nat → Bool} {fld : Field23} {f : Iss → Eff}

/-- An instruction that needs no privilege and has no illegal field has its effect. -/
theorem sharedInstr_anyOne (h : SharedIssues s i lit regs sregs fld) :
    sharedInstr s lit regs sregs false false anyOne fld f = .next (endIss s i (f i)) :=
  sharedInstr_run h rfl (fun _ _ => rfl) rfl

/-- An illegal field is the first fault of an instruction of a shared class. -/
theorem sharedInstr_illegal (h : SharedIssues s i lit regs sregs fld) (hb : bad = true) :
    sharedInstr s lit regs sregs bad badFe priv fld f = .next (issFault s { code := cILLEGAL } i) := by
  subst hb
  cases i with
  | grp c =>
    obtain ⟨hc, hl, hr, -⟩ := h
    rw [sharedInstr, instr_grp hc hl]
    dsimp only
    rw [hr, chk_true]
    rfl
  | fe c =>
    obtain ⟨hc, hl, hr, -⟩ := h
    rw [sharedInstr, instr_fe hc hl, hr, Bool.true_or, chk_true]
    rfl

end shared

section instructions
variable {s : State} {i : Iss} {p g : BitVec 3} {a b d q : BitVec 6}

/-! ## JENQ (05 R142) -/

section jenq
variable (h : SharedIssues s i true [(a.toNat, 2), (b.toNat, 1)] [a.toNat, b.toNat] (.dest p))
include h

theorem execJenq_denied (hq : (getQueue s q.toNat).state = .free ∨ (getQueue s q.toNat).owner ≠ (issBlk i).ctx) :
    execJenq p a b q s = .next (issFault s { code := cPERMISSION } i) := by
  rw [execJenq, sharedInstr_anyOne h]
  dsimp only
  rw [if_pos (by simpa using hq), endIss_fault]

variable (hf : (getQueue s q.toNat).state ≠ .free) (ho : (getQueue s q.toNat).owner = (issBlk i).ctx)
include hf ho

theorem execJenq_refused (hr : sluiceRoom s (issBlk i).ctx = false ∨ (getQueue s q.toNat).state = .paused) :
    execJenq p a b q s = .next (issRetire (putDest s i p.toNat false) i) := by
  rw [execJenq, sharedInstr_anyOne h]
  dsimp only
  rw [if_neg (by simp [hf, ho]), if_pos (by simpa using hr), endIss_retire]

theorem execJenq_taken (hp : (getQueue s q.toNat).state ≠ .paused) (hr : sluiceRoom s (issBlk i).ctx = true) :
    execJenq p a b q s = .next (issRetire (putDest (putWord (newRoot s (issBlk i).ctx q.toNat (opWide i a.toNat)
      (some (issThread i))) i b.toNat s.sched.nextJob) i p.toNat true) i) := by
  rw [execJenq, sharedInstr_anyOne h]
  dsimp only
  rw [if_neg (by simp [hf, ho]), if_neg (by simp [hr, hp]), endIss_retire]

end jenq

/-! ## JSPAWN and JDONE (05 R142, R143) -/

section job
variable {j : Job} (hj : getJob s (issBlk i).job = some j) (hs : spawnOf s (issThread i) = none)

section jspawn
variable (h : SharedIssues s i false [(a.toNat, 2), (b.toNat, 1)] [a.toNat, b.toNat] (.dest p))
include hj hs h

/-- Without an entry or without weight to share, nothing is spawned. -/
theorem execJspawn_refused (hr : sluiceRoom s (issBlk i).ctx = false ∨ j.weight = 0) :
    execJspawn p a b s = .next (issRetire (putDest s i p.toNat false) i) := by
  rw [execJspawn, sharedInstr_anyOne h]
  simp only [hs, hj, Option.isSome_none, Option.map_some, Option.getD_some]
  rw [if_neg (by decide), if_pos (by simpa using hr), endIss_retire]

/-- The spawned job takes its entry, its weight test pending. -/
theorem execJspawn_taken (hr : sluiceRoom s (issBlk i).ctx = true) (hw : j.weight ≠ 0) :
    execJspawn p a b s = .next (issRetire (bumpId (putJob s (2 ^ 32 + nextId s)
      { num := 0, ctx := (issBlk i).ctx, queue := j.queue, recAddr := opWide i a.toNat &&& ~~~ 0xFF, state := .spawning
        root := j.root, parent := (issBlk i).job, src := some (issThread i), after := nextId s
        spawn := some (spawnDest i p.toNat b.toNat) })) i) := by
  rw [execJspawn, sharedInstr_anyOne h]
  simp only [hs, hj, Option.isSome_none, Option.map_some, Option.getD_some, Option.bind_some]
  rw [if_neg (by decide), if_neg (by simp [hr, hw]), endIss_retire]

end jspawn

section jdone
variable (h : SharedIssues s i false [(a.toNat, 1)] [a.toNat] (.guard g))
include hj hs h

/-- JDONE takes the weight that its operand names, at most what the job has; 0 names all of it. -/
theorem execJdone_run (amt : Nat) (ha : amt = if (opWord i a.toNat).toNat = 0 then j.weight
      else min (opWord i a.toNat).toNat j.weight) :
    execJdone g a s = .next (issRetire (if amt = 0 then s else modJob s (issBlk i).job fun x =>
      { x with weight := x.weight - amt, returns := x.returns ++ [(amt, issThread i, nextId s)] }) i) := by
  rw [execJdone, sharedInstr_anyOne h]
  simp only [hs, hj, Option.isSome_none, Option.map_some, Option.getD_some, ← ha]
  rw [if_neg (by decide)]
  by_cases h0 : amt = 0
  · rw [if_pos h0, if_pos h0, endIss_retire]
  · rw [if_neg h0, if_neg h0, endIss_retire]

end jdone

/-! ## JYIELD and JSELF (05 R144, R146) -/

section self
include hj

theorem execJyield_run (h : SharedIssues s i false [] [] (.guard g)) : execJyield g s =
    .next (issRetire (modCl s (issBlk i).cluster fun c => { c with budget := loadBudget j }) i) := by
  rw [execJyield, sharedInstr_anyOne h]
  simp only [hj, endIss_retire]

theorem jselfValue_eq (sel : Nat) : jselfValue s (issBlk i) sel = match sel with
    | 0 => BitVec.ofNat 32 (((getCl s (issBlk i).cluster).map Cluster.index).getD 0) ++ BitVec.ofNat 32 (issBlk i).job
    | 1 => BitVec.ofNat 64 j.weight
    | 2 => BitVec.ofNat 64 j.record.deadline.toNat
    | _ => BitVec.ofNat 32 j.parent ++ BitVec.ofNat 32 j.root := by
  simp only [jselfValue, hj, Option.map_some, Option.getD_some] <;> rfl

end self

end job

/-- A 64-bit result as JSELF leaves it: a group takes one half of it, the front-end the whole. -/
def putHalfOrWide (s : State) (i : Iss) (n : Nat) (w : BitVec 1) (v : DWord) : State :=
  match i with
  | .grp _ => putWord s i n (if w = 1 then v.extractLsb' 32 32 else v.extractLsb' 0 32)
  | .fe _ => putWide s i n v

section jself
variable {w : BitVec 1} {k : BitVec 4} (h : SharedIssues s i true [(d.toNat, 1)] [d.toNat] (.guard g))
include h

theorem execJself_reads (hk : k.toNat ≤ 3) : execJself g d w k s =
    .next (issRetire (putHalfOrWide s i d.toNat w (jselfValue s (issBlk i) k.toNat)) i) := by
  rw [execJself, sharedInstr_run h (decide_eq_false (Nat.not_lt.mpr hk)) (fun _ _ => rfl) rfl, endIss_retire]
  simp only [halfOf_eq]
  rfl

theorem execJself_illegal (hk : 3 < k.toNat) : execJself g d w k s = .next (issFault s { code := cILLEGAL } i) :=
  sharedInstr_illegal h (decide_eq_true hk)

end jself

/-! ## WAITW (05 R145) -/

/-- The comparison that a WAITW asks for. -/
def waitwReq (s : State) (i : Iss) (a b : BitVec 6) : GlobalReq :=
  { id := nextId s, inst := nextId s, thread := issThread i, split := issSplit i, die := coreDie (issCore i)
    ctx := (issBlk i).ctx, pc := issPc i, va := (opWide i a.toNat).toNat, op := .waitw (opWide i b.toNat) }

section waitw
variable (h : SharedIssues s i false [(a.toNat, 2), (b.toNat, 2)] [a.toNat, b.toNat] (.guard g))
include h

theorem execWaitw_misaligned (hm : (opWide i a.toNat).toNat % 8 ≠ 0) :
    execWaitw g a b s = .next (issFault s { code := cMISALIGN, addr := opWide i a.toNat } i) := by
  rw [execWaitw, sharedInstr_anyOne h]
  dsimp only
  rw [if_pos (by simpa [aligned] using hm), endIss_fault]

variable (hm : (opWide i a.toNat).toNat % 8 = 0) (ha : issAcquires i = false)
include hm ha

/-- WAITW sends its comparison; a translation that is refused at once is its own fault. -/
theorem execWaitw_asked : execWaitw g a b s = .next (endIss s i
    (match (getReq (issueReq (bumpId s) (waitwReq s i a b)) (nextId s)).map GlobalReq.stage with
    | some (.faulted c) => .fault { code := c, addr := opWide i a.toNat }
    | _ => .wait (leaveSet (startWait (issueReq (bumpId s) (waitwReq s i a b)) i (.waitw (nextId s))) i))) := by
  have free : heldBy (sendHolds s i false) = id := by
    simp only [sendHolds, ha]
    rfl
  rw [execWaitw, sharedInstr_anyOne h]
  dsimp only
  rw [if_neg (by simpa [aligned] using hm), free]
  rfl

variable {r : GlobalReq} (hr : getReq (issueReq (bumpId s) (waitwReq s i a b)) (nextId s) = some r)
include hr

theorem execWaitw_faulted {c : Byte} (hc : r.stage = .faulted c) :
    execWaitw g a b s = .next (issFault s { code := c, addr := opWide i a.toNat } i) := by
  rw [execWaitw_asked h hm ha, hr, Option.map_some, hc, endIss_fault]

theorem execWaitw_waits (hc : ∀ c, r.stage ≠ .faulted c) : execWaitw g a b s =
    .next (issWait (leaveSet (startWait (issueReq (bumpId s) (waitwReq s i a b)) i (.waitw (nextId s))) i) i) := by
  rw [execWaitw_asked h hm ha, hr, Option.map_some]
  split
  next c hs => exact absurd (Option.some.inj hs) (hc c)
  next => rw [endIss_wait]

end waitw

end instructions

/-- Settles O47: each instruction has its effect on the thread that issues it, by the queue, the sluice's room, the job's
weight, the selector and the comparison's address. -/
theorem jobInstructionsComplete : Obligations.JobInstructionsComplete := by
  unfold Obligations.JobInstructionsComplete
  intro s i p g a b d q w k me room
  refine ⟨fun h => ?jenq, fun j hj hs => ⟨fun h => ⟨execJspawn_refused hj hs h, execJspawn_taken hj hs h⟩, fun h => ?jdone,
    execJyield_run hj, fun h => ⟨fun hk => ?jself, execJself_illegal h⟩⟩, fun h => ?waitw⟩
  case jenq =>
    exact ⟨execJenq_denied h, execJenq_refused h,
      fun ho hc => execJenq_taken h (by rw [ho]; decide) hc (by rw [ho]; decide)⟩
  case jdone =>
    intro v amt
    have takes : execJdone g a s = _ := execJdone_run hj hs h amt rfl
    exact ⟨fun h0 => takes.trans (by rw [if_pos h0]), fun h0 => takes.trans (by rw [if_neg h0])⟩
  case jself =>
    refine (execJself_reads h hk).trans ?_
    rw [jselfValue_eq hj]
    rfl
  case waitw =>
    refine ⟨execWaitw_misaligned h, fun hm ha r hr => ⟨fun c => execWaitw_faulted h hm ha hr, fun hc => ?_⟩⟩
    refine (execWaitw_waits h hm ha hr hc).trans ?_
    cases i <;> rfl

end Sys2Proof.Machine
end

section
namespace Sys2Proof.Machine

/-! # Queues, acceptance, spawns, comparisons and wake writes (05 R115 to R118, R134, R136, R137, R142) -/

/-! ## The jobs and queues as the device reads memory -/

theorem takeFrames_sched (s : State) (ctx : Nat) (l : Leaf) : (takeFrames s ctx l).sched = s.sched := by
  unfold takeFrames
  exact foldSt_frame State.sched (fun s pa => by rfl) _ s

theorem devLeaf_sched (s : State) (ctx va : Nat) (w : Bool) : (devLeaf s ctx va w).1.sched = s.sched := by
  have translated := devTranslate_sched s ctx va
  unfold devLeaf
  split
  next h => rwa [h] at translated
  next t l h =>
    rw [h] at translated
    split
    · exact translated
    · dsimp only
      split
      · exact translated
      · exact (takeFrames_sched ..).trans translated

theorem devRead_sched (s : State) (ctx va n : Nat) : (devRead s ctx va n).1.sched = s.sched := by
  induction n generalizing s va with
  | zero => rfl
  | succ n ih =>
    have found := devLeaf_sched s ctx va false
    unfold devRead
    split
    next h => rwa [h] at found
    next t l h =>
      rw [h] at found
      have rest := ih t (va + 1)
      dsimp only
      split
      · exact found
      · split
        next h' => rw [h'] at rest; exact rest.trans found
        next h' => rw [h'] at rest; exact rest.trans found

theorem acquireFor_sched (s : State) (j : Job) : (acquireFor s j).sched = s.sched := by
  unfold acquireFor
  split
  · unfold acquireAt
    split <;> rfl
  · rfl

/-! ## Commands of a queue (05 R116, R117) -/

theorem modQueue_eq {s : State} {q : Nat} {f : HwQueue → HwQueue} {k : HwQueue} (h : f (getQueue s q) = k) :
    modQueue s q f = modQueue s q fun _ => k := by rw [modQueue, modQueue, h]

section commands
variable {s : State} {q : BitVec 6} {addr : DWord} {k : HwQueue} (hk : getQueue s q.toNat = k)
include hk

theorem execQueueSubmit_kept (hf : k.state ≠ .free) (hl : k.fifo.length < 256) :
    execQueueSubmit q addr s = .next (modQueue s q.toNat fun _ => { k with fifo := k.fifo ++ [addr &&& ~~~ 0xFF] }) := by
  rw [execQueueSubmit, modQueue_eq]
  rw [hk, if_neg (by simp [hf, hl])]

theorem execQueueSubmit_dropped (h : k.state = .free ∨ 256 ≤ k.fifo.length) :
    execQueueSubmit q addr s = .next (modQueue s q.toNat fun _ => { k with drops := min 0xFFFF (k.drops + 1) }) := by
  rw [execQueueSubmit, modQueue_eq]
  rw [hk, if_pos (by simpa using h)]

theorem execQueuePause_run : execQueuePause q s = .next (modQueue s q.toNat fun _ =>
    { k with pause := true, state := if k.state = .open_ then .paused else k.state }) := by
  rw [execQueuePause, modQueue_eq]
  rw [hk]

theorem execQueueUnpause_run : execQueueUnpause q s = .next (modQueue s q.toNat fun _ =>
    { k with pause := false, state := if k.state = .paused then .open_ else k.state }) := by
  rw [execQueueUnpause, modQueue_eq]
  rw [hk]

theorem execQueueFlush_run (hf : k.state ≠ .free) : execQueueFlush q s =
    .next (ctxIdle (modQueue s q.toNat fun _ => { k with fifo := [] }) k.owner) := by
  rw [execQueueFlush, hk, if_neg hf, modQueue_eq]
  rw [hk]

theorem execQueueFlush_free (hf : k.state = .free) : execQueueFlush q s = .next s := by
  rw [execQueueFlush, hk]
  exact congrArg _ (if_pos hf)

end commands

/-! ## The acceptance unit (05 R118) -/

/-- What the acceptance unit asks of a queue that it draws. -/
theorem drawable_iff (s : State) (q : Nat) : drawable s q = true ↔
    (getQueue s q).state = .open_ ∧ (getQueue s q).fifo ≠ [] ∧ (getCtx s (getQueue s q).owner).state ≠ .closing ∧
      drawRoom s (getQueue s q).owner = true := by
  simp [drawable, and_assoc]

/-- The queue drawn is the first in its turn that may be. -/
theorem nextQueue_first {s : State} {i : Nat} (hi : i < 64) (hd : drawable s ((s.sched.lastDrawn + 1 + i) % 64) = true)
    (hp : ∀ j, j < i → ¬ drawable s ((s.sched.lastDrawn + 1 + j) % 64) = true) :
    nextQueue s = some ((s.sched.lastDrawn + 1 + i) % 64) := by
  rw [nextQueue, List.find?_map, Option.map_eq_some_iff]
  exact ⟨i, List.find?_range_eq_some.mpr ⟨hd, List.mem_range.mpr hi, fun j hj => by simpa using hp j hj⟩, rfl⟩

theorem nextQueue_none {s : State} (h : ∀ m, m < 64 → ¬ drawable s m = true) : nextQueue s = none := by
  rw [nextQueue, List.find?_eq_none]
  intro m hm
  obtain ⟨i, -, rfl⟩ := List.mem_map.mp hm
  exact h _ (Nat.mod_lt _ (by decide))

/-- A queue gives up its oldest record, which becomes a job. -/
theorem execAcceptanceDraw_drawn {s : State} {q : Nat} {a : DWord} {r : List DWord} (hq : nextQueue s = some q)
    (hf : (getQueue s q).fifo = a :: r) :
    let t := modQueue s q fun x => { x with fifo := r }
    execAcceptanceDraw s = .next (newRoot { t with sched := { t.sched with lastDrawn := q } } (getQueue s q).owner q a none) := by
  simp only [execAcceptanceDraw, hq, hf]

theorem execAcceptanceDraw_none {s : State} (hq : nextQueue s = none) : execAcceptanceDraw s = .next s := by
  simp only [execAcceptanceDraw, hq]

/-! ## Acceptance of a job (05 R115) -/

theorem execJobAccept_due {s : State} {n : Nat} {j : Job} (hj : getJob s n = some j) (hst : j.state = .accepting)
    (hs : j.src = none ∨ ∃ t, j.src = some t ∧ (j.fetched.isSome ∨ storesBefore s t j.after = true)) :
    execJobAccept n s = .next (checkJob (fetchRecord (acquireFor s j) n) n) := by
  simp only [execJobAccept, hj]
  refine event_due ?_
  rw [decide_eq_true hst, Bool.true_and]
  rcases hs with h | ⟨t, h, hr⟩
  · rw [h]
  · rw [h]
    simpa using hr

theorem checkJob_unread {s : State} {n : Nat} {j : Job} {c : Byte} (hj : getJob s n = some j)
    (hf : j.fetched = some (some c)) : checkJob s n = failJob s n c := by
  simp only [checkJob, hj, hf]

/-- A job whose record is read is still there. -/
theorem getJob_fetchRecord {s : State} {n : Nat} {j : Job} (hj : getJob s n = some j) :
    ∃ k, getJob (fetchRecord s n) n = some k := by
  unfold fetchRecord
  simp only [hj]
  split
  · exact ⟨j, hj⟩
  · have read := devRead_sched s j.ctx j.recAddr.toNat 256
    split
    all_goals
      rename_i h
      rw [h] at read
      exact ⟨_, by rw [getJob, modJob, tfind_tmod_same, read, ← getJob, hj, Option.map_some]⟩

/-! ## The weight test of a spawn (05 R134, R142) -/

theorem writeSpawn_sched (s : State) (t : Thread) (d : SpawnDest) (num : Option Word) :
    (writeSpawn s t d num).sched = s.sched := by
  unfold writeSpawn
  split
  · dsimp only
    split
    · rw [writeS_sched, writeFpred_sched]
    · rw [writeFpred_sched]
  · dsimp only
    split
    · rw [modGrp_sched, modSpl_sched, writePred_sched]
    · rw [modSpl_sched, writePred_sched]

/-- The share of its parent's weight that a spawn whose record has been read asks for; a record that names none, or that
cannot be read, takes half. -/
def spawnShare (s : State) (n parent : Nat) : Nat :=
  let share := ((getJob s n).map fun k => k.record.twshare).getD 0
  if share = 0 then ((getJob s parent).map Job.weight).getD 0 / 2 else share

/-- A spawn that its parent can share with: the parent's weight is less by x, and the child takes the next number. -/
def spawned (s : State) (n parent : Nat) (k : Job) (x : Nat) : State :=
  let t := modJob s parent fun y => { y with weight := y.weight - x }
  takeNumber (putJob { t with sched := { t.sched with jobs := tdel n t.sched.jobs } } s.sched.nextJob.toNat
    { k with num := s.sched.nextJob, state := .accepting, weight := x, spawn := none })

section spawn
variable {s : State} {n : Nat} {j : Job} {t : Thread} {d : SpawnDest}

theorem execJspawnResolve_due (hj : getJob s n = some j) (hst : j.state = .spawning) (ht : j.src = some t)
    (hd : j.spawn = some d) (hb : storesBefore s t j.after = true) :
    execJspawnResolve n s = .next (resolveSpawn s n j t d) := by
  simp only [execJspawnResolve, hj, ht, hd]
  exact event_due (by rw [decide_eq_true hst, hb]; rfl)

variable {s' : State} (hs : fetchRecord (acquireFor s j) n = s') {w x : Nat}
  (hw : ((getJob s' j.parent).map Job.weight).getD 0 = w) (hx : spawnShare s' n j.parent = x)
include hs hw hx

/-- A parent that would keep nothing gives nothing: the spawn is forgotten, and its thread told so. -/
theorem resolveSpawn_refused (h : x < 1 ∨ w - x < 1) : resolveSpawn s n j t d =
    writeSpawn { s' with sched := { s'.sched with jobs := tdel n s'.sched.jobs } } t d none := by
  have refused : (decide (x < 1) || decide (w < x + 1)) = true := by
    simp only [Bool.or_eq_true, decide_eq_true_eq]
    omega
  subst hs hw hx
  exact if_pos refused

theorem resolveSpawn_shared {k : Job} (hk : getJob s' n = some k) (h1 : 1 ≤ x) (h2 : x + 1 ≤ w) :
    resolveSpawn s n j t d = writeSpawn (spawned s' n j.parent k x) t d (some s'.sched.nextJob) := by
  have shared : ¬ (decide (x < 1) || decide (w < x + 1)) = true := by
    simp only [Bool.or_eq_true, decide_eq_true_eq]
    omega
  subst hs hw hx
  refine (if_neg shared).trans ?_
  split
  next hn => exact nomatch hk.symm.trans hn
  next k' hk' =>
    cases hk.symm.trans hk'
    rfl

end spawn

/-- The child stands under its number. -/
theorem getJob_spawned (s : State) (n parent : Nat) (k : Job) (x : Nat) :
    getJob (spawned s n parent k x) s.sched.nextJob.toNat =
      some { k with num := s.sched.nextJob, state := .accepting, weight := x, spawn := none } :=
  tfind_tput_same ..

theorem getJob_spawned_parent {s : State} {n parent : Nat} (k : Job) (x : Nat) (hn : parent ≠ n)
    (hc : parent ≠ s.sched.nextJob.toNat) : getJob (spawned s n parent k x) parent =
      (getJob s parent).map fun y => { y with weight := y.weight - x } :=
  calc getJob (spawned s n parent k x) parent
    _ = tfind parent (tdel n (modJob s parent fun y => { y with weight := y.weight - x }).sched.jobs) :=
      tfind_tput_other _ hc _
    _ = tfind parent (modJob s parent fun y => { y with weight := y.weight - x }).sched.jobs := tfind_tdel_other hn _
    _ = (getJob s parent).map fun y => { y with weight := y.weight - x } := tfind_tmod_same ..

/-! ## Comparisons and wake writes at their home (05 R136, R137) -/

section home
variable {s : State} {r : GlobalReq} (h : getReq s r.id = some r) (ha : atHomeNow s r = true)
  (hc : homeCode s r.die (reqPlace r) (reqAddr r) = none) (hf : recallFirst s r = [])
include h ha hc hf

theorem execWaitwCompare_atHome {e : DWord} (hop : r.op = .waitw e) :
    execWaitwCompare r.id s = .next (compareWord s r e) := by
  simp only [execWaitwCompare, h, hop, hc, hf, List.isEmpty_nil, if_true]
  exact event_due ha

theorem execWakeWritePerform_atHome (hop : r.op = .wake) (hs : r.send = none ∨ placeTier (reqPlace r) ≠ 3) :
    execWakeWritePerform r.id s = .next (performWake s r) := by
  have here : (r.send.isSome && decide (placeTier (reqPlace r) = 3)) = false := by
    rcases hs with hs | hs
    · rw [hs]; rfl
    · rw [decide_eq_false hs, Bool.and_false]
  simp only [execWakeWritePerform, h, hop, hc, hf, here, Bool.false_eq_true, if_false, ne_eq, not_true_eq_false,
    List.isEmpty_nil, if_true]
  refine event_due ?_
  rw [ha, wakeReleased, hop]
  rfl

end home

section compare
variable {s : State} {r : GlobalReq} {e : DWord} (hb : compareBad s (reqPlace r) (reqAddr r) = none)
  (ht : placeTier (reqPlace r) ≠ 3)
include hb ht

theorem compareWord_registers (he : homeValue s (reqPlace r) (reqAddr r) 8 = e)
    (hn : sliceWaiters s (reqPlace r) (reqAddr r) < 256) : compareWord s r e =
      modDie (dropReq s r.id) (homeDie (reqPlace r) (reqAddr r)) fun d => { d with waiters := d.waiters ++
        [{ ctx := r.ctx, key := lineKey (reqPlace r) (reqAddr r), word := reqAddr r % 128 / 4, thread := r.thread
           split := r.split, id := r.id }] } := by
  simp only [compareWord, hb, if_neg ht]
  refine if_pos ?_
  rw [decide_eq_true he]
  exact decide_eq_true hn

theorem compareWord_passes (hn : homeValue s (reqPlace r) (reqAddr r) 8 ≠ e ∨
    256 ≤ sliceWaiters s (reqPlace r) (reqAddr r)) : compareWord s r e =
      if placeRemote (reqPlace r) then dropReq s r.id
      else serveMarks (dropReq s r.id) r.id r.die (reqPlace r) [reqAddr r, reqAddr r + 4] := by
  simp only [compareWord, hb, if_neg ht]
  refine if_neg ?_
  rw [Bool.and_eq_true, decide_eq_true_eq, decide_eq_true_eq]
  rintro ⟨he, hl⟩
  exact hn.elim (absurd he) (absurd hl ∘ Nat.not_lt.mpr)

end compare

theorem performWake_wake {s : State} {r : GlobalReq} (hop : r.op = .wake) : performWake s r =
    if (getReq (performStore s r) r.id).any (fun q => q.stage = .performed) then
      wakeWord (performStore s r) (reqPlace r) (reqAddr r)
    else performStore s r := by
  simp only [performWake, hop]

/-- Settles O48: a command finds its queue free, open or paused; the first queue in turn that may be drawn is; a spawn is
decided by what its parent would keep; a comparison and a wake write are made at the word's home. -/
theorem jobEvents : Obligations.JobEvents := by
  unfold Obligations.JobEvents
  constructor
  · intro s q addr k into
    have hk : getQueue s q.toNat = k := rfl
    refine ⟨execQueueSubmit_kept hk, execQueueSubmit_dropped hk, ?paused, ?pauseKept, ?unpaused, ?unpauseKept,
      execQueueFlush_run hk, execQueueFlush_free hk, fun i a r hi hd hp hf => ?drawn, fun hn => ?none⟩
    case paused => exact fun ho => (execQueuePause_run hk).trans (by rw [if_pos ho])
    case pauseKept => exact fun ho => (execQueuePause_run hk).trans (by rw [if_neg ho])
    case unpaused => exact fun hp => (execQueueUnpause_run hk).trans (by rw [if_pos hp])
    case unpauseKept => exact fun hp => (execQueueUnpause_run hk).trans (by rw [if_neg hp])
    case drawn =>
      exact execAcceptanceDraw_drawn (nextQueue_first hi ((drawable_iff ..).mpr hd)
        fun j hj => mt (drawable_iff ..).mp (hp j hj)) hf
    case none => exact execAcceptanceDraw_none (nextQueue_none fun m hm => mt (drawable_iff ..).mp (hn m hm))
  · intro s
    refine ⟨fun n j => execJobAccept_due, fun n j c => checkJob_unread, fun n j t d hj hst ht hd hb => ?spawn,
      fun r e h hop ha hc hf hb ht => ?compare, fun r h hop ha hc hf hs => ?wake⟩
    case spawn =>
      intro s' w share x gone
      have resolves : execJspawnResolve n s = _ := execJspawnResolve_due hj hst ht hd hb
      refine ⟨fun hr => resolves.trans (congrArg _ (resolveSpawn_refused rfl rfl rfl hr)), fun h1 h2 => ?shared⟩
      obtain ⟨k, hk⟩ : ∃ k, getJob s' n = some k :=
        getJob_fetchRecord (by rw [getJob, acquireFor_sched, ← getJob]; exact hj)
      have written : ∀ m, getJob (writeSpawn (spawned s' n j.parent k x) t d (some s'.sched.nextJob)) m =
          getJob (spawned s' n j.parent k x) m := fun m => by rw [getJob, writeSpawn_sched, ← getJob]
      refine ⟨_, _, resolves.trans (congrArg _ (resolveSpawn_shared rfl rfl rfl hk h1 h2)),
        (written _).trans (getJob_spawned ..), rfl, rfl, fun hn hc => ?parent⟩
      refine (congrArg _ ((written j.parent).trans (getJob_spawned_parent k x hn hc))).trans ?_
      cases hp : getJob s' j.parent with
      | none => exact absurd h2 (by simp [w, hp])
      | some y => simp [w, hp]
    case compare =>
      intro p a
      have compares : execWaitwCompare r.id s = _ := execWaitwCompare_atHome h ha hc hf hop
      exact ⟨fun he hn => compares.trans (congrArg _ (compareWord_registers hb ht he hn)),
        fun hn => compares.trans (congrArg _ (compareWord_passes hb ht hn))⟩
    case wake => exact (execWakeWritePerform_atHome h ha hc hf hop hs).trans (congrArg _ (performWake_wake hop))

end Sys2Proof.Machine
end

section
namespace Sys2Proof.Machine

/-! # Placement, launch, pre-emption, save, discard and retirement (05 R123 to R132, 06 R156, R160) -/

/-! ## Placement (05 R123, R124, R130) -/

section dispatch
variable {s : State}

theorem execDispatch_pondDue (h : pondDue s = true) : execDispatch s = .next s := if_pos h

variable (h : pondDue s = false)
include h

theorem execDispatch_preempts {u : State} (hp : preemptFor s = some u) : execDispatch s = .next u := by
  rw [execDispatch, h, if_neg (by decide), hp]

theorem execDispatch_idle (hp : preemptFor s = none) (hf : firstPlaceable s = none) : execDispatch s = .next s := by
  rw [execDispatch, h, if_neg (by decide), hp, hf]

section candidate
variable {c : Cand} {x y : Nat} (hp : preemptFor s = none) (hf : firstPlaceable s = some (c, x, y))
include hp hf

theorem execDispatch_places (hm : s.mode.getLsbD 2 = true) : execDispatch s = .next (placeAt s c x y) := by
  rw [execDispatch, h, if_neg (by decide), hp, hf]
  exact if_pos hm

theorem execDispatch_posts (hm : s.mode.getLsbD 2 = false) (hr : s.sched.placeReq = none) :
    execDispatch s = .next (postPlacement s c) := by
  rw [execDispatch, h, if_neg (by decide), hp, hf]
  exact (if_neg (ne_true_of_eq_false hm)).trans (event_due (by rw [hr]; rfl))

end candidate

end dispatch

/-- The state in which the host's choice of a corner is looked at. -/
def cornerTaken (s : State) (k : BitVec 8) : State :=
  { s with sched := { s.sched with placeReq := none }, host := { s.host with placeCorner := k } }

/-- The quotas no longer allow a candidate that has been posted (04 R87, 05 R123). -/
def givenUp (t : State) (j : Job) (c : Cand) : Bool := !(candidates t).contains c || !coresOk t j c || !energyOk t j

/-- The dies that a rectangle of the job may cover. -/
def mostDies (j : Job) : Nat := if recBond j.record || j.hdr.bond then 2 else 1

/-- The corner that the host has chosen admits the job's rectangle. -/
def cornerUsable (t : State) (j : Job) (job x y : Nat) : Bool :=
  rectUsable t j.record (coreFree t job) x y j.w j.h && (rectDies x y j.w j.h).length ≤ mostDies j

section mailbox
variable {s t : State} {k : BitVec 8} {r : PlaceReq} {j : Job} (hr : s.sched.placeReq = some r)
  (ht : cornerTaken s k = t) (hj : getJob s r.job = some j) (hd : pondDue t = false)
include hr ht hj hd

theorem execPlacementMailboxGo_eq : execPlacementMailboxGo k s =
    if givenUp t j ⟨r.job, r.cluster⟩ then .next t
    else if cornerUsable t j r.job (k.toNat % 16) (k.toNat / 16) then
      .next (placeAt t ⟨r.job, r.cluster⟩ (k.toNat % 16) (k.toNat / 16))
    else .next (postPlacement t ⟨r.job, r.cluster⟩) := by
  subst ht
  unfold execPlacementMailboxGo
  simp only [hr]
  split
  next hn => exact nomatch hj.symm.trans hn
  next j' hj' =>
    cases hj.symm.trans hj'
    exact if_neg (ne_true_of_eq_false hd)

theorem execPlacementMailboxGo_givenUp (h : (candidates t).contains ⟨r.job, r.cluster⟩ = false ∨
    coresOk t j ⟨r.job, r.cluster⟩ = false ∨ energyOk t j = false) : execPlacementMailboxGo k s = .next t := by
  rw [execPlacementMailboxGo_eq hr ht hj hd, if_pos]
  rcases h with h | h | h <;> simp [givenUp, h, -List.contains_eq_mem]

section allowed
variable (hc : (candidates t).contains ⟨r.job, r.cluster⟩ = true) (ho : coresOk t j ⟨r.job, r.cluster⟩ = true)
  (he : energyOk t j = true)
include hc ho he

theorem execPlacementMailboxGo_allowed : execPlacementMailboxGo k s =
    if cornerUsable t j r.job (k.toNat % 16) (k.toNat / 16) then
      .next (placeAt t ⟨r.job, r.cluster⟩ (k.toNat % 16) (k.toNat / 16))
    else .next (postPlacement t ⟨r.job, r.cluster⟩) := by
  rw [execPlacementMailboxGo_eq hr ht hj hd, givenUp, hc, ho, he]
  exact if_neg (by decide)

theorem execPlacementMailboxGo_placed
    (hu : rectUsable t j.record (coreFree t r.job) (k.toNat % 16) (k.toNat / 16) j.w j.h = true)
    (hl : (rectDies (k.toNat % 16) (k.toNat / 16) j.w j.h).length ≤ mostDies j) : execPlacementMailboxGo k s =
      .next (placeAt t ⟨r.job, r.cluster⟩ (k.toNat % 16) (k.toNat / 16)) := by
  rw [execPlacementMailboxGo_allowed hr ht hj hd hc ho he, cornerUsable, hu, decide_eq_true hl]
  rfl

theorem execPlacementMailboxGo_postedAgain
    (hu : rectUsable t j.record (coreFree t r.job) (k.toNat % 16) (k.toNat / 16) j.w j.h = false ∨
      mostDies j < (rectDies (k.toNat % 16) (k.toNat / 16) j.w j.h).length) : execPlacementMailboxGo k s =
      .next (postPlacement t ⟨r.job, r.cluster⟩) := by
  rw [execPlacementMailboxGo_allowed hr ht hj hd hc ho he, cornerUsable]
  refine if_neg ?_
  rcases hu with hu | hu
  · rw [hu, Bool.false_and]
    exact Bool.false_ne_true
  · rw [decide_eq_false (Nat.not_le.mpr hu), Bool.and_false]
    exact Bool.false_ne_true

end allowed

end mailbox

/-! ## Zeroing and launch (04 R93, R94, 06 R156) -/

/-- A core that has been zeroed for its new owner. -/
def zeroed (s : State) (core : Nat) : State :=
  modCore (zeroCore s core) core fun k => { k with zeroing := false, lastCtx := none }

theorem getCore_modCore (s : State) (core : Nat) (f : CoreSt → CoreSt) :
    getCore (modCore s core f) core = f (getCore s core) := by
  simp only [getCore, modCore, tgetD, tfind_tput_same, Option.getD_some]

/-- Nothing of the last owner is left in a core's memories. -/
theorem getCore_zeroed (s : State) (core : Nat) : (getCore (zeroed s core) core).pool = [] ∧
    (getCore (zeroed s core) core).full = [] ∧ (getCore (zeroed s core) core).tiles = [] ∧
    (getCore (zeroed s core) core).slots = [] := by
  have memories : getCore (zeroCore s core) core =
      { getCore s core with pool := [], full := [], tags := [], slots := [], tiles := [] } :=
    show tgetD {} core (modCore s core fun k =>
      { k with pool := [], full := [], tags := [], slots := [], tiles := [] }).cores = _ from getCore_modCore ..
  rw [zeroed, getCore_modCore, memories]
  exact ⟨rfl, rfl, rfl, rfl⟩

theorem execCoreZeroingComplete_found {s : State} {core n : Nat} {cl : Cluster}
    (h : (s.sched.clusters.find? fun e => e.2.state = .placing && e.2.zeroing.contains core) = some (n, cl)) :
    execCoreZeroingComplete core s = .next (setBlock (modCl (zeroed s core) n fun c =>
      { c with zeroing := c.zeroing.filter (· ≠ core) }) n core ((clusterCores cl).idxOf core)) := by
  simp only [execCoreZeroingComplete, h]
  rfl

@[simp] theorem getCl_modCl (s : State) (n : Nat) (f : Cluster → Cluster) : getCl (modCl s n f) n = (getCl s n).map f :=
  tfind_tmod_same ..

/-- A cluster that may stay runs once all its cores are zeroed. -/
theorem execClusterLaunch_running {s : State} {n : Nat} {c : Cluster} {j : Job} (hc : getCl s n = some c)
    (hj : getJob s c.job = some j) (hst : c.state = .placing) (hz : c.zeroing = []) (hm : mustLeave s j.ctx c = false) :
    ∃ u, execClusterLaunch n s = .next u ∧ getCl u n =
      some { c with state := .running, saved := [], parked := false, woken := false, budget := loadBudget j } := by
  simp only [execClusterLaunch, hc, hj, hm, Bool.false_eq_true, if_false]
  refine ⟨_, event_due (by rw [hst, hz]; rfl), ?_⟩
  rw [getCl, foldSt_frame State.sched fun s k => modBlk_sched .., ← getCl, getCl_modCl, hc, Option.map_some]

/-! ## The budget and retirement (05 R129, 06 R160) -/

section budget
variable {s : State} {n : Nat} {c : Cluster} (hc : getCl s n = some c)
include hc

theorem execBudgetExhausted_left (hb : c.budget ≠ some 0) : execBudgetExhausted n s = .next s := by
  simp only [execBudgetExhausted, hc]
  exact event_not_due (by rw [decide_eq_false hb, Bool.and_false])

variable (hst : c.state = .running) (hb : c.budget = some 0)
include hst hb

theorem execBudgetExhausted_run : execBudgetExhausted n s = .next (preemptCluster
    (match getBlk s (memberCore c 0) with
      | some b => queueRecord s b.ctx { blockRecord s (memberCore c 0) b .fe cBUDGET 3 with thread := none }
      | none => s) n) := by
  simp only [execBudgetExhausted, hc]
  refine (event_due (by rw [hst, hb]; rfl)).trans ?_
  rfl

theorem execBudgetExhausted_empty (hn : getBlk s (memberCore c 0) = none) :
    execBudgetExhausted n s = .next (preemptCluster s n) := by
  rw [execBudgetExhausted_run hc hst hb, hn]

theorem execBudgetExhausted_recorded {b : Block} (hn : getBlk s (memberCore c 0) = some b) :
    execBudgetExhausted n s = .next (preemptCluster
      (queueRecord s b.ctx { blockRecord s (memberCore c 0) b .fe cBUDGET 3 with thread := none }) n) := by
  rw [execBudgetExhausted_run hc hst hb, hn]

end budget

section retire
variable {s t : State} {core : Nat} {b : Block} (hb : getBlk s core = some b) (hd : blockDone s core b = true)
  (hx : (getCtx s b.ctx).state ≠ .closing)
  (ht : modBlk (profAppend (settleReturns s) core b.ctx (blockRecordBytes s core b)) core
    (fun b => { b with retired := true }) = t)
include hb hd hx ht

theorem execBlockRetire_run : execBlockRetire core s = .next (match getCl t b.cluster with
    | some cl => if (clusterCores cl).all fun c => (getBlk t c).all Block.retired then releaseCluster t b.cluster cl else t
    | none => t) := by
  subst ht
  simp only [execBlockRetire, hb]
  refine (event_due ?_).trans ?_
  · rw [hd, decide_eq_true hx]
    rfl
  · rfl

theorem execBlockRetire_gone (hc : getCl t b.cluster = none) : execBlockRetire core s = .next t := by
  rw [execBlockRetire_run hb hd hx ht, hc]

theorem execBlockRetire_cluster {cl : Cluster} (hc : getCl t b.cluster = some cl) : execBlockRetire core s =
    .next (if (clusterCores cl).all fun c => (getBlk t c).all Block.retired then releaseCluster t b.cluster cl else t) := by
  rw [execBlockRetire_run hb hd hx ht, hc]

end retire

/-! ## Save and discard (05 R131, R132) -/

/-- The context of a cluster's blocks. -/
def coresCtx (s : State) (cs : List Nat) : Nat := ((cs.head?.bind (getBlk s)).map Block.ctx).getD 0

/-- The cores of a cluster with the save slots that their blocks take. -/
def saveSlots (s : State) (cs : List Nat) : List (Nat × Nat) := cs.zip (freeSlots s (coresCtx s cs) cs.length)

/-- Every block of a cluster is parked, or has retired. -/
def allParked (s : State) (cs : List Nat) : Bool := cs.all fun k => (getBlk s k).any fun b => blockParked s b || b.retired

section leave
variable {s : State} {n : Nat} {c : Cluster} (hc : getCl s n = some c)
include hc

theorem execClusterSave_notPreempting (hst : c.state ≠ .preempting) : execClusterSave n s = .next s := by
  simp only [execClusterSave, hc]
  exact event_not_due (by rw [decide_eq_false hst]; rfl)

theorem execIdempotentDiscard_notPreempting (hst : c.state ≠ .preempting) : execIdempotentDiscard n s = .next s := by
  simp only [execIdempotentDiscard, hc]
  exact event_not_due (by rw [decide_eq_false hst]; rfl)

variable (hst : c.state = .preempting) (hq : clusterQuiet s c = true)
  (hx : (getCtx s (coresCtx s (clusterCores c))).state ≠ .faulted)
include hst hq hx

/-- A quiet cluster of an idempotent job leaves without frames. -/
theorem execIdempotentDiscard_quiet (hd : discardable s c = true) : execIdempotentDiscard n s =
    .next (ctxIdle (jobSettle (modCl (leaveCores s false ((clusterCores c).map fun k => (k, none))).1 n fun x =>
      { x with state := .discarded, saved := (leaveCores s false ((clusterCores c).map fun k => (k, none))).2
               parked := false, woken := false, draining := [] }) c.job) (coresCtx s (clusterCores c))) := by
  simp only [execIdempotentDiscard, hc]
  refine event_due ?_
  rw [hst, hq, hd]
  exact decide_eq_true hx

variable (hd : discardable s c = false) {t : State}
include hd

theorem execClusterSave_failed {code : Byte} {core : Nat} {b : Block}
    (hw : writeFrames s (coresCtx s (clusterCores c)) (saveSlots s (clusterCores c)) = (t, some (code, core)))
    (hb : getBlk t core = some b) : execClusterSave n s = .next (saveFailed t core b code) := by
  simp only [execClusterSave, hc]
  refine (event_due ?_).trans (congrArg _ ?_)
  · rw [hst, hq, hd]
    exact decide_eq_true hx
  · rw [saveSlots, coresCtx] at hw
    rw [hw]
    dsimp only
    rw [hb]

theorem execClusterSave_saved
    (hw : writeFrames s (coresCtx s (clusterCores c)) (saveSlots s (clusterCores c)) = (t, none)) :
    let r := leaveCores t (allParked s (clusterCores c)) ((saveSlots s (clusterCores c)).map fun e => (e.1, some e.2))
    execClusterSave n s = .next (ctxIdle (jobSettle (modCl r.1 n fun x =>
      { x with state := .saved, saved := r.2, parked := allParked s (clusterCores c)
               woken := (clusterCores c).any fun k => (getBlk s k).any (blockWoken s), draining := [] }) c.job)
      (coresCtx s (clusterCores c))) := by
  simp only [execClusterSave, hc]
  refine (event_due ?_).trans (congrArg _ ?_)
  · rw [hst, hq, hd]
    exact decide_eq_true hx
  · rw [saveSlots, coresCtx] at hw
    rw [hw]
    rfl

end leave

/-- Settles O51: the dispatcher pre-empts, places or posts by what it finds first; a cluster launches once its cores are
zeroed, is pre-empted as its budget ends, and leaves its cores saved, discarded or retired. -/
theorem dispatcherEvents : Obligations.DispatcherEvents := by
  unfold Obligations.DispatcherEvents
  refine ⟨⟨?dispatch, ?mailbox, ?zeroed, ?launch, ?budget, ?retire⟩, ?leave⟩
  case dispatch =>
    exact fun s => ⟨execDispatch_pondDue, fun h => ⟨fun u => execDispatch_preempts h, fun c x y hp hf =>
      ⟨execDispatch_places h hp hf, execDispatch_posts h hp hf⟩, execDispatch_idle h⟩⟩
  case mailbox =>
    intro s k r j hr t c x y hj hd
    exact ⟨execPlacementMailboxGo_givenUp hr rfl hj hd, execPlacementMailboxGo_placed hr rfl hj hd,
      execPlacementMailboxGo_postedAgain hr rfl hj hd⟩
  case zeroed => exact fun s core n cl h => ⟨getCore_zeroed s core, execCoreZeroingComplete_found h⟩
  case launch =>
    intro s n c j hc hj hst hz hm
    obtain ⟨u, hu, hk⟩ := execClusterLaunch_running hc hj hst hz hm
    exact ⟨u, _, hu, hk, rfl⟩
  case budget =>
    exact fun s n c hc => ⟨execBudgetExhausted_empty hc, fun b hst hb => execBudgetExhausted_recorded hc hst hb,
      execBudgetExhausted_left hc⟩
  case retire =>
    exact fun s core b hb hd hx => ⟨execBlockRetire_gone hb hd hx rfl, fun cl => execBlockRetire_cluster hb hd hx rfl⟩
  case leave =>
    intro s n c hc
    exact ⟨fun hst hq hd hx => ⟨fun t code core b => execClusterSave_failed hc hst hq hx hd,
      fun t => execClusterSave_saved hc hst hq hx hd⟩, fun hst hq hd hx => execIdempotentDiscard_quiet hc hst hq hx hd,
      fun hst => ⟨execClusterSave_notPreempting hc hst, execIdempotentDiscard_notPreempting hc hst⟩⟩

end Sys2Proof.Machine
end

section
namespace Sys2Proof.Machine

/-! # Issue: instruction fetch, the active sets, the time-out of WAITJ (06 R157, 07 R165, R184) -/

/-! ## Instruction fetch (06 R157) -/

@[simp] theorem takeWalk_cur (s : State) (core ctx va : Nat) : (takeWalk s core ctx va).cur = s.cur := rfl

@[simp] theorem startWalk_cur (s : State) (core ctx va : Nat) (keep : Bool) :
    (startWalk s core ctx va keep).cur = s.cur := by
  unfold startWalk
  split <;> rfl

@[simp] theorem askLeaf_cur (s : State) (core ctx va : Nat) : (askLeaf s core ctx va).1.cur = s.cur := by
  unfold askLeaf
  split
  · exact takeWalk_cur ..
  · exact startWalk_cur ..

/-- To look for a line of code leaves the issuing thread the same. -/
@[simp] theorem codeLine_cur (s : State) (core : Nat) (b : Block) (va : Nat) : (codeLine s core b va).1.cur = s.cur := by
  have asked := askLeaf_cur s core b.ctx va
  unfold codeLine
  split
  next h => rwa [h] at asked
  next h => rwa [h] at asked
  next h =>
    rw [h] at asked
    split
    · exact asked
    · simp only [apply_ite Prod.fst, apply_ite State.cur, bumpFree_cur, ite_self]
      exact asked

theorem codeLine_eq_cur {s t : State} {core : Nat} {b : Block} {va : Nat} {o : Option (Line ⊕ Byte)}
    (h : codeLine s core b va = (t, o)) : t.cur = s.cur := by
  rw [← codeLine_cur s core b va, h]

section fetch
variable {s : State} {b : Block} {pc : Word} (hf : fetcher s = some (b, pc))
include hf

theorem execInstructionFetchFill_cached (h : (fetchWord s s.cur.core b pc).isSome = true) :
    execInstructionFetchFill s = .next s := by
  simp only [execInstructionFetchFill, hf, if_pos h]

variable (hw : fetchWord s s.cur.core b pc = none) {t : State}
include hw

/-- The line goes to the core that issues, which the look-up leaves the same. -/
theorem execInstructionFetchFill_line {l : Line}
    (h : codeLine s s.cur.core b (codeVa b pc) = (t, some (.inl l))) :
    execInstructionFetchFill s = .next (putLine t s.cur.core b.ctx (codeVa b pc) l) := by
  rw [← codeLine_eq_cur h]
  simp only [execInstructionFetchFill, hf, hw, h, Option.isSome_none, Bool.false_eq_true, if_false]

theorem execInstructionFetchFill_code {k : Byte}
    (h : codeLine s s.cur.core b (codeVa b pc) = (t, some (.inr k))) : execInstructionFetchFill s =
      .next (fetchEnds t (.fault { code := k, addr := BitVec.ofNat 64 (codeVa b pc) })) := by
  simp only [execInstructionFetchFill, hf, hw, h, Option.isSome_none, Bool.false_eq_true, if_false]

theorem execInstructionFetchFill_held (h : codeLine s s.cur.core b (codeVa b pc) = (t, none)) :
    execInstructionFetchFill s = .next (fetchEnds t (.hold 11)) := by
  simp only [execInstructionFetchFill, hf, hw, h, Option.isSome_none, Bool.false_eq_true, if_false]

end fetch

/-! ## The active sets (07 R165) -/

/-- The groups of a partition that hold a place of its active set. -/
def activeMembers (l : List (Nat × Group)) : List (Nat × Group) :=
  l.filter fun e => e.2.run = .active && !e.2.stopped

/-- A group of a partition has entered the active set in the cycle. -/
def admittedIn (l : List (Nat × Group)) (cyc : Nat) : Bool := l.any fun e => e.2.run = .active && e.2.admitted = cyc

theorem admittedIn_iff {l : List (Nat × Group)} {cyc : Nat} :
    admittedIn l cyc = true ↔ ∃ e ∈ l, e.2.run = .active ∧ e.2.admitted = cyc := by
  simp [admittedIn]

theorem admittedIn_eq_false {l : List (Nat × Group)} {cyc : Nat}
    (h : ∀ e ∈ l, e.2.run = .active → e.2.admitted ≠ cyc) : admittedIn l cyc = false := by
  rw [Bool.eq_false_iff, Ne, admittedIn_iff]
  rintro ⟨e, he, hr, ha⟩
  exact h e he hr ha

section refill
variable {s : State} {core : Nat} {part : BitVec 2} {b : Block} {g : Nat} (hb : getBlk s core = some b)
  (hg : oldestReady (partGroups b part.toNat) = some g)
include hb hg

theorem execActiveSetRefill_candidate : execActiveSetRefill core part s =
    event s (b.launched && (activeMembers (partGroups b part.toNat)).length < 4
        && !admittedIn (partGroups b part.toNat) s.clk.cycle)
      (modGrp s core g fun r => { r with run := .active, admitted := s.clk.cycle }) := by
  simp only [execActiveSetRefill, hb, hg]
  rfl

theorem execActiveSetRefill_admits (hl : b.launched = true)
    (hn : (activeMembers (partGroups b part.toNat)).length < 4)
    (ha : ∀ e ∈ partGroups b part.toNat, e.2.run = .active → e.2.admitted ≠ s.clk.cycle) :
    execActiveSetRefill core part s =
      .next (modGrp s core g fun r => { r with run := .active, admitted := s.clk.cycle }) := by
  rw [execActiveSetRefill_candidate hb hg]
  exact event_due (by rw [hl, decide_eq_true hn, admittedIn_eq_false ha]; rfl)

/-- The partition has taken in its group of the cycle. -/
theorem execActiveSetRefill_admitted {e : Nat × Group} (he : e ∈ partGroups b part.toNat) (hr : e.2.run = .active)
    (ha : e.2.admitted = s.clk.cycle) : execActiveSetRefill core part s = .next s := by
  rw [execActiveSetRefill_candidate hb hg]
  exact event_not_due (by rw [admittedIn_iff.mpr ⟨e, he, hr, ha⟩, Bool.not_true, Bool.and_false])

theorem execActiveSetRefill_full (hn : 4 ≤ (activeMembers (partGroups b part.toNat)).length) :
    execActiveSetRefill core part s = .next s := by
  rw [execActiveSetRefill_candidate hb hg]
  exact event_not_due (by rw [decide_eq_false (Nat.not_lt.mpr hn), Bool.and_false, Bool.false_and])

end refill

/-- A group all of whose splits wait long becomes WAITING. -/
theorem execActiveSetLeave_waits {s : State} {core g : Nat} {r : Group} (hr : getGrp s core g = some r)
    (ha : r.run = .active) (hs : r.splits ≠ []) (hw : ∀ x ∈ r.splits, longWait s core g r.flags x = true) :
    execActiveSetLeave core g s = .next (modGrp s core g fun r => { r with run := .waiting }) := by
  simp only [execActiveSetLeave, hr]
  refine event_due ?_
  rw [ha, List.isEmpty_eq_false_iff.mpr hs, List.all_eq_true.mpr hw]
  rfl

/-! ## The time-out of WAITJ (07 R184) -/

/-- The splits have not met: the predicate becomes false in the waiting split, and its WAITJ retires. -/
theorem execWaitjTimeout_expired {s : State} {core g split : Nat} {r : Group} {x : Split} {p : BitVec 3} {e : Nat}
    (hw : waitOf s { core := core, who := .grp g, split := split } = .waitj p e) (hr : getGrp s core g = some r)
    (hx : waitingSplit s { core := core, who := .grp g, split := split } = some x)
    (hl : threadLive s core (.grp g) = true) (hs : r.stopped = false ∨ steppedNow s core (.grp g) = true)
    (he : e ≤ s.clk.cycle) (hj : othersAtJoin r split x x.unitEnd = false) :
    execWaitjTimeout core g split s =
      .next (endWait (destWait s { core := core, who := .grp g, split := split } p.toNat false)
        { core := core, who := .grp g, split := split }) := by
  have goes : (!r.stopped || steppedNow s core (.grp g)) = true := by simpa using hs
  simp only [execWaitjTimeout, hw, hr, hx]
  exact event_due (by rw [hl, goes, decide_eq_true he, hj]; rfl)

/-- Settles O52: a fetch finds its word or what its line is; a partition with room and no admission in the cycle takes in its
oldest group; a group that waits long leaves; a WAITJ whose time has come ends in false. -/
theorem issueEvents : Obligations.IssueEvents := by
  unfold Obligations.IssueEvents
  refine ⟨?fetch, ?refill, ?leave, ?timeout⟩
  case fetch =>
    exact fun s b pc hf => ⟨execInstructionFetchFill_cached hf, fun hw => ⟨fun t l => execInstructionFetchFill_line hf hw,
      fun t k => execInstructionFetchFill_code hf hw, fun t => execInstructionFetchFill_held hf hw⟩⟩
  case refill =>
    intro s core part b g hb hl hg
    exact ⟨fun hn ha => ⟨_, execActiveSetRefill_admits hb hg hl hn ha, rfl⟩,
      fun e he hr ha => execActiveSetRefill_admitted hb hg he hr ha, execActiveSetRefill_full hb hg⟩
  case leave => exact fun s core g r hr => execActiveSetLeave_waits hr
  case timeout => exact fun s core g split r x p e hw hr hx => execWaitjTimeout_expired hw hr hx

end Sys2Proof.Machine
end


section
namespace Sys2Proof.Machine

/-! # What an instruction of the front-end leaves unchanged (08 R196 to R204) -/

/-! ## The front-end -/

theorem getLsbD_putBit_other {w i j : Nat} (m : BitVec w) (v : Bool) (h : j ≠ i) :
    (putBit m i v).getLsbD j = m.getLsbD j := by
  have other : (BitVec.ofNat w (2 ^ i)).getLsbD j = false := by
    rw [BitVec.getLsbD_ofNat, Nat.testBit_two_pow_of_ne (Ne.symm h), Bool.and_false]
  unfold putBit
  split
  · rw [BitVec.getLsbD_or, other, Bool.or_false]
  · rw [BitVec.getLsbD_and, BitVec.getLsbD_not, other]
    by_cases hj : j < w
    · simp [hj]
    · simp [BitVec.getLsbD_of_ge m j (Nat.le_of_not_lt hj)]

/-- A front-end has changed in scalar register d, in predicate p and in what issue counts, but in nothing else that
a program or a fault record shows. -/
structure FeKept (d p : Option Nat) (e e' : FrontEnd) : Prop where
  regs : ∀ n, d ≠ some n → sregOf e' n = sregOf e n
  preds : ∀ n, p ≠ some n → e'.preds.getLsbD n = e.preds.getLsbD n
  flags : e'.flags = e.flags
  rstack : e'.rstack = e.rstack
  run : e'.run = e.run
  gen : e'.gen = e.gen
  fault : e'.fault = e.fault
  lastRec : e'.lastRec = e.lastRec

theorem FeKept.refl (d p : Option Nat) (e : FrontEnd) : FeKept d p e e :=
  ⟨fun _ _ => rfl, fun _ _ => rfl, rfl, rfl, rfl, rfl, rfl, rfl⟩

theorem FeKept.trans {d p : Option Nat} {e f g : FrontEnd} (h : FeKept d p e f) (k : FeKept d p f g) : FeKept d p e g where
  regs n hn := (k.regs n hn).trans (h.regs n hn)
  preds n hn := (k.preds n hn).trans (h.preds n hn)
  flags := k.flags.trans h.flags
  rstack := k.rstack.trans h.rstack
  run := k.run.trans h.run
  gen := k.gen.trans h.gen
  fault := k.fault.trans h.fault
  lastRec := k.lastRec.trans h.lastRec

/-! ## The state -/

/-- Only the front-end of a core has changed, and of that no more than `FeKept` allows. -/
structure FeFrame (core : Nat) (d p : Option Nat) (s t : State) : Prop where
  rest : t = { s with cores := t.cores }
  cores : ∀ k, k ≠ core → tfind k t.cores = tfind k s.cores
  own : getCore t core = { getCore s core with block := (getCore t core).block }
  fe : ∀ b, getBlk s core = some b → ∃ e, getBlk t core = some { b with fe := e } ∧ FeKept d p b.fe e

section frame
variable {core : Nat} {d p : Option Nat}

theorem FeFrame.refl (s : State) : FeFrame core d p s s where
  rest := rfl
  cores _ _ := rfl
  own := rfl
  fe b hb := ⟨b.fe, hb, FeKept.refl d p b.fe⟩

theorem FeFrame.trans {s t u : State} (h : FeFrame core d p s t) (k : FeFrame core d p t u) : FeFrame core d p s u where
  rest := by
    rw [k.rest, h.rest]
  cores n hn := (k.cores n hn).trans (h.cores n hn)
  own := by
    rw [k.own, h.own]
  fe b hb := by
    obtain ⟨e, ht, he⟩ := h.fe b hb
    obtain ⟨e', hu, he'⟩ := k.fe _ ht
    exact ⟨e', hu, he.trans he'⟩

theorem modFe_feFrame (s : State) {f : FrontEnd → FrontEnd} (h : ∀ e, FeKept d p e (f e)) :
    FeFrame core d p s (modFe s core f) where
  rest := rfl
  cores k hk := tfind_tput_other _ hk s.cores
  own := by
    simp [modFe, modBlk, modCore, getCore, tgetD, tfind_tput_same]
  fe b hb := ⟨f b.fe, by rw [getBlk_modFe, hb, Option.map_some], h b.fe⟩

theorem writeS_feFrame (s : State) (n : Nat) (v : DWord) : FeFrame core (some n) p s (writeS s core n v) := by
  unfold writeS
  split
  · exact .refl s
  · refine modFe_feFrame s fun e => { FeKept.refl (some n) p e with regs := fun m hm => ?_ }
    rw [sregOf, sregOf, tgetD_tputD_other 0 v fun h => hm (congrArg some h.symm)]

theorem writeFpred_feFrame (s : State) (n : Nat) (v : Bool) : FeFrame core d (some n) s (writeFpred s core n v) := by
  unfold writeFpred
  split
  · exact .refl s
  · refine modFe_feFrame s fun e => { FeKept.refl d (some n) e with preds := fun m hm => ?_ }
    exact getLsbD_putBit_other e.preds v fun h => hm (congrArg some h.symm)

theorem retireFe_feFrame (s : State) (c : FC) : FeFrame c.core d p s (retireFe s c) :=
  modFe_feFrame s fun e => { FeKept.refl d p e with regs := fun _ _ => rfl }

theorem jumpFe_feFrame (s : State) (c : FC) : FeFrame c.core d p s (jumpFe s c) :=
  modFe_feFrame s fun e => { FeKept.refl d p e with regs := fun _ _ => rfl }

theorem fePc_feFrame (s : State) (c : FC) (pc : Word) : FeFrame c.core d p s (fePc s c pc) :=
  modFe_feFrame s fun e => { FeKept.refl d p e with regs := fun _ _ => rfl }

/-- Another core's state, and what the own core holds beside its block, are as before. -/
theorem FeFrame.getCore_eq {s t : State} (h : FeFrame core d p s t) (k : Nat) :
    getCore t k = { getCore s k with block := (getCore t k).block } := by
  by_cases hk : k = core
  · rw [hk, h.own]
  · rw [getCore, tgetD, h.cores k hk]
    rfl

theorem FeFrame.onlyFrontEnd {s t : State} (h : FeFrame core d p s t) : OnlyFrontEnd s t core where
  rest := h.rest
  cores := h.cores
  own := h.own
  block b b' hb hb' := by
    obtain ⟨e, ht, _⟩ := h.fe b hb
    obtain rfl := Option.some.inj (ht.symm.trans hb')
    rfl

theorem FeFrame.sameMemory {s t : State} (h : FeFrame core d p s t) : SameMemory s t where
  behind := by rw [h.rest]
  dies := by rw [h.rest]
  pools k := by rw [h.getCore_eq k]
  full k := by rw [h.getCore_eq k]

/-- The current value of a byte is none of the cores'. -/
theorem FeFrame.currentByte_eq {s t : State} (h : FeFrame core d p s t) (w : Word) (a : Nat) :
    currentByte t w a = currentByte s w a := by
  rw [h.rest]
  rfl

end frame

/-! ## Instructions -/

/-- What the effect of an instruction of a front-end changes, when it is not a fault. -/
def EffFrame (s : State) (core : Nat) (d p : Option Nat) : Eff → Prop
  | .retire t | .jump t => FeFrame core d p s t
  | .hold _ | .fault _ => True
  | .wait _ | .whole _ => False

theorem chk_effFrame {s : State} {core : Nat} {d p : Option Nat} {e : Eff} (l : List (Bool × Byte))
    (h : EffFrame s core d p e) : EffFrame s core d p (chk l e) := by
  rcases chk_cases l e with ⟨f, hf⟩ | he
  · rw [hf]
    trivial
  · rw [he]
    exact h

theorem endFe_feFrame {s : State} {c : FC} {d p : Option Nat} {e : Eff} (h : EffFrame s c.core d p e)
    (hf : ∀ f, endFe s c e ≠ feFault s c.core f) : FeFrame c.core d p s (endFe s c e) := by
  cases e with
  | retire t => exact FeFrame.trans h (retireFe_feFrame t c)
  | jump t => exact FeFrame.trans h (jumpFe_feFrame t c)
  | hold n =>
    exact modFe_feFrame s (f := fun e => { e with held := n, heldAt := s.clk.cycle }) fun e =>
      { FeKept.refl d p e with regs := fun _ _ => rfl }
  | fault f => exact absurd rfl (hf f)
  | wait t | whole t => exact h.elim

/-- An instruction of the front-end whose effect keeps to registers d and p. -/
def FeTargets (i : Instr) (d p : Option Nat) : Prop :=
  ∀ s, ∃ lit f, exec i s = feInstr s lit f ∧ ∀ c, EffFrame s c.core d p (f c)

theorem FeTargets.feFrame {i : Instr} {d p : Option Nat} (h : FeTargets i d p) {s t : State} {c : FC}
    (hc : feCtx s = some c) (ht : exec i s = .next t) (hf : ∀ f, t ≠ feFault s c.core f) : FeFrame c.core d p s t := by
  obtain ⟨lit, f, he, hframe⟩ := h s
  rw [he, feInstr, instr, groupCtx_of_feCtx hc, hc] at ht
  cases ht
  exact endFe_feFrame (chk_effFrame _ (hframe c)) hf

theorem feTargets_scalarOp {i : Instr} {n : Nat} (h : ∀ s, ∃ lit reads f, exec i s = scalarOp s lit reads n f) :
    FeTargets i (some n) none := by
  intro s
  obtain ⟨lit, reads, f, he⟩ := h s
  refine ⟨lit, _, he, fun c => ?_⟩
  split
  · trivial
  · exact writeS_feFrame s n (f c)

theorem feTargets_smfsy (d : BitVec 6) (n : BitVec 18) : FeTargets (.smfsy d n) (some d.toNat) none := by
  refine fun s => ⟨true, _, rfl, fun c => ?_⟩
  split
  · trivial
  · exact chk_effFrame _ (writeS_feFrame s _ _)

theorem feTargets_scmp (p : BitVec 3) (a b : BitVec 6) (w : BitVec 1) (k : BitVec 4) :
    FeTargets (.scmp p a b w k) none (some p.toNat) := by
  refine fun s => ⟨false, _, rfl, fun c => chk_effFrame _ ?_⟩
  split
  · trivial
  · exact writeFpred_feFrame s _ _

theorem feTargets_sj (o : BitVec 18) : FeTargets (.sj o) none none :=
  fun s => ⟨false, _, rfl, fun c => fePc_feFrame s c _⟩

theorem feTargets_sbz (a : BitVec 6) (o : BitVec 18) : FeTargets (.sbz a o) none none := by
  refine fun s => ⟨false, _, rfl, fun c => ?_⟩
  split
  · trivial
  · split
    · exact fePc_feFrame s c _
    · exact FeFrame.refl s

theorem feTargets_sbnz (a : BitVec 6) (o : BitVec 18) : FeTargets (.sbnz a o) none none := by
  refine fun s => ⟨false, _, rfl, fun c => ?_⟩
  split
  · trivial
  · split
    · exact FeFrame.refl s
    · exact fePc_feFrame s c _

/-- Every instruction that `feTarget` lists keeps to the registers it gives. -/
theorem feTargets_of_feTarget {i : Instr} {d p : Option Nat} (h : feTarget i = some (d, p)) : FeTargets i d p := by
  cases i with
  | sadd | ssub | smul | smulh | sand | sor | sxor | sshl | sshr | ssar | smin | smax | ssel | sclz | spop | saddi | sli
  | slih | stime =>
    cases h
    exact feTargets_scalarOp fun s => ⟨_, _, _, rfl⟩
  | smfsy d n =>
    cases h
    exact feTargets_smfsy d n
  | scmp p a b w k =>
    cases h
    exact feTargets_scmp p a b w k
  | sj o =>
    cases h
    exact feTargets_sj o
  | sbz a o =>
    cases h
    exact feTargets_sbz a o
  | sbnz a o =>
    cases h
    exact feTargets_sbnz a o
  | _ => exact nomatch h

/-- Settles O9: each listed instruction is held, faults, or has written its one register by the time it retires. -/
theorem scalarFrames : Obligations.ScalarFrames := by
  unfold Obligations.ScalarFrames
  intro i d p s t c htarget hc ht hf
  have frame := (feTargets_of_feTarget htarget).feFrame hc ht hf
  obtain ⟨e, he, kept⟩ := frame.fe c.blk (getBlk_of_feCtx hc).1
  refine ⟨frame.onlyFrontEnd, frame.sameMemory, frame.currentByte_eq, _, he, ?_⟩
  exact ⟨kept.regs, fun n _ => kept.preds n, kept.flags, kept.rstack, kept.run, kept.gen, kept.fault, kept.lastRec⟩

end Sys2Proof.Machine
end

section
namespace Sys2Proof.Machine

/-! # Integer operations and their values (03 R67, 08 R197, R200, R208 to R210) -/

/-- An exact result wrapped or clamped, in the model's terms and in those of 08 R197. -/
theorem ofInt_satTo (w : Nat) (m : BitVec 24) (sgn uns : Int) :
    BitVec.ofInt w (satTo w (modSat m) (modUns m) sgn uns) = intResult w m sgn uns := by
  unfold satTo intResult modSat
  cases hs : m.getLsbD 2 with
  | false => rfl
  | true =>
    by_cases hr : m.extractLsb' 0 2 = 1#2
    · simp [modUns, modRm, clampU, hr]
    · simp [modUns, modRm, clampS, hr]

/-! ## Shifts -/

theorem shiftLeft_cut {w : Nat} (x : BitVec w) (n : Nat) : (if w ≤ n then 0 else x <<< n) = x <<< n := by
  split
  · next h => exact (BitVec.shiftLeft_eq_zero h).symm
  · rfl

theorem ushiftRight_cut {w : Nat} (x : BitVec w) (n : Nat) : (if w ≤ n then 0 else x >>> n) = x >>> n := by
  split
  · next h => exact (BitVec.ushiftRight_eq_zero h).symm
  · rfl

/-- An arithmetic shift by more than the width gives the sign in every bit, as one by the width less one does. -/
theorem sshiftRight_min {w : Nat} (x : BitVec w) (n : Nat) : x.sshiftRight (min n (w - 1)) = x.sshiftRight n := by
  apply BitVec.eq_of_getLsbD_eq
  intro i hi
  rw [BitVec.getLsbD_sshiftRight, BitVec.getLsbD_sshiftRight]
  by_cases hn : n ≤ w - 1
  · rw [Nat.min_eq_left hn]
  · have far : ¬ n + i < w := by omega
    rw [Nat.min_eq_right (Nat.le_of_not_le hn), if_neg far]
    split
    · next hw =>
      obtain rfl : i = 0 := by omega
      rw [BitVec.msb_eq_getLsbD_last, Nat.add_zero]
    · rfl

/-! ## The lesser and the greater -/

/-- Choosing by a strict comparison is choosing by the weak one, where a tie is between equals. -/
theorem pick_least {α : Type} {p q : Prop} [Decidable p] [Decidable q] {a b : α} (weaken : p → q)
    (tie : q → ¬ p → a = b) : (if decide p = false then b else a) = if q then a else b := by
  by_cases hp : p
  · rw [decide_eq_true hp, if_neg Bool.true_eq_false.mp, if_pos (weaken hp)]
  · rw [decide_eq_false hp, if_pos rfl]
    split
    · next hq => exact (tie hq hp).symm
    · rfl

theorem pick_greatest {α : Type} {p q : Prop} [Decidable p] [Decidable q] {a b : α} (weaken : p → q)
    (tie : q → ¬ p → a = b) : (if decide p = true then b else a) = if q then b else a := by
  by_cases hp : p
  · rw [decide_eq_true hp, if_pos rfl, if_pos (weaken hp)]
  · rw [decide_eq_false hp, if_neg Bool.false_ne_true]
    split
    · next hq => exact tie hq hp
    · rfl

section picks
variable {w : Nat} {a b : BitVec w}

theorem toNat_tie (le : a.toNat ≤ b.toNat) (lt : ¬ a.toNat < b.toNat) : a = b :=
  BitVec.eq_of_toNat_eq (Nat.le_antisymm le (Nat.not_lt.mp lt))

theorem toInt_tie (le : a.toInt ≤ b.toInt) (lt : ¬ a.toInt < b.toInt) : a = b :=
  BitVec.eq_of_toInt_eq (Int.le_antisymm le (Int.not_lt.mp lt))

theorem least_unsigned : (if a.ult b = false then b else a) = if a.toNat ≤ b.toNat then a else b :=
  pick_least Nat.le_of_lt toNat_tie

theorem least_signed : (if a.slt b = false then b else a) = if a.toInt ≤ b.toInt then a else b :=
  pick_least Int.le_of_lt toInt_tie

theorem greatest_unsigned : (if a.ult b = true then b else a) = if a.toNat ≤ b.toNat then b else a :=
  pick_greatest Nat.le_of_lt toNat_tie

theorem greatest_signed : (if a.slt b = true then b else a) = if a.toInt ≤ b.toInt then b else a :=
  pick_greatest Int.le_of_lt toInt_tie

end picks

/-! ## Counts of bits -/

theorem bitLenAux_eq : ∀ {f x : Nat}, x < 2 ^ f → bitLenAux f x = if x = 0 then 0 else Nat.log2 x + 1
  | 0, x, h => by
    obtain rfl : x = 0 := by omega
    rfl
  | f + 1, x, h => by
    have half : x / 2 < 2 ^ f := by omega
    rw [bitLenAux, bitLenAux_eq half, Nat.log2_def x]
    split
    · rfl
    · by_cases hx : 2 ≤ x
      · simp [hx, show x / 2 ≠ 0 by omega]
      · simp [hx, show x / 2 = 0 by omega]

theorem sub_bitLenAux {w : Nat} (x : BitVec w) : w - bitLenAux w x.toNat = leadingZeros x := by
  rw [bitLenAux_eq x.isLt, leadingZeros]
  by_cases hx : x = 0
  · simp [hx]
  · have positive : x.toNat ≠ 0 := fun h => hx (BitVec.eq_of_toNat_eq h)
    rw [if_neg positive, if_neg hx, Nat.sub_sub, Nat.add_comm]

theorem popCount_toNat {w : Nat} (x : BitVec w) : popCount w x.toNat = setCount x := by
  simp only [popCount, setCount, bitOf_toNat]

/-! ## Conditions -/

/-- Condition n of 03 R67 between two numbers, which are given as signed and as unsigned. -/
def relates (n : Nat) (x y : Int) (ux uy : Nat) : Bool :=
  match n with
  | 0 => x = y
  | 1 => x ≠ y
  | 2 => x < y
  | 3 => x ≤ y
  | 4 => x > y
  | 5 => x ≥ y
  | 6 => ux < uy
  | 7 => ux ≤ uy
  | 8 => ux > uy
  | _ => ux ≥ uy

theorem intCond_eq_relates {w : Nat} (a b : BitVec w) : ∀ n, intCond n a b = relates n a.toInt b.toInt a.toNat b.toNat
  | 0 => by simp [intCond, relates, BitVec.toInt_inj, Bool.beq_eq_decide_eq]
  | 1 => by simp [intCond, relates, BitVec.toInt_inj, bne, Bool.beq_eq_decide_eq]
  | 2 | 3 | 4 | 5 | 6 | 7 | 8 => rfl
  | _ + 9 => rfl

end Sys2Proof.Machine
end

section
namespace Sys2Proof.Machine

/-! # The scalar register instructions (08 R199 to R204) -/

/-! ## Values -/

theorem scalarSat_eq (m : BitVec 24) (w : BitVec 1) (f : Int → Int → Int) (a b : DWord) : scalarSat m w f a b =
    if w = 1 then sext32 (intResult 32 m (f (low a).toInt (low b).toInt) (f (low a).toNat (low b).toNat))
    else intResult 64 m (f a.toInt b.toInt) (f a.toNat b.toNat) := by
  rw [scalarSat, ofInt_satTo, ofInt_satTo]

theorem wsel_congr (w : BitVec 1) {r r' : DWord} {v v' : Word} (hr : r = r') (hv : v = v') : wsel w r v = wsel w r' v' := by
  rw [hr, hv]

theorem ofInt_mul_div {w : Nat} (n x y : Nat) : BitVec.ofInt w ((x : Int) * y / 2 ^ n) = BitVec.ofNat w (x * y / 2 ^ n) := by
  rw [← BitVec.ofInt_natCast]
  push_cast
  rfl

theorem mulHigh_eq (w u : BitVec 1) (a b : DWord) : mulHigh w u a b =
    if w = 1 then sext32 (if u = 1 then BitVec.ofNat 32 ((low a).toNat * (low b).toNat / 2 ^ 32)
      else BitVec.ofInt 32 ((low a).toInt * (low b).toInt / 2 ^ 32))
    else if u = 1 then BitVec.ofNat 64 (a.toNat * b.toNat / 2 ^ 64) else BitVec.ofInt 64 (a.toInt * b.toInt / 2 ^ 64) := by
  unfold mulHigh
  by_cases hu : u = 1
  · simp only [if_pos hu, ofInt_mul_div]
  · simp only [if_neg hu]

theorem low_ite (p : Prop) [Decidable p] (a b : DWord) : low (if p then a else b) = if p then low a else low b :=
  apply_ite low p a b

theorem scalarPick_least (w u : BitVec 1) (a b : DWord) : scalarPick false w u a b =
    if w = 1 then sext32 (if u = 1 then (if (low a).toNat ≤ (low b).toNat then low a else low b)
      else (if (low a).toInt ≤ (low b).toInt then low a else low b))
    else if u = 1 then (if a.toNat ≤ b.toNat then a else b) else (if a.toInt ≤ b.toInt then a else b) := by
  unfold scalarPick wsel
  by_cases hw : w = 1 <;> by_cases hu : u = 1 <;>
    simp only [hw, hu, if_true, if_false, low_ite, least_unsigned, least_signed]

theorem scalarPick_greatest (w u : BitVec 1) (a b : DWord) : scalarPick true w u a b =
    if w = 1 then sext32 (if u = 1 then (if (low a).toNat ≤ (low b).toNat then low b else low a)
      else (if (low a).toInt ≤ (low b).toInt then low b else low a))
    else if u = 1 then (if a.toNat ≤ b.toNat then b else a) else (if a.toInt ≤ b.toInt then b else a) := by
  unfold scalarPick wsel
  by_cases hw : w = 1 <;> by_cases hu : u = 1 <;>
    simp only [hw, hu, if_true, if_false, low_ite, greatest_unsigned, greatest_signed]

/-! ## Rows -/

section rows
variable {s : State} {c : FC}

theorem scalarOp_run {lit : Bool} {reads : List Nat} {d : Nat} (f : FC → DWord) (h : FrontEndIssues s c (d :: reads))
    (hl : lit = true ∨ c.blk.fe.pre.lit = none) :
    scalarOp s lit reads d f = .next (retireFe (writeS s c.core d (f c)) c) := by
  simp only [scalarOp, feInstr_run h.issuing hl, h.ready]
  rfl

/-- What `Obligations.ScalarRegisterResults` says of a row. -/
def ScalarRow.Holds (s : State) (c : FC) (d : Nat) (r : ScalarRow) : Prop :=
  FrontEndIssues s c (d :: r.reads) → (r.lit = true ∨ c.blk.fe.pre.lit = none) →
    exec r.instr s = .next (retireFe (writeS s c.core d r.value) c)

/-- A row holds when its instruction is an operation on scalar registers that computes its value. -/
theorem ScalarRow.Holds.of_value {d : Nat} {r : ScalarRow} {f : FC → DWord}
    (he : exec r.instr s = scalarOp s r.lit r.reads d f) (hv : f c = r.value) : r.Holds s c d := by
  intro h hl
  rw [he, scalarOp_run f h hl, hv]

end rows

/-- Settles O11: each row's instruction is an operation on scalar registers, whose value is the row's by the lemma on
its arithmetic. -/
theorem scalarRegisterResults : Obligations.ScalarRegisterResults := by
  unfold Obligations.ScalarRegisterResults
  intro s c d a b w u n p imm A B A32 B32 D I m amt
  change ∀ r ∈ _, ScalarRow.Holds s c d.toNat r
  simp only [List.forall_mem_cons, List.not_mem_nil, false_implies, implies_true, and_true]
  exact ⟨.of_value rfl (scalarSat_eq m w (· + ·) A B),
    .of_value rfl (scalarSat_eq m w (· - ·) A B),
    .of_value rfl (scalarSat_eq m w (· * ·) A B),
    .of_value rfl (mulHigh_eq w u A B),
    .of_value rfl (wsel_congr w rfl BitVec.setWidth_and),
    .of_value rfl (wsel_congr w rfl BitVec.setWidth_or),
    .of_value rfl (wsel_congr w rfl BitVec.setWidth_xor),
    .of_value rfl (wsel_congr w (shiftLeft_cut A amt) (shiftLeft_cut A32 amt)),
    .of_value rfl (wsel_congr w (ushiftRight_cut A amt) (ushiftRight_cut A32 amt)),
    .of_value rfl (wsel_congr w (sshiftRight_min A amt) (sshiftRight_min A32 amt)),
    .of_value rfl (scalarPick_least w u A B),
    .of_value rfl (scalarPick_greatest w u A B),
    .of_value rfl rfl,
    .of_value rfl (by simp only [low, sub_bitLenAux]; rfl),
    .of_value rfl (by simp only [popCount_toNat, apply_ite (BitVec.ofNat 64)]; rfl),
    .of_value rfl (scalarSat_eq m 0 (· + ·) D I),
    .of_value rfl rfl,
    .of_value rfl rfl,
    .of_value rfl rfl⟩

/-! ## Comparison -/

section compare
variable {s : State} {c : FC} {p : BitVec 3} {a b : BitVec 6} {w : BitVec 1} {k : BitVec 4}
variable (h : FrontEndIssues s c [a.toNat, b.toNat]) (hl : c.blk.fe.pre.lit = none)
include h hl

theorem execScmp_writes (hk : k.toNat ≤ 9) : execScmp p a b w k s = .next (retireFe (writeFpred s c.core p.toNat
    (if w = 1 then intCond k.toNat (low (sreg c a.toNat)) (low (sreg c b.toNat))
      else intCond k.toNat (sreg c a.toNat) (sreg c b.toNat))) c) := by
  simp only [execScmp, feInstr_run h.issuing (.inr hl), decide_eq_false (Nat.not_lt.mpr hk), chk_false, chk_nil, h.ready]
  rfl

theorem execScmp_illegal (hk : 9 < k.toNat) : execScmp p a b w k s = .next (feFault s c.core { code := cILLEGAL }) := by
  simp only [execScmp, feInstr_run h.issuing (.inr hl), decide_eq_true hk, chk_true, endFe_fault]

end compare

/-- Settles O12: the condition is that of the low words, or that of the whole registers. -/
theorem scalarCompareWritesPredicate : Obligations.ScalarCompareWritesPredicate := by
  unfold Obligations.ScalarCompareWritesPredicate
  intro s c p a b w k h hl A B x y ux uy holds
  refine ⟨fun hk => (execScmp_writes h hl hk).trans ?_, execScmp_illegal h hl⟩
  have condition : (if w = 1 then intCond k.toNat (low A) (low B) else intCond k.toNat A B) = holds := by
    change _ = relates k.toNat x y ux uy
    by_cases hw : w = 1
    · simp only [x, y, ux, uy, if_pos hw, intCond_eq_relates]
      rfl
    · simp only [x, y, ux, uy, if_neg hw, intCond_eq_relates]
  rw [condition]

end Sys2Proof.Machine
end

section
namespace Sys2Proof.Machine

/-! # The control instructions of the front-end (07 R176, 08 R203, R205, R206) -/

section control
variable {s : State} {c : FC}

section jumps
variable (hc : feCtx s = some c) (hl : c.blk.fe.pre.lit = none)
include hc hl

theorem execSj_jumps (o : BitVec 18) : execSj o s = .next (jumpFe (fePc s c (branchTo c.blk.fe.pc o)) c) := by
  rw [execSj, feInstr_run hc (.inr hl), endFe_jump]

theorem execScall_pushes (o : BitVec 18) (h : c.blk.fe.rstack.length < 8) :
    execScall o s = .next (jumpFe (modFe s c.core fun e => { e with
      rstack := c.blk.fe.rstack ++ [c.blk.fe.pc + 4], pc := branchTo c.blk.fe.pc o }) c) := by
  simp only [execScall, feInstr_run hc (.inr hl), decide_eq_false (Nat.not_le.mpr h), chk_false, chk_nil, endFe_jump]

theorem execScall_full (o : BitVec 18) (h : 8 ≤ c.blk.fe.rstack.length) :
    execScall o s = .next (feFault s c.core { code := cCALL_DEPTH }) := by
  simp only [execScall, feInstr_run hc (.inr hl), decide_eq_true h, chk_true, endFe_fault]

theorem execSret_pops {st : List Word} {t : Word} (h : c.blk.fe.rstack = st ++ [t]) (ht : t.toNat % 4 = 0) :
    execSret s = .next (jumpFe (modFe s c.core fun e => { e with rstack := st, pc := t }) c) := by
  have pushed : (st ++ [t]).isEmpty = false := by simp
  simp only [execSret, feInstr_run hc (.inr hl), h, pushed, List.getLast?_concat, Option.getD_some, List.dropLast_concat,
    ht, ne_eq, not_true_eq_false, decide_false, chk_false, chk_nil, endFe_jump]

theorem execSret_empty (h : c.blk.fe.rstack = []) : execSret s = .next (feFault s c.core { code := cCALL_DEPTH }) := by
  simp only [execSret, feInstr_run hc (.inr hl), h, List.isEmpty_nil, chk_true, endFe_fault]

theorem execSexit_leaves (h : spawnOf s ⟨c.core, .fe⟩ = none) : execSexit s =
    .next (jumpFe (leaveAll (modFe s c.core fun e => { e with run := .exited }) c.core .fe) c) := by
  simp only [execSexit, feInstr_run hc (.inr hl), h]
  rfl

end jumps

section tests
variable {a : BitVec 6} (h : FrontEndIssues s c [a.toNat]) (hl : c.blk.fe.pre.lit = none)
include h hl

theorem execSbz_tests (o : BitVec 18) : execSbz a o s = .next (if sreg c a.toNat = 0 then
    jumpFe (fePc s c (branchTo c.blk.fe.pc o)) c else retireFe s c) := by
  simp only [execSbz, feInstr_run h.issuing (.inr hl), h.ready, Bool.false_eq_true, if_false, apply_ite (endFe s c),
    endFe_jump, endFe_retire]

theorem execSbnz_tests (o : BitVec 18) : execSbnz a o s = .next (if sreg c a.toNat ≠ 0 then
    jumpFe (fePc s c (branchTo c.blk.fe.pc o)) c else retireFe s c) := by
  simp only [execSbnz, feInstr_run h.issuing (.inr hl), h.ready, Bool.false_eq_true, if_false, apply_ite (endFe s c),
    endFe_jump, endFe_retire, ite_not]

theorem execDqpush_full (p : BitVec 3) (hq : queueUsed c.blk = 128) :
    execDqpush p a s = .next (retireFe (writeFpred s c.core p.toNat false) c) := by
  simp only [execDqpush, feInstr_run h.issuing (.inr hl), h.ready, Bool.false_eq_true, if_false, if_pos hq, endFe_retire]

theorem execDqpush_pushes (p : BitVec 3) (hq : queueUsed c.blk ≠ 128) : execDqpush p a s =
    .next (retireFe (writeFpred (modBlk s c.core fun b =>
      { b with dq := tputD 0 (b.dqTail.toNat % 128) (sreg c a.toNat) b.dq, dqTail := b.dqTail + 1
               dqPushed := some s.clk.cycle }) c.core p.toNat true) c) := by
  simp only [execDqpush, feInstr_run h.issuing (.inr hl), h.ready, Bool.false_eq_true, if_false, if_neg hq, endFe_retire]

end tests

/-- SWAIT goes on when every flag of its mask reads zero and, with ALL, the pool is quiet. -/
theorem execSwait_passes (hc : feCtx s = some c) {m : BitVec 18}
    (hf : ∀ n, n < 12 → (imm18 (feLit c) m).getLsbD n = true → tgetD 0 n c.blk.fe.flags = 0)
    (hp : (imm18 (feLit c) m).getLsbD 17 = true → fePoolIdle s c.core = true) :
    execSwait m s = .next (retireFe s c) := by
  have flags : ((setBits 12 (imm18 (feLit c) m)).any fun n => decide (0 < tgetD 0 n c.blk.fe.flags)) = false := by
    simp only [List.any_eq_false, decide_eq_true_eq]
    intro n hn
    obtain ⟨lo, set⟩ := mem_setBits.mp hn
    rw [hf n lo set]
    exact Nat.lt_irrefl 0
  have pool : ((imm18 (feLit c) m).getLsbD 17 && !fePoolIdle s c.core) = false := by
    cases hb : (imm18 (feLit c) m).getLsbD 17 with
    | false => rfl
    | true => rw [hp hb]; rfl
  simp only [execSwait, feInstr_run hc (.inl rfl), flags, pool, Bool.false_eq_true, if_false, endFe_retire]

end control

/-- Settles O14: a jump moves the PC, a call and a return the stack too; DQPUSH tells by its predicate whether the queue
had room. -/
theorem scalarControlCompletes : Obligations.ScalarControlCompletes := by
  unfold Obligations.ScalarControlCompletes
  intro s c a o m p target
  refine ⟨fun h hl => ?issues, fun hc hf hp => execSwait_passes hc hf hp⟩
  exact ⟨execSj_jumps h.issuing hl o, execSbz_tests h hl o, execSbnz_tests h hl o, execScall_pushes h.issuing hl o,
    execScall_full h.issuing hl o, fun st t => execSret_pops h.issuing hl, execSret_empty h.issuing hl,
    execSexit_leaves h.issuing hl, execDqpush_pushes h hl p, execDqpush_full h hl p⟩

end Sys2Proof.Machine
end

section
namespace Sys2Proof.Machine

/-! # Lanes: masks, sums and the shapes of results (03 R70, 07 R168, 08 R197, R215 to R217) -/

/-! ## Masks -/

theorem mem_lanesOf {m : Word} {j : Nat} : j ∈ lanesOf m ↔ m.getLsbD j = true := by
  rw [lanesOf, mem_setBits]
  exact ⟨And.right, fun h => ⟨BitVec.lt_of_getLsbD h, h⟩⟩

theorem mem_activeLanes {c : GC} {g j : Nat} : j ∈ activeLanes c g ↔ (guarded c g).getLsbD j = true := mem_lanesOf

theorem foldl_setLanes (f : Nat → Bool) : ∀ (l : List Nat) (m : Word),
    l.foldl (fun m i => if f i then m ||| BitVec.ofNat 32 (2 ^ i) else m) m = m ||| maskOf 32 (l.filter f)
  | [], m => BitVec.or_zero.symm
  | i :: r, m => by
    rw [List.foldl_cons, foldl_setLanes f r, List.filter_cons]
    split
    · rw [maskOf, BitVec.or_assoc]
    · rfl

theorem laneMask_eq_lanesWhere (l : List Nat) (f : Nat → Bool) : laneMask l f = lanesWhere l f := by
  rw [lanesWhere, foldl_setLanes, laneMask]
  exact BitVec.zero_or.symm

theorem getLsbD_maskOf {w j : Nat} : ∀ l : List Nat, (maskOf w l).getLsbD j = decide (j < w ∧ j ∈ l)
  | [] => by simp [maskOf]
  | i :: r => by
    rw [maskOf, BitVec.getLsbD_or, BitVec.getLsbD_ofNat, Nat.testBit_two_pow, getLsbD_maskOf r, ← Bool.decide_and,
      ← Bool.decide_or]
    simp only [List.mem_cons, eq_comm (a := i), and_or_left]

/-- The lanes of a mask at which another mask is set. -/
theorem lanesWhere_lanesOf (m v : Word) : lanesWhere (lanesOf m) v.getLsbD = m &&& v := by
  rw [← laneMask_eq_lanesWhere, laneMask]
  apply BitVec.eq_of_getLsbD_eq
  intro j hj
  rw [getLsbD_maskOf, BitVec.getLsbD_and]
  simp [hj, mem_lanesOf]

/-! ## Sums and saturation -/

theorem laneSat_eq (c : GC) (sgn uns : Int) : laneSat c sgn uns = intResult 32 (grpMod c) sgn uns := ofInt_satTo 32 _ sgn uns

theorem sumSat_eq (c : GC) (ws : List Word) : sumSat c ws =
    intResult 32 (grpMod c) (ws.map BitVec.toInt).sum (ws.map fun w => (w.toNat : Int)).sum := by
  rw [sumSat, laneSat_eq, List.sum_eq_foldl, List.sum_eq_foldl, List.foldl_map, List.foldl_map]

theorem sumSat_map (c : GC) (l : List Nat) (f : Nat → Word) : sumSat c (l.map f) =
    intResult 32 (grpMod c) (l.map fun j => (f j).toInt).sum (l.map fun j => ((f j).toNat : Int)).sum := by
  rw [sumSat_eq, List.map_map, List.map_map]
  rfl

/-- The absolute value of a word; that of the least one leaves the range (08 R197, R208). -/
theorem ofInt_natAbs (sat : Bool) (x : Word) : BitVec.ofInt 32 (if sat then clampS 32 x.toInt.natAbs else x.toInt.natAbs) =
    if x = 0x80000000 then (if sat then 0x7FFFFFFF else 0x80000000) else if x.toInt < 0 then - x else x := by
  by_cases hx : x = 0x80000000
  · subst hx
    cases sat <;> decide
  have above : x.toInt ≠ -2147483648 := fun h => hx (BitVec.eq_of_toInt_eq h)
  have lo : -2147483648 ≤ x.toInt := BitVec.le_toInt x
  have hi : x.toInt < 2147483648 := BitVec.toInt_lt
  have inRange : clampS 32 x.toInt.natAbs = x.toInt.natAbs := by
    unfold clampS
    omega
  rw [inRange, ite_self, if_neg hx]
  split
  · next neg => rw [Int.ofNat_natAbs_of_nonpos (Int.le_of_lt neg), BitVec.ofInt_neg, BitVec.ofInt_toInt]
  · next pos => rw [Int.natAbs_of_nonneg (Int.not_lt.mp pos), BitVec.ofInt_toInt]

theorem ite_sle {α : Type} (x y : Word) (p q : α) : (if x.sle y then p else q) = if x.toInt ≤ y.toInt then p else q := by
  simp only [BitVec.sle_iff_toInt_le]

theorem ite_ule {α : Type} (x y : Word) (p q : α) : (if x.ule y then p else q) = if x.toNat ≤ y.toNat then p else q := by
  simp only [BitVec.ule_iff_toNat_le]

/-! ## Fields -/

theorem fieldPos_eq (y : Word) : bitsOf y.toNat 4 0 = y.toNat % 32 := congrArg (· % 32) (Nat.div_one y.toNat)

/-- VBFE: a field of a word, zero- or sign-extended (08 R210). -/
theorem extractField_eq (x y : Word) :
    (let n := fieldLen y
      let f := x.toNat / 2 ^ bitsOf y.toNat 4 0 % 2 ^ n
      if y.getLsbD 15 && 0 < n && bitOf f (n - 1) then BitVec.ofInt 32 ((f : Int) - 2 ^ n) else BitVec.ofNat 32 f) =
    (let n := min 32 (y.toNat / 256 % 64)
      let f := x.toNat / 2 ^ (y.toNat % 32) % 2 ^ n
      if y.getLsbD 15 && decide (0 < n) && f.testBit (n - 1) then BitVec.ofInt 32 ((f : Int) - 2 ^ n)
      else (BitVec.ofNat 32 f : Word)) := by
  simp only [bitOf, Nat.testBit_eq_decide_div_mod_eq, fieldPos_eq]
  rfl

/-- VBFI: a field of a word replaced (08 R210). -/
theorem insertField_eq (x y z : Word) :
    (let m : Word := BitVec.ofNat 32 (2 ^ fieldLen y - 1)
      let p := bitsOf y.toNat 4 0
      (z &&& ~~~ (m <<< p)) ||| ((x &&& m) <<< p)) =
    (let p := y.toNat % 32
      let k : Word := BitVec.ofNat 32 (2 ^ min 32 (y.toNat / 256 % 64) - 1)
      (z &&& ~~~ (k <<< p)) ||| ((x &&& k) <<< p)) := by
  simp only [fieldPos_eq]
  rfl

/-! ## Shuffles -/

/-- What lane i of a shuffle of register a receives from the lane it names, if it names one (08 R215). -/
def shuffled (c : GC) (g a i : Nat) : Option Nat → Word
  | some j => if j ∈ activeLanes c g then vreg c a j else vreg c a i
  | none => vreg c a i

theorem shuffled_ite (c : GC) (g a i j : Nat) (p : Prop) [Decidable p] : shuffled c g a i (if p then some j else none) =
    if p ∧ j ∈ activeLanes c g then vreg c a j else vreg c a i := by
  by_cases hp : p
  · simp only [hp, true_and]
    rfl
  · simp only [hp, false_and, if_false]
    rfl

theorem shuffle_eq (s : State) (g d a b : Nat) (src : Nat → Word → Option Nat) :
    shuffle s g d a b src = intOp s g d [a, b] ruleUG fun c i => shuffled c g a i (src i (vreg c b i)) := by
  unfold shuffle
  congr 1
  funext c i
  cases src i (vreg c b i) with
  | some j => simp only [shuffled, mem_activeLanes]
  | none => rfl

/-! ## Shapes -/

theorem shapeTop_singleton (x : Shape) : shapeTop [x] = x := by cases x <;> rfl

theorem ruleSat_singleton (c : GC) (x : Shape) :
    ruleSat shapeSum c [x] = if modSat (grpMod c) then shapeUG [x] else x := by
  rw [ruleSat, shapeSum, shapeTop_singleton]

end Sys2Proof.Machine
end

section
namespace Sys2Proof.Machine

/-! # The vector integer and lane instructions (07 R168, 08 R207 to R218) -/

/-! ## Rows -/

section rows
variable {s : State} {c : GC} {g d : Nat}

theorem vecOp_run {lit : Bool} {srcs : List Nat} {rule : GC → List Shape → Shape} (f : GC → Nat → Word × BitVec 5)
    (h : GroupIssues s c (d :: srcs)) (hl : lit = true ∨ c.spl.pre.lit = none)
    (hr : RegsLegal c (ones [d]) (ones srcs) (rule c (srcs.map (vtag c)))) :
    vecOp s lit g d srcs rule f = .next (vecDone s c g d (f c)) := by
  simp only [vecOp, grpInstr_run h.issuing hl, h.ready, Bool.false_eq_true, if_false]
  exact congrArg (fun e => Host.Outcome.next (endGrp s c e)) (vecChecks_pass hr g (d :: srcs) _)

/-- What `Obligations.VectorIntegerResults` says of a row. -/
def VecRow.Holds (s : State) (c : GC) (g d : Nat) (r : VecRow) : Prop :=
  GroupIssues s c (d :: r.reads) → (r.lit = true ∨ c.spl.pre.lit = none) → RegsLegal c (ones [d]) (ones r.reads) r.shape →
    exec r.instr s = .next (vecDone s c g d r.value)

/-- A row holds when its instruction is an integer operation on vector registers with its shape and its values. -/
theorem VecRow.Holds.of_value {i : Instr} {lit : Bool} {reads : List Nat} {x : Shape} {v : Nat → Word}
    {rule : GC → List Shape → Shape} {f : GC → Nat → Word}
    (he : exec i s = vecOp s lit g d reads rule fun c j => (f c j, 0)) (hs : rule c (reads.map (vtag c)) = x)
    (hv : ∀ j, f c j = v j) : VecRow.Holds s c g d ⟨i, lit, reads, x, fun j => (v j, 0)⟩ := by
  intro h hl hr
  rw [he, vecOp_run _ h hl (hs ▸ hr), funext hv]

/-- A row of a shuffle holds when its lanes receive what the lanes they name give. -/
theorem VecRow.Holds.of_shuffle {i : Instr} {a b : Nat} {x : Shape} {v : Nat → Word} (src : Nat → Word → Option Nat)
    (he : exec i s = shuffle s g d a b src) (hs : shapeUG [vtag c a, vtag c b] = x)
    (hv : ∀ j, shuffled c g a j (src j (vreg c b j)) = v j) :
    VecRow.Holds s c g d ⟨i, false, [a, b], x, fun j => (v j, 0)⟩ :=
  .of_value (he.trans (shuffle_eq s g d a b src)) hs hv

end rows

/-- Settles O15: each row's instruction is an integer operation on vector registers; its shape is the rule's, and its
values are the row's by the lemmas on the arithmetic, the masks and the sums. -/
theorem vectorIntegerResults : Obligations.VectorIntegerResults := by
  unfold Obligations.VectorIntegerResults
  intro s c g p d a b i7 i14 u h A B D m sat act sab ug int ab len pos
  change ∀ r ∈ _, VecRow.Holds s c g.toNat d.toNat r
  simp only [List.forall_mem_cons, List.not_mem_nil, false_implies, implies_true, and_true]
  exact ⟨
    .of_value rfl rfl fun i => laneSat_eq c _ _,
    .of_value rfl rfl fun i => laneSat_eq c _ _,
    .of_value rfl rfl fun i => laneSat_eq c _ _,
    .of_value rfl rfl fun i => rfl,
    .of_value rfl rfl fun i => rfl,
    .of_value rfl rfl fun i => laneSat_eq c _ _,
    .of_value rfl rfl fun i => rfl,
    .of_value rfl rfl fun i => rfl,
    .of_value rfl rfl fun i => rfl,
    .of_value rfl rfl fun i => rfl,
    .of_value rfl rfl fun i => shiftLeft_cut (A i) _,
    .of_value rfl rfl fun i => ushiftRight_cut (A i) _,
    .of_value rfl rfl fun i => sshiftRight_min (A i) _,
    .of_value rfl rfl fun i => ite_sle (A i) (B i) _ _,
    .of_value rfl rfl fun i => ite_ule (A i) (B i) _ _,
    .of_value rfl rfl fun i => ite_sle (A i) (B i) _ _,
    .of_value rfl rfl fun i => ite_ule (A i) (B i) _ _,
    .of_value rfl rfl fun i => ofInt_natAbs sat (A i),
    .of_value rfl rfl fun i => congrArg _ (sub_bitLenAux (A i)),
    .of_value rfl rfl fun i => congrArg _ (popCount_toNat (A i)),
    .of_value rfl rfl fun i => rfl,
    .of_value rfl rfl fun i => extractField_eq (A i) (B i),
    .of_value rfl rfl fun i => insertField_eq (A i) (B i) (D i),
    .of_value rfl (ruleSat_singleton c _) fun i => laneSat_eq c _ _,
    .of_value rfl rfl fun i => rfl,
    .of_value rfl (shapeTop_singleton _) fun i => rfl,
    .of_value rfl rfl fun i => rfl,
    .of_value rfl rfl fun i => rfl,
    .of_shuffle (fun _ w => some (w.toNat % 32)) rfl rfl fun i => rfl,
    .of_shuffle (fun j w => if w.toNat ≤ j then some (j - w.toNat) else none) rfl rfl fun i => shuffled_ite ..,
    .of_shuffle (fun j w => if j + w.toNat ≤ 31 then some (j + w.toNat) else none) rfl rfl fun i => shuffled_ite ..,
    .of_shuffle (fun j w => some (j ^^^ w.toNat % 32)) rfl rfl fun i => rfl,
    .of_value rfl rfl fun i => (lanesWhere_lanesOf _ _).symm,
    .of_value rfl rfl fun i => sumSat_map c act A,
    .of_value rfl rfl fun i => rfl,
    .of_value rfl rfl fun i => rfl⟩

end Sys2Proof.Machine
end

section
namespace Sys2Proof.Machine

/-! # Selection and scans (08 R213, R218) -/

section scan
variable {s : State} {c : GC} {g : BitVec 3} {d a : BitVec 7} {u x : BitVec 1} {o : BitVec 2}

theorem execVscan_illegal (h : GroupIssues s c [d.toNat, a.toNat]) (hl : c.spl.pre.lit = none) (ho : o = 3) :
    execVscan g d a u x o s = .next (faultGrp s c { code := cILLEGAL }) := by
  subst ho
  simp only [execVscan, grpInstr_run h.issuing (.inr hl), h.ready, Bool.false_eq_true, if_false, List.cons_append]
  rfl

/-- The words that an exclusive or inclusive scan combines for a lane (08 R218). -/
def scanned (c : GC) (g a : Nat) (x : BitVec 1) (i : Nat) : List Word :=
  ((activeLanes c g).filter fun j => j < i ∨ (x = 0 ∧ j = i)).map (vreg c a)

theorem scanned_eq (c : GC) (g a : Nat) (x : BitVec 1) (i : Nat) : scanned c g a x i =
    ((activeLanes c g).filter fun j => if x = 1 then j < i else j ≤ i).map (vreg c a) := by
  unfold scanned
  congr 1
  refine List.filter_congr fun j _ => ?_
  by_cases hx : x = 1
  · simp [hx]
  · have hx0 : x = 0 := by
      rcases BitVec.eq_zero_or_eq_one x with h | h
      · exact h
      · exact absurd h hx
    simp [hx0, Nat.le_iff_lt_or_eq]

/-- What operation o of a scan makes of the words it combines; of none, its identity (08 R218). -/
def scanResult (c : GC) (o : BitVec 2) (u : BitVec 1) (ws : List Word) : Word :=
  if ws = [] then
    (if o = 0 then 0 else if o = 1 then (if u = 1 then 0xFFFFFFFF else 0x7FFFFFFF) else (if u = 1 then 0 else 0x80000000))
  else if o = 0 then intResult 32 (grpMod c) (ws.map BitVec.toInt).sum (ws.map fun w => (w.toNat : Int)).sum
  else foldPick (o = 2) (u == 1) ws

theorem scanIdentity_eq (u : BitVec 1) : ∀ o : BitVec 2, o ≠ 3 → scanIdentity o.toNat (u == 1) =
    if o = 0 then 0 else if o = 1 then (if u = 1 then 0xFFFFFFFF else 0x7FFFFFFF) else (if u = 1 then 0 else 0x80000000) := by
  revert u
  decide

theorem scanResult_eq (c : GC) (u : BitVec 1) (ho : o ≠ 3) (ws : List Word) :
    (if ws.isEmpty then scanIdentity o.toNat (u == 1)
      else match o.toNat with
        | 0 => sumSat c ws
        | 1 => foldPick false (u == 1) ws
        | _ => foldPick true (u == 1) ws) = scanResult c o u ws := by
  unfold scanResult
  by_cases hw : ws = []
  · rw [if_pos hw, if_pos (List.isEmpty_iff.mpr hw), scanIdentity_eq u o ho]
  rw [if_neg hw, if_neg (mt List.isEmpty_iff.mp hw)]
  have operation : o = 0 ∨ o = 1 ∨ o = 2 := by
    revert o
    decide
  rcases operation with rfl | rfl | rfl
  · exact sumSat_eq c ws
  · rfl
  · rfl

theorem execVscan_combines (h : GroupIssues s c [d.toNat, a.toNat]) (hl : c.spl.pre.lit = none) (ho : o ≠ 3)
    (hr : RegsLegal c (ones [d.toNat]) (ones [a.toNat]) .general) :
    execVscan g d a u x o s = .next (retireGrp (writeReg s c d.toNat (activeLanes c g.toNat) fun i =>
      scanResult c o u (scanned c g.toNat a.toNat x i)) c) := by
  have legal : (o == 3) = false := beq_false_of_ne ho
  have pass := vecChecks_pass hr g.toNat [d.toNat, a.toNat]
  simp only [scanned_eq, ← scanResult_eq c u ho]
  simp only [execVscan, grpInstr_run h.issuing (.inr hl), h.ready, Bool.false_eq_true, if_false, List.cons_append, legal,
    chk_false]
  exact congrArg (fun e => Host.Outcome.next (endGrp s c e)) (pass _)

end scan

/-- Settles O16: VSEL picks by each lane's own predicate, or by the first lane's where the destination is not general; VSCAN
combines the lanes up to each. -/
theorem vectorSelectAndScanResults : Obligations.VectorSelectAndScanResults := by
  unfold Obligations.VectorSelectAndScanResults
  refine ⟨fun s c p d a b h hl hr => ?select, fun s c g d a u x o h hl => ?scan⟩
  case scan => exact ⟨execVscan_illegal h hl, execVscan_combines h hl⟩
  case select =>
    refine ⟨_, vecOp_run (rule := fun c ss => if isUniformPred c p.toNat then shapeTop ss else .general) _ h (.inr hl) hr,
      ?_, ?_⟩
    · intro general i
      simp only [if_pos general]
    · intro shaped first rest hlanes i
      simp only [if_neg shaped, hlanes, List.getD_cons_zero]

end Sys2Proof.Machine
end

section
namespace Sys2Proof.Machine

/-! # Instructions that write a predicate (07 R182, 08 R212, R216, R219, 09 R228) -/

section rows
variable {s : State} {c : GC} {g p : Nat}

/-- The checks of an instruction that writes a predicate, on registers that are legal. -/
theorem predChecks_eq {srcs : List Nat} (hr : RegsLegal c [] (ones srcs) .uniform) (g p : Nat) (e : Eff) :
    chk [(!true, cILLEGAL), (srcs.any fun r => outOfRange c r 1, cREG_RANGE), (predStaged c p, cSHAPE),
      bankCheck c g srcs] e = chk [(predStaged c p, cSHAPE)] e := by
  have range : (srcs.any fun r => outOfRange c r 1) = false := by
    simp only [List.any_eq_false, outOfRange, decide_eq_true_eq, Nat.not_lt]
    exact fun r hm => hr.range (r, 1) (List.mem_map_of_mem hm)
  rw [Bool.not_true, chk_false, range, chk_false]
  cases predStaged c p with
  | true => rfl
  | false => rw [chk_false, chk_false, bankCheck_pass hr.bank, chk_nil]

/-- An instruction that writes a predicate, when its checks on registers and fields pass. -/
theorem predOp_run {srcs : List Nat} {legal : Bool} (uni : GC → Bool) (f : GC → List Nat → Word × BitVec 5)
    (h : GroupIssues s c srcs) (hl : c.spl.pre.lit = none) (hw : legal = true) (hr : RegsLegal c [] (ones srcs) .uniform) :
    (predStaged c p = false → predOp s g p srcs legal uni f =
      .next (predDone s c g p (uni c) (f c (activeLanes c g)).1 (f c (activeLanes c g)).2)) ∧
    (predStaged c p = true → predOp s g p srcs legal uni f = .next (faultGrp s c { code := cSHAPE })) := by
  simp only [predOp, grpInstr_run h.issuing (.inr hl), h.ready, Bool.false_eq_true, if_false, hw, predChecks_eq hr]
  refine ⟨fun hs => ?_, fun hs => ?_⟩
  · rw [hs, chk_false, chk_nil, endGrp_retire]
    rfl
  · rw [hs, chk_true, endGrp_fault]

/-- What `Obligations.PredicateResults` says of a row. -/
def PredRow.Holds (s : State) (c : GC) (g p : Nat) (r : PredRow) : Prop :=
  GroupIssues s c r.reads → c.spl.pre.lit = none → r.instr.wellFormed = true → RegsLegal c [] (ones r.reads) .uniform →
    (predStaged c p = false → exec r.instr s = .next (predDone s c g p r.uni r.value r.flags)) ∧
    (predStaged c p = true → exec r.instr s = .next (faultGrp s c { code := 0x02 }))

/-- A row holds when its instruction writes a predicate, is legal when well-formed, and has the row's result. -/
theorem PredRow.Holds.of_value {r : PredRow} {legal : Bool} {uni : GC → Bool} {f : GC → List Nat → Word × BitVec 5}
    (he : exec r.instr s = predOp s g p r.reads legal uni f) (hw : r.instr.wellFormed = true → legal = true)
    (hu : uni c = r.uni) (hv : (f c (activeLanes c g)).1 = r.value) (hf : (f c (activeLanes c g)).2 = r.flags) :
    r.Holds s c g p := by
  intro h hl hwf hr
  rw [he, ← hu, ← hv, ← hf]
  exact predOp_run uni f h hl (hw hwf) hr

end rows

/-! ## Values -/

theorem cmpUniform_eq (c : GC) (g : BitVec 3) (a b : Nat) :
    cmpUniform g.toNat [a, b] c = decide (g = 0 ∧ vtag c a = .uniform ∧ vtag c b = .uniform) := by
  simp [cmpUniform, BitVec.toNat_eq, Bool.decide_and]

theorem logicUniform_pair (c : GC) (g : BitVec 3) (a b : Nat) :
    logicUniform g.toNat [a, b] c = (decide (g = 0) && isUniformPred c a && isUniformPred c b) := by
  simp [logicUniform, BitVec.toNat_eq, Bool.and_assoc]

theorem logicUniform_single (c : GC) (g : BitVec 3) (a : Nat) :
    logicUniform g.toNat [a] c = (decide (g = 0) && isUniformPred c a) := by
  simp [logicUniform, BitVec.toNat_eq]

/-- Condition n of 03 R67 between two words. -/
def wordCond (n : Nat) (x y : Word) : Bool :=
  match n with
  | 0 => x = y
  | 1 => x ≠ y
  | 2 => x.toInt < y.toInt
  | 3 => x.toInt ≤ y.toInt
  | 4 => x.toInt > y.toInt
  | 5 => x.toInt ≥ y.toInt
  | 6 => x.toNat < y.toNat
  | 7 => x.toNat ≤ y.toNat
  | 8 => x.toNat > y.toNat
  | _ => x.toNat ≥ y.toNat

theorem intCond_eq_wordCond (x y : Word) : ∀ n, intCond n x y = wordCond n x y
  | 0 => by simp [intCond, wordCond, Bool.beq_eq_decide_eq]
  | 1 => by simp [intCond, wordCond, bne, Bool.beq_eq_decide_eq]
  | 2 | 3 | 4 | 5 | 6 | 7 | 8 => rfl
  | _ + 9 => rfl

/-- Settles O17: each row's instruction writes a predicate, whose mask and uniform property are the row's. -/
theorem predicateResults : Obligations.PredicateResults := by
  unfold Obligations.PredicateResults
  intro s c g p x y a b k f A B act X cmpUni logUni int vote
  have conditions : (fun i => intCond k.toNat (A i) (B i)) = int :=
    funext fun i => intCond_eq_wordCond (A i) (B i) k.toNat
  change ∀ r ∈ _, PredRow.Holds s c g.toNat p.toNat r
  simp only [List.forall_mem_cons, List.not_mem_nil, false_implies, implies_true, and_true]
  exact ⟨
    .of_value (show execVcmp g p k a b s = _ from rfl) id (cmpUniform_eq c g _ _)
      ((laneMask_eq_lanesWhere _ _).trans (congrArg _ conditions)) rfl,
    .of_value (show execFcmp g p k a b s = _ from rfl) id (cmpUniform_eq c g _ _) (laneMask_eq_lanesWhere _ _) rfl,
    .of_value (show execVvote g p f x s = _ from rfl) id rfl
      (by simp only [← List.not_any_eq_all_not, Bool.not_not]; rfl) rfl,
    .of_value (show execPand g p x y s = _ from rfl) id (logicUniform_pair c g _ _) rfl rfl,
    .of_value (show execPor g p x y s = _ from rfl) id (logicUniform_pair c g _ _) rfl rfl,
    .of_value (show execPxor g p x y s = _ from rfl) id (logicUniform_pair c g _ _) rfl rfl,
    .of_value (show execPnot g p x s = _ from rfl) id (logicUniform_single c g _) rfl rfl⟩

end Sys2Proof.Machine
end

section
namespace Sys2Proof.Machine

/-! # The floating-point instructions of one destination (09 R220 to R236, R241) -/

theorem shapeUG_map (c : GC) (l : List Nat) :
    shapeUG (l.map (vtag c)) = if l.all (fun r => vtag c r = .uniform) then .uniform else .general := by
  rw [shapeUG, List.all_map]
  rfl

/-- An effect behind the checks on vector registers that are legal is the instruction's. -/
theorem retires_of_regsLegal {s : State} {c : GC} {dests srcs : List (Nat × Nat)} {x : Shape} (h : RegsLegal c dests srcs x)
    (g : Nat) (ns : List Nat) (t : State) :
    (.next (endGrp s c (chk (vecChecks c dests srcs x ++ [bankCheck c g ns]) (.retire t))) : Host.Outcome State Fault Refusal) =
      .next (retireGrp t c) := by
  rw [vecChecks_pass h, endGrp_retire]

/-! ## Rows -/

section rows
variable {s : State} {c : GC} {g d : Nat}

/-- What `Obligations.FloatResults` says of a row. -/
def VecRow.FloatHolds (s : State) (c : GC) (g d : Nat) (r : VecRow) : Prop :=
  GroupIssues s c (d :: r.reads) → (c.spl.pre.lit = none ∨ (r.lit = true ∧ c.spl.pre.lit = some 0)) →
    r.instr.wellFormed = true → RegsLegal c (ones [d]) (ones r.reads) r.shape →
      exec r.instr s = .next (vecDone s c g d r.value)

/-- A row that no LIT extends holds when its instruction is an operation on vector registers with its shape and its values. -/
theorem VecRow.FloatHolds.of_value {i : Instr} {reads : List Nat} {x : Shape} {v : Nat → Word × BitVec 5}
    {rule : GC → List Shape → Shape} {f : GC → Nat → Word × BitVec 5} (he : exec i s = vecOp s false g d reads rule f)
    (hs : rule c (reads.map (vtag c)) = x) (hv : ∀ j, f c j = v j) : VecRow.FloatHolds s c g d ⟨i, false, reads, x, v⟩ := by
  intro h hl _ hr
  have bare : c.spl.pre.lit = none := hl.resolve_right fun extended => Bool.false_ne_true extended.1
  rw [he, vecOp_run _ h (.inr bare) (hs ▸ hr), funext hv]

end rows

/-! ## Elements -/

theorem elemGet_eq {w : Nat} (hw : 0 < w) (x : Word) (j : Nat) : elemGet w x j = x.toNat / 2 ^ (w * j) % 2 ^ w := by
  have width : w * j + w - 1 + 1 - w * j = w := by omega
  rw [elemGet, bitsOf, width]

/-- A byte of a word as a signed element (02 R38). -/
theorem intElem_byte (x : Word) (j : Nat) : intElem 6 (elemGet 8 x j) = (x.extractLsb' (8 * j) 8).toInt := by
  have byte : BitVec.ofNat 8 (elemGet 8 x j) = x.extractLsb' (8 * j) 8 := by
    apply BitVec.eq_of_toNat_eq
    rw [elemGet_eq (by decide), BitVec.toNat_ofNat, Nat.mod_mod, BitVec.extractLsb'_toNat, Nat.shiftRight_eq_div_pow]
  exact congrArg BitVec.toInt byte

/-! ## Conversions -/

theorem cvtNarrows_iff : ∀ o : BitVec 4, cvtNarrows o.toNat = true ↔ o = 4 ∨ o = 5 ∨ o = 8 ∨ o = 9 := by decide

/-- CVT passes its checks when code and position are in the table and a LIT, if there is one, leaves the code as it is
(03 R76). -/
theorem execCvt_converts {s : State} {c : GC} {g : BitVec 3} {d a : BitVec 7} {o : BitVec 4} {n : BitVec 3} {reads : List Nat}
    {x : Shape} (hreads : (if cvtNarrows o.toNat then [a.toNat, d.toNat] else [a.toNat]) = reads)
    (hs : shapeUG (reads.map (vtag c)) = x) (h : GroupIssues s c (d.toNat :: reads))
    (hl : c.spl.pre.lit = none ∨ c.spl.pre.lit = some 0) (hw : (Instr.cvt g d a o n).wellFormed = true)
    (hr : RegsLegal c (ones [d.toNat]) (ones reads) x) :
    execCvt g d a o n s = .next (vecDone s c g.toNat d.toNat fun i =>
      cvtWord (modRnd c) o.toNat n.toNat (vreg c a.toNat i) (vreg c d.toNat i)) := by
  obtain ⟨code, position⟩ : o.toNat ≤ 11 ∧ n.toNat ≤ cvtMaxPos o.toNat := by
    simpa [Instr.wellFormed, cvtMaxPos] using hw
  have payload : ((grpLit c).getD 0 != 0) = false := by
    rcases hl with bare | zero
    · rw [grpLit, bare]
      rfl
    · rw [grpLit, zero]
      rfl
  have sound : (decide (11 < o.toNat) || decide (cvtMaxPos o.toNat < n.toNat) || (grpLit c).getD 0 != 0) = false := by
    rw [payload, Bool.or_false, Bool.or_eq_false_iff, decide_eq_false_iff_not, decide_eq_false_iff_not]
    exact ⟨Nat.not_lt.mpr code, Nat.not_lt.mpr position⟩
  simp only [execCvt, hreads, hs, grpInstr_run h.issuing (.inl rfl), h.ready, Bool.false_eq_true, if_false, List.cons_append,
    sound, chk_false]
  exact retires_of_regsLegal hr g.toNat (d.toNat :: reads) _

/-! ## Reductions -/

/-- The root of the tree of a reduction, and the flags of its five levels (09 R241). -/
def treeRoot (op : Word → Word → Word × BitVec 5) (leaves : List (Option Word)) : Word × BitVec 5 :=
  (((treeFold op 5 leaves).1.getD 0 none).getD 0, (treeFold op 5 leaves).2)

/-- A row of a reduction holds when its value is the root over the words of the active lanes. -/
theorem VecRow.FloatHolds.of_tree {s : State} {c : GC} {g d a : Nat} {i : Instr} {v : Nat → Word × BitVec 5}
    {op : Word → Word → Word × BitVec 5} (he : exec i s = fredOp s g d a op)
    (hv : ∀ j, treeRoot op ((List.range 32).map fun j => if j ∈ activeLanes c g then some (vreg c a j) else none) = v j) :
    VecRow.FloatHolds s c g d ⟨i, false, [a], .uniform, v⟩ := by
  simp only [mem_activeLanes] at hv
  exact .of_value he rfl hv

/-- Settles O19: each row's instruction is an operation on vector registers with the row's shape and values, the elements
of packed words at literal positions; CVT checks its code besides, and a reduction is the root of its tree. -/
theorem floatResults : Obligations.FloatResults := by
  unfold Obligations.FloatResults
  intro s c g d a b x o n A B D R word v prod halves half elem i8 ug ab abd cvtReads
  have bytes (y z t : Word) : (List.range 4).foldl
      (fun t j => t + intElem 6 (elemGet 8 y j) * intElem 6 (elemGet 8 z j)) t.toInt =
        t.toInt + i8 y 0 * i8 z 0 + i8 y 1 * i8 z 1 + i8 y 2 * i8 z 2 + i8 y 3 * i8 z 3 := by
    simp only [intElem_byte]
    rfl
  have reads : (if cvtNarrows o.toNat then [a.toNat, d.toNat] else [a.toNat]) = cvtReads :=
    ite_congr (propext (cvtNarrows_iff o)) (fun _ => rfl) fun _ => rfl
  change ∀ r ∈ _, VecRow.FloatHolds s c g.toNat d.toNat r
  simp only [List.forall_mem_cons, List.not_mem_nil, false_implies, implies_true, and_true]
  exact ⟨
    .of_value rfl rfl fun i => rfl,
    .of_value rfl rfl fun i => rfl,
    .of_value rfl rfl fun i => rfl,
    .of_value rfl rfl fun i => rfl,
    .of_value rfl rfl fun i => rfl,
    .of_value rfl rfl fun i => rfl,
    .of_value rfl rfl fun i => rfl,
    .of_value rfl rfl fun i => rfl,
    .of_value rfl rfl fun i => rfl,
    .of_value rfl rfl fun i => rfl,
    .of_value rfl rfl fun i => rfl,
    .of_value rfl rfl fun i => rfl,
    .of_value rfl rfl fun i => rfl,
    .of_value rfl rfl fun i => rfl,
    .of_value rfl rfl fun i => rfl,
    .of_value rfl rfl fun i => rfl,
    .of_value rfl rfl fun i => rfl,
    .of_value rfl rfl fun i => rfl,
    .of_value rfl rfl fun i => rfl,
    .of_value rfl rfl fun i => rfl,
    .of_value rfl rfl fun i => rfl,
    .of_value rfl rfl fun i => congrArg (fun y => (BitVec.ofInt 32 y, 0)) (bytes (A i) (B i) (D i)),
    fun h hl hw hr => execCvt_converts reads (shapeUG_map c _) h (hl.imp_right And.right) hw hr,
    .of_tree rfl fun _ => rfl,
    .of_tree rfl fun _ => rfl,
    .of_tree rfl fun _ => rfl⟩

end Sys2Proof.Machine
end

section
namespace Sys2Proof.Machine

/-! # Scaled conversions (09 R233, R234) -/

theorem shapeRank_le_general : ∀ x : Shape, shapeRank x ≤ shapeRank .general
  | .uniform | .affine | .general => by decide

/-- Registers that are legal for a result of one shape are so for every other that the tag of the destination admits. -/
theorem RegsLegal.of_dest {c : GC} {d : Nat} {srcs : List (Nat × Nat)} {x y : Shape} (h : RegsLegal c (ones [d]) srcs x)
    (hy : shapeRank y ≤ shapeRank (vtag c d)) : RegsLegal c (ones [d]) srcs y where
  range := h.range
  bank := h.bank
  shape := by
    rintro r hr j hj
    obtain rfl : r = (d, 1) := List.mem_singleton.mp hr
    rw [Nat.lt_one_iff.mp hj]
    exact hy

/-- The registers whose shapes count in a CVTX: vd's too where a lane of the split compresses (log entry 34). -/
def cvtxOperands (c : GC) (d a b : Nat) : List Nat :=
  if (lanesOf c.spl.lanes).any fun i => (vreg c b i).getLsbD 7 then [a, b, d] else [a, b]

/-- A destination that is general, or uniform with its operands, admits the shape of a CVTX's result. -/
theorem shapeRank_cvtx_le {c : GC} {d a b : Nat} (h : vtag c d = .general ∨ (vtag c a = .uniform ∧ vtag c b = .uniform ∧
      ((∃ i ∈ lanesOf c.spl.lanes, (vreg c b i).getLsbD 7 = true) → vtag c d = .uniform))) :
    shapeRank (shapeUG ((cvtxOperands c d a b).map (vtag c))) ≤ shapeRank (vtag c d) := by
  rcases h with general | ⟨ha, hb, hd⟩
  · rw [general]
    exact shapeRank_le_general _
  · have uniform : shapeUG ((cvtxOperands c d a b).map (vtag c)) = .uniform := by
      unfold cvtxOperands
      split
      · next packs => simp [shapeUG, ha, hb, hd (List.any_eq_true.mp packs)]
      · simp [shapeUG, ha, hb]
    rw [uniform]
    exact Nat.zero_le _

theorem execCvtx_converts {s : State} {c : GC} {g : BitVec 3} {d a b : BitVec 7}
    (h : GroupIssues s c [d.toNat, a.toNat, b.toNat]) (hl : c.spl.pre.lit = none)
    (hr : RegsLegal c (ones [d.toNat]) (ones [a.toNat, b.toNat])
      (shapeUG ((cvtxOperands c d.toNat a.toNat b.toNat).map (vtag c)))) :
    execCvtx g d a b s = .next (vecDone s c g.toNat d.toNat fun i =>
      cvtxWord (modRnd c) (vreg c b.toNat i) (vreg c a.toNat i) (vreg c d.toNat i)) := by
  simp only [execCvtx, grpInstr_run h.issuing (.inr hl), h.ready, Bool.false_eq_true, if_false]
  exact retires_of_regsLegal hr g.toNat [d.toNat, a.toNat, b.toNat] _

/-- Settles O20: the destination admits the shape of the operands that count, so that no check of CVTX finds a fault. -/
theorem scaledConversionResults : Obligations.ScaledConversionResults := by
  unfold Obligations.ScaledConversionResults
  intro s c g d a b packs h hl hr admits
  exact execCvtx_converts h hl (hr.of_dest (shapeRank_cvtx_le admits))

end Sys2Proof.Machine
end

section
namespace Sys2Proof.Machine

/-! # The special functions and the signal instructions (09 R237 to R240) -/

section special
variable {s : State} {c : GC} {g : BitVec 3} {d a b : BitVec 7}

/-- An operation of the special-function unit with its registers ready and its flag below 63 is not held. -/
theorem heldBy_pass {p q : Bool} (hp : p = false) (hq : q = false) (n m : Nat) (e : Eff) : heldBy [(p, n), (q, m)] e = e := by
  subst hp hq
  rfl

theorem sfuOp_run (hl : c.spl.pre.lit = none) (f : Word → Word × BitVec 5) (h : GroupIssues s c [d.toNat, a.toNat])
    (hf : flagFull c.grp.flags c.spl.clause = false)
    (hr : RegsLegal c (ones [d.toNat]) (ones [a.toNat]) (shapeUG [vtag c a.toNat])) :
    sfuOp s g d a f = .next (retireGrp (onSplit (raiseFlags
      (writeReg s c d.toNat (activeLanes c g.toNat) fun i => (f (vreg c a.toNat i)).1) c.core c.g
      ((activeLanes c g.toNat).foldl (fun x i => x ||| (f (vreg c a.toNat i)).2) 0)) c
        fun x => { x with clause := clauseUsed x.clause }) c) := by
  simp only [sfuOp, grpInstr_run h.issuing (.inr hl), heldBy_pass h.ready hf]
  exact retires_of_regsLegal hr g.toNat [d.toNat, a.toNat] _

theorem eq_general_of_rank {x : Shape} (h : shapeRank .general ≤ shapeRank x) : x = .general := by
  cases x with
  | general => rfl
  | uniform | affine => exact absurd h (by decide)

theorem execTwid_twiddles (h : GroupIssues s c [d.toNat, d.toNat + 1, a.toNat, b.toNat]) (hl : c.spl.pre.lit = none)
    (hf : flagFull c.grp.flags c.spl.clause = false) (hr : RegsLegal c [(d.toNat, 2)] (ones [a.toNat, b.toNat]) .general)
    (ha : vtag c a.toNat = .general) (hb : vtag c b.toNat = .uniform) :
    execTwid g d a b s = .next (retireGrp (onSplit (raiseFlags (writeRegs s c d.toNat 2 (activeLanes c g.toNat) fun j i =>
        (twidWord (vreg c a.toNat i).toInt (vreg c b.toNat i).toNat j).1) c.core c.g
      ((activeLanes c g.toNat).foldl (fun x i => x ||| (twidWord (vreg c a.toNat i).toInt (vreg c b.toNat i).toNat 0).2
        ||| (twidWord (vreg c a.toNat i).toInt (vreg c b.toNat i).toNat 1).2) 0)) c
          fun x => { x with clause := clauseUsed x.clause }) c) := by
  have range : (outOfRange c d.toNat 2 || outOfRange c a.toNat 1 || outOfRange c b.toNat 1) = false := by
    simp only [outOfRange, Bool.or_eq_false_iff, decide_eq_false_iff_not, Nat.not_lt]
    exact ⟨⟨hr.range (d.toNat, 2) (by simp), hr.range (a.toNat, 1) (by simp [ones])⟩, hr.range (b.toNat, 1) (by simp [ones])⟩
  have pair (j : Nat) (hj : j < 2) : vtag c (d.toNat + j) = .general :=
    eq_general_of_rank (hr.shape (d.toNat, 2) (List.mem_singleton_self _) j hj)
  have even : vtag c d.toNat = .general := pair 0 (by decide)
  have odd : vtag c (d.toNat + 1) = .general := pair 1 (by decide)
  simp only [execTwid, grpInstr_run h.issuing (.inr hl), heldBy_pass h.ready hf, range, ha, hb, even, odd, chk_false,
    ne_eq, not_true_eq_false, decide_false, Bool.or_false, bankCheck_pass hr.bank]
  rfl

/-- An instruction on pairs, quads and the like, when its checks pass. -/
theorem pairOp_run {n : Nat} {dst : Nat × Nat} {srcs : List (Nat × Nat)} {x : Shape} (f : GC → Nat → Nat → Word × BitVec 5)
    (h : GroupIssues s c (regNames (dst :: srcs))) (hl : c.spl.pre.lit = none)
    (hs : shapeUG ((regNames srcs).map (vtag c)) = x) (hr : RegsLegal c [dst] srcs x) :
    pairOp s n dst srcs f = .next (retireGrp (raiseFlags
      (writeRegs s c dst.1 dst.2 (activeLanes c n) fun j i => (f c j i).1) c.core c.g
      ((activeLanes c n).foldl (fun x i => (List.range dst.2).foldl (fun x j => x ||| (f c j i).2) x) 0)) c) := by
  simp only [pairOp, hs, grpInstr_run h.issuing (.inr hl), h.ready, Bool.false_eq_true, if_false]
  exact retires_of_regsLegal hr n (regNames (dst :: srcs)) _

/-- The terms of the component of a complex product that a condition names. -/
theorem complexTerms_decide (p : Prop) [Decidable p] (xr xi yr yi : Word) : complexTerms p xr xi yr yi =
    if p then [termMul (fval xr) (fval yi), termMul (fval xi) (fval yr)]
    else [termMul (fval xr) (fval yr), termNeg (termMul (fval xi) (fval yi))] := by
  simp only [complexTerms, decide_eq_true_eq]

end special

/-- Settles O21: the seven special functions are one operation, and so are the three complex instructions, whose terms
are those of the real and the imaginary part in turn. -/
theorem specialAndSignalResults : Obligations.SpecialAndSignalResults := by
  unfold Obligations.SpecialAndSignalResults
  intro s c g d a b act A B D word v prod ug write used product twiddled hl
  have products : product = fun j i => complexTerms (j = 1) (A 0 i) (A 1 i) (B 0 i) (B 1 i) :=
    funext fun j => funext fun i => (complexTerms_decide (j = 1) ..).symm
  have twiddles : twiddled = fun j i => complexTerms (j % 2 = 1) (B 2 i) (B 3 i) (B 0 i) (B 1 i) :=
    funext fun j => funext fun i => (complexTerms_decide (j % 2 = 1) ..).symm
  rw [products, twiddles]
  refine ⟨?special, fun h hf hr ha hb => execTwid_twiddles h hl hf hr ha hb, ?bfly2, ?cmul, ?cmad⟩
  case special =>
    simp only [List.forall_mem_cons, List.not_mem_nil, false_implies, implies_true, and_true]
    exact ⟨sfuOp_run hl rcpWord, sfuOp_run hl rsqWord, sfuOp_run hl sqrtWord, sfuOp_run hl exp2Word, sfuOp_run hl log2Word,
      sfuOp_run hl (sinpWord 0), sfuOp_run hl (sinpWord 1)⟩
  case bfly2 => exact fun h hr => pairOp_run _ h hl (shapeUG_map c _) hr
  case cmul => exact fun h hr => pairOp_run _ h hl (shapeUG_map c _) hr
  case cmad => exact fun h hr => pairOp_run _ h hl (shapeUG_map c _) hr

end Sys2Proof.Machine
end

section
namespace Sys2Proof.Machine

/-! # The barrier instructions (14 R342 to R359) -/

/-! ## Reads of an object (14 R348, R357) -/

section reads
variable {o : Barrier} {n : Word}

theorem phaseDone_iff : phaseDone o n = true ↔ 1 ≤ (o.phase - n).toNat ∧ (o.phase - n).toNat ≤ 2 ^ 31 := by
  simp only [phaseDone, Bool.and_eq_true, decide_eq_true_eq]

theorem phaseErr_iff_errorState (h : o.state = 2) : phaseErr o n = true ↔ (n - o.ephase).toNat < 2 ^ 31 := by
  rw [phaseErr, if_pos h, decide_eq_true_eq]

theorem phaseErr_iff_otherState (h : o.state ≠ 2) :
    phaseErr o n = true ↔ (n - o.ephase).toNat < (o.eend - o.ephase).toNat := by
  rw [phaseErr, if_neg h, decide_eq_true_eq]

/-- The current phase of an object is not complete. -/
theorem phaseDone_current (o : Barrier) : phaseDone o o.phase = false := by
  rw [Bool.eq_false_iff, Ne, phaseDone_iff]
  simp

theorem verdict_done (h : phaseDone o n = true) : verdict o n = .done (!phaseErr o n) := if_pos h

theorem verdict_err (h : phaseDone o n = false) (hs : o.state = 0) : verdict o n = .err := by
  rw [verdict, if_neg (ne_true_of_eq_false h), if_pos hs]

theorem verdict_open (h : phaseDone o n = false) (hs : o.state ≠ 0) : verdict o n = .open_ := by
  rw [verdict, if_neg (ne_true_of_eq_false h), if_neg hs]

end reads

/-! ## What the barrier instructions have in common -/

section shared
variable {s : State} {i : Iss}

/-- With no access of the thread to its own pool left, an operation on an object of the core is in its turn. -/
theorem ownTurn_pass (h : ownPending s (issThread i) = false) (e : Eff) : ownTurn s i e = e := by
  rw [ownTurn, h]
  rfl

theorem localObject_some {n : Nat} {o : Barrier} (h : ownPending s (issThread i) = false)
    (ho : getBar s (issCore i) n = some o) (f : Barrier → Eff) : localObject s i n f = f o := by
  rw [localObject, ownTurn_pass h, ho]

theorem localObject_none {n : Nat} (h : ownPending s (issThread i) = false) (ho : getBar s (issCore i) n = none)
    (f : Barrier → Eff) : localObject s i n f = .fault (barErr (localSpot (issBlk i) n)) := by
  rw [localObject, ownTurn_pass h, ho]

/-- The state once an operation is on its way to another core and its thread has begun to wait. -/
def barSent (s : State) (i : Iss) (dst index : Nat) (spot : BitVec 16) (op : BarOp) (loc : Nat) : State :=
  startWait (bumpId (modFlight s fun f => { f with bars := f.bars ++
    [{ id := nextId s, src := issThread i, split := issSplit i, member := (issBlk i).member, spot := spot, dst := dst
       index := index, op := op, loc := loc, via := viaOf s (coreDie (issCore i)) (coreDie dst) }] }))
    i (.barrierReply (nextId s))

section sends
variable {dst : Nat} (index : Nat) (spot : BitVec 16) (op : BarOp) (loc : Nat)

theorem sendBarReq_sent (h : routeUp s (coreDie (issCore i)) (coreDie dst) = true) :
    sendBarReq s i dst index spot op loc = .wait (barSent s i dst index spot op loc) :=
  if_neg (by rw [h, Bool.not_true, Bool.and_false]; exact Bool.false_ne_true)

theorem sendBarReq_cut (hd : dst < 192) (h : routeUp s (coreDie (issCore i)) (coreDie dst) = false) :
    sendBarReq s i dst index spot op loc = .fault { code := cLINK_DOWN, bar := spot } :=
  if_pos (by rw [h, decide_eq_true hd]; rfl)

end sends

/-! ## Waits for a phase (14 R348, R357) -/

section waits
variable {p : BitVec 3} {a n : Word} {t : Option Nat}

theorem waitPhase_nowhere (h : barAim s (issCore i) a = none) :
    waitPhase s i p a n t = .fault (barErr (a.truncate 16)) := by
  rw [waitPhase, h]

/-- The cycle at which a wait of t cycles expires; one of no cycles has expired as it begins. -/
def waitExpiry (s : State) (t : Option Nat) : Option Nat := t.map fun t => if t = 0 then 0 else s.clk.cycle + t

theorem waitPhase_remote {dst j : Nat} (h : barAim s (issCore i) a = some (dst, j)) (hd : dst ≠ issCore i) :
    waitPhase s i p a n t = sendBarReq s i dst j (a.truncate 16) (.read n p (waitExpiry s t)
      (((coreCluster s (issCore i)).map fun cl => (clusterCores cl).contains dst).getD false)) 0 := by
  rw [waitPhase, h]
  exact if_neg hd

section own
variable {j : Nat} {o : Barrier} (hp : ownPending s (issThread i) = false) (h : barAim s (issCore i) a = some (issCore i, j))
  (ho : getBar s (issCore i) j = some o)
include hp h ho

theorem waitPhase_done (hd : phaseDone o n = true) :
    waitPhase s i p a n t = .retire (putDest s i p.toNat (!phaseErr o n)) := by
  simp only [waitPhase, h, if_true, ownTurn_pass hp, ho, verdict_done hd]

theorem waitPhase_err (hd : phaseDone o n = false) (hs : o.state = 0) :
    waitPhase s i p a n t = .fault (barErr (a.truncate 16)) := by
  simp only [waitPhase, h, if_true, ownTurn_pass hp, ho, verdict_err hd hs]

variable (hd : phaseDone o n = false) (hs : o.state ≠ 0)
include hd hs

theorem waitPhase_polls : waitPhase s i p a n (some 0) = .retire (putDest s i p.toNat false) := by
  simp only [waitPhase, h, if_true, ownTurn_pass hp, ho, verdict_open hd hs]

theorem waitPhase_waits (ht : t ≠ some 0) : waitPhase s i p a n t =
    .wait (setWatch (startWait s i (.barrier (BitVec.ofNat 32 j) n p (waitExpiry s t) none)) (issCore i) j) := by
  simp only [waitPhase, h, if_true, ownTurn_pass hp, ho, verdict_open hd hs, if_neg ht, waitExpiry]

end own
end waits
end shared

/-! ## BWAIT and BTWAIT (14 R357) -/

section waitInstructions
variable {s : State} {i : Iss} {p : BitVec 3} {a h : BitVec 6}

theorem execBwait_run (hi : SharedIssues s i false [(a.toNat, 1), (h.toNat, 1)] [a.toNat, h.toNat] (.dest p)) :
    execBwait p a h s = .next (endIss s i (waitPhase s i p (opWord i a.toNat) (opWord i h.toNat) none)) := by
  rw [execBwait, sharedInstr_anyOne hi]

theorem execBtwait_run (hi : SharedIssues s i true [(a.toNat, 1), (h.toNat, 1)] [a.toNat, h.toNat] (.dest p))
    (t : BitVec 9) : execBtwait p a h t s = .next (endIss s i
      (waitPhase s i p (opWord i a.toNat) (opWord i h.toNat) (some (imm9 (issLit i) t).toNat))) := by
  rw [execBtwait, sharedInstr_anyOne hi]

end waitInstructions

/-- Settles O44: the test is the definition's; a complete phase is the first thing that a wait finds. -/
theorem phaseCompletionTest : Obligations.PhaseCompletionTest := by
  unfold Obligations.PhaseCompletionTest
  refine ⟨fun o n => ⟨phaseDone_iff, phaseErr_iff_errorState, phaseErr_iff_otherState⟩, ?_⟩
  intro s i p a h t j o ha ho hd hp ends
  exact ⟨fun hi => (execBwait_run hi).trans (by rw [waitPhase_done hp ha ho hd, endIss_retire]),
    fun hi => (execBtwait_run hi t).trans (by rw [waitPhase_done hp ha ho hd, endIss_retire])⟩

end Sys2Proof.Machine
end

section
namespace Sys2Proof.Machine

/-! # What a barrier instruction does to its object, by the object's state (14 R344 to R359) -/

/-! ## Objects after a change -/

section objects

/-- The objects that a core's block declares, and how many. -/
def barsOf (s : State) (core : Nat) : Option (Nat × Table Barrier) :=
  (getBlk s core).map fun b => (b.hdr.barriers, b.barriers)

theorem getBar_congr {s t : State} {core : Nat} (h : barsOf t core = barsOf s core) (i : Nat) :
    getBar t core i = getBar s core i := by
  have read (u : State) : getBar u core i =
      (barsOf u core).bind fun b => if i < b.1 then some (tgetD {} i b.2) else none := by
    rw [barsOf, Option.bind_map]
    rfl
  rw [read, read, h]

/-- A change of a block that leaves its objects alone. -/
theorem barsOf_modBlk {s : State} {core : Nat} {f : Block → Block}
    (h : ∀ b, (f b).hdr.barriers = b.hdr.barriers ∧ (f b).barriers = b.barriers) (k : Nat) :
    barsOf (modBlk s core f) k = barsOf s k := by
  by_cases hk : k = core
  · subst hk
    rw [barsOf, barsOf, getBlk_modBlk, Option.map_map]
    exact congrFun (congrArg _ (funext fun b => Prod.ext (h b).1 (h b).2)) _
  · rw [barsOf, barsOf, getBlk_modBlk_other s f hk]

@[simp] theorem barsOf_modGrp (s : State) (core g : Nat) (f : Group → Group) (k : Nat) :
    barsOf (modGrp s core g f) k = barsOf s k :=
  barsOf_modBlk (by exact fun _ => ⟨rfl, rfl⟩) k

@[simp] theorem barsOf_modFe (s : State) (core : Nat) (f : FrontEnd → FrontEnd) (k : Nat) :
    barsOf (modFe s core f) k = barsOf s k :=
  barsOf_modBlk (by exact fun _ => ⟨rfl, rfl⟩) k

@[simp] theorem barsOf_trigEvent (s : State) (core : Nat) (cause : TrigCause) (k : Nat) :
    barsOf (trigEvent s core cause) k = barsOf s k :=
  barsOf_modBlk (by exact fun _ => ⟨rfl, rfl⟩) k

@[simp] theorem barsOf_tellLocal (s : State) (core i : Nat) (n : Word) (ok : Bool) (k : Nat) :
    barsOf (tellLocal s core i n ok) k = barsOf s k :=
  barsOf_modBlk (by exact fun _ => ⟨rfl, rfl⟩) k

@[simp] theorem barsOf_modFlight (s : State) (f : Flight → Flight) (k : Nat) :
    barsOf (modFlight s f) k = barsOf s k := rfl

@[simp] theorem barsOf_bumpId (s : State) (k : Nat) : barsOf (bumpId s) k = barsOf s k := rfl

@[simp] theorem barsOf_evalBarrier (s : State) (core i k : Nat) :
    barsOf (evalBarrier s core i) k = barsOf s k := by
  unfold evalBarrier
  split <;> rfl

@[simp] theorem barsOf_sendBar (s : State) (core kind m i : Nat) (n : Word) (err : Bool) (code : Byte) (k : Nat) :
    barsOf (sendBar s core kind m i n err code) k = barsOf s k := by
  unfold sendBar
  split <;> rfl

@[simp] theorem barsOf_putWord (s : State) (i : Iss) (n : Nat) (v : Word) (k : Nat) :
    barsOf (putWord s i n v) k = barsOf s k := by
  cases i with
  | grp c => exact barsOf_modGrp ..
  | fe c =>
    rw [putWord, writeS]
    split
    · rfl
    · exact barsOf_modFe ..

@[simp] theorem barsOf_issRetire (s : State) (i : Iss) (k : Nat) : barsOf (issRetire s i) k = barsOf s k := by
  cases i with
  | grp c => exact barsOf_modGrp ..
  | fe c => exact barsOf_modFe ..

/-- The object that has just been changed. -/
theorem getBar_modBar {s : State} {core i : Nat} {o : Barrier} (h : getBar s core i = some o) (f : Barrier → Barrier) :
    getBar (modBar s core i f) core i = some (f o) := by
  obtain ⟨b, hb, ho⟩ := Option.bind_eq_some_iff.mp h
  obtain ⟨hi, ho⟩ := Option.ite_none_right_eq_some.mp ho
  rw [getBar, modBar, getBlk_modBlk, hb]
  simp only [Option.map_some, Option.bind_some, hi, if_true, ← Option.some.inj ho]
  rw [tgetD, tfind_tput_same]
  rfl

end objects

/-! ## BINIT (14 R349, R354) -/

section instructions
variable {s : State} {i : Iss} {g p : BitVec 3} {n : BitVec 6} {o : Barrier}

/-- BARRIER_ERR at the local object that an instruction names. -/
def objectErr (i : Iss) (n : Nat) : Flt := barErr (localSpot (issBlk i) n)

section binit
variable {a : BitVec 6} {f : BitVec 1}

/-- An object in its phase, or blocked, takes no BINIT. -/
def initRefused (o : Barrier) : Bool := o.state = 3 || (o.state ≠ 0 && o.touched)

theorem initRefused_iff : initRefused o = true ↔ o.state = 3 ∨ o.state ≠ 0 ∧ o.touched = true := by
  simp [initRefused]

theorem execBinit_missing (h : SharedIssues s i true [] [] (.guard g)) (hp : ownPending s (issThread i) = false)
    (ho : getBar s (issCore i) n.toNat = none) : execBinit g a 0 f n s = .next (issFault s (objectErr i n.toNat) i) := by
  rw [execBinit]
  refine (sharedInstr_anyOne h).trans ?_
  rw [localObject_none hp ho, endIss_fault, objectErr]

/-- BINIT without LINK: an object is armed, or with FREE freed. -/
theorem execBinit_plain (h : SharedIssues s i true [] [] (.guard g)) (hp : ownPending s (issThread i) = false)
    (ho : getBar s (issCore i) n.toNat = some o) : execBinit g a 0 f n s = .next (endIss s i
      (if initRefused o then .fault (objectErr i n.toNat)
      else if f = 1 then
        if o.state = 0 then .retire s
        else if o.lmask ≠ 0 || o.femem || o.cmask ≠ 0 then .fault (objectErr i n.toNat)
        else .retire (modBar (unlinkParent s (issCore i) n.toNat (issThread i)) (issCore i) n.toNat fun o =>
          { o with state := 0, parent := 0xFFFF, fwd := false })
      else .retire (initObject s (issCore i) n.toNat (issThread i) none))) := by
  rw [execBinit]
  refine (sharedInstr_anyOne h).trans ?_
  exact congrArg (fun e => Host.Outcome.next (endIss s i e)) (localObject_some hp ho _)

section plain
variable (h : SharedIssues s i true [] [] (.guard g)) (hp : ownPending s (issThread i) = false)
  (ho : getBar s (issCore i) n.toNat = some o)
include h hp ho

theorem execBinit_refused (hr : initRefused o = true) :
    execBinit g a 0 f n s = .next (issFault s (objectErr i n.toNat) i) := by
  rw [execBinit_plain h hp ho, if_pos hr, endIss_fault]

theorem execBinit_arms (hs : o.state = 0) : execBinit g a 0 0 n s =
    .next (issRetire (modBar s (issCore i) n.toNat fun o => armObject o 0xFFFF) i) := by
  rw [execBinit_plain h hp ho, if_neg (by simp [initRefused, hs]), if_neg (by decide), endIss_retire, initObject, ho]
  exact congrArg (fun t => Host.Outcome.next (issRetire t i)) (if_pos hs)

/-- FREE of an object that is IDLE does nothing. -/
theorem execBinit_frees_idle (hs : o.state = 0) : execBinit g a 0 1 n s = .next (issRetire s i) := by
  rw [execBinit_plain h hp ho, if_neg (by simp [initRefused, hs]), if_pos rfl, if_pos hs, endIss_retire]

variable (hs : o.state ≠ 0) (hr : initRefused o = false)
include hs hr

theorem execBinit_rearms : execBinit g a 0 0 n s =
    .next (issRetire (modBar s (issCore i) n.toNat fun o => rearmObject o none) i) := by
  rw [execBinit_plain h hp ho, hr, if_neg Bool.false_ne_true, if_neg (by decide), endIss_retire, initObject, ho]
  exact congrArg (fun t => Host.Outcome.next (issRetire t i)) (if_neg hs)

theorem execBinit_free_refused (hm : o.lmask ≠ 0 ∨ o.femem = true ∨ o.cmask ≠ 0) :
    execBinit g a 0 1 n s = .next (issFault s (objectErr i n.toNat) i) := by
  rw [execBinit_plain h hp ho, hr, if_neg Bool.false_ne_true, if_pos rfl, if_neg hs, if_pos (by simpa [or_assoc] using hm),
    endIss_fault]

theorem execBinit_frees (hl : o.lmask = 0) (hf : o.femem = false) (hc : o.cmask = 0) : execBinit g a 0 1 n s =
    .next (issRetire (modBar (unlinkParent s (issCore i) n.toNat (issThread i)) (issCore i) n.toNat fun o =>
      { o with state := 0, parent := 0xFFFF, fwd := false }) i) := by
  rw [execBinit_plain h hp ho, hr, if_neg Bool.false_ne_true, if_pos rfl, if_neg hs, if_neg (by simp [hl, hf, hc]),
    endIss_retire]

end plain

/-- What BINIT with LINK makes of the parent's address. -/
def linkEff (s : State) (i : Iss) (n : Nat) (o : Barrier) (pa : Word) : Option (Nat × Nat) → Eff
  | none => .fault (barErr (pa.truncate 16))
  | some (dst, k) =>
    if o.state ≠ 0 && o.cmask ≠ 0 then .fault (objectErr i n)
    else if pa.getLsbD 31 || dst = issCore i then .fault (barErr (pa.truncate 16))
    else sendBarReq s i dst k (pa.truncate 16) (.link (BitVec.ofNat 16 (issBlk i).member)) n

theorem linkEff_children {dst k : Nat} (hs : o.state ≠ 0) (hc : o.cmask ≠ 0) (m : Nat) (pa : Word) :
    linkEff s i m o pa (some (dst, k)) = .fault (objectErr i m) :=
  if_pos (by simpa using ⟨hs, hc⟩)

section childless
variable (hc : o.state = 0 ∨ o.cmask = 0)
include hc

theorem linkEff_here {dst k : Nat} {pa : Word} (hd : pa.getLsbD 31 = true ∨ dst = issCore i) (m : Nat) :
    linkEff s i m o pa (some (dst, k)) = .fault (barErr (pa.truncate 16)) :=
  (if_neg (by simpa [Decidable.imp_iff_not_or] using hc)).trans (if_pos (by simpa using hd))

theorem linkEff_elsewhere {dst k : Nat} {pa : Word} (hf : pa.getLsbD 31 = false) (hd : dst ≠ issCore i) (m : Nat) :
    linkEff s i m o pa (some (dst, k)) =
      sendBarReq s i dst k (pa.truncate 16) (.link (BitVec.ofNat 16 (issBlk i).member)) m :=
  (if_neg (by simpa [Decidable.imp_iff_not_or] using hc)).trans (if_neg (by rw [hf, decide_eq_false hd]; decide))

end childless

/-- BINIT with LINK: the parent is asked first. -/
theorem execBinit_link (h : SharedIssues s i true [(a.toNat, 1)] [a.toNat] (.guard g))
    (hp : ownPending s (issThread i) = false) (ho : getBar s (issCore i) n.toNat = some o) :
    execBinit g a 1 0 n s = .next (endIss s i (if initRefused o then .fault (objectErr i n.toNat)
      else linkEff s i n.toNat o (opWord i a.toNat) (barAim s (issCore i) (opWord i a.toNat)))) := by
  rw [execBinit]
  refine (sharedInstr_anyOne h).trans ?_
  refine congrArg (fun e => Host.Outcome.next (endIss s i e)) ((localObject_some hp ho _).trans ?_)
  rfl

end binit

/-! ## BJOIN and BLEAVE (14 R344, R355) -/

section membership
variable (h : SharedIssues s i true [] [] (.guard g)) (hp : ownPending s (issThread i) = false)
include h hp

theorem execBjoin_missing (ho : getBar s (issCore i) n.toNat = none) :
    execBjoin g n s = .next (issFault s (objectErr i n.toNat) i) :=
  (sharedInstr_anyOne h).trans (by rw [localObject_none hp ho, endIss_fault, objectErr])

theorem execBleave_missing (ho : getBar s (issCore i) n.toNat = none) :
    execBleave g n s = .next (issFault s (objectErr i n.toNat) i) :=
  (sharedInstr_anyOne h).trans (by rw [localObject_none hp ho, endIss_fault, objectErr])

variable (ho : getBar s (issCore i) n.toNat = some o)
include ho

theorem execBjoin_refused (hr : o.state = 0 ∨ isMember o (issThread i).who = true) :
    execBjoin g n s = .next (issFault s (objectErr i n.toNat) i) := by
  refine (sharedInstr_anyOne h).trans ?_
  rw [localObject_some hp ho, if_pos (by simpa using hr), endIss_fault, objectErr]

/-- The thread becomes a member. -/
def joinObject (o : Barrier) : Who → Barrier
  | .fe => { o with femem := true }
  | .grp g => { o with lmask := putBit o.lmask g true }

theorem execBjoin_joins (hs : o.state ≠ 0) (hm : isMember o (issThread i).who = false) : execBjoin g n s =
    .next (issRetire (evalBarrier (modBar s (issCore i) n.toNat fun x => unblock (joinObject x (issThread i).who))
      (issCore i) n.toNat) i) := by
  refine (sharedInstr_anyOne h).trans ?_
  rw [localObject_some hp ho, if_neg (by simpa [hm] using hs), endIss_retire]
  cases i <;> rfl

theorem execBleave_refused (hm : isMember o (issThread i).who = false) :
    execBleave g n s = .next (issFault s (objectErr i n.toNat) i) := by
  refine (sharedInstr_anyOne h).trans ?_
  rw [localObject_some hp ho, if_pos (by rw [hm]; rfl), endIss_fault, objectErr]

theorem execBleave_leaves (hm : isMember o (issThread i).who = true) : execBleave g n s =
    .next (issRetire (evalBarrier (leaveOne s (issCore i) n.toNat (issBlk i) (issThread i).who) (issCore i) n.toNat) i) := by
  refine (sharedInstr_anyOne h).trans ?_
  rw [localObject_some hp ho, if_neg (by rw [hm]; exact Bool.false_ne_true), endIss_retire]

end membership

/-! ## BARR and BARRW (14 R351, R356) -/

section arrivals
variable {d : BitVec 6} (hp : ownPending s (issThread i) = false) (ho : getBar s (issCore i) n.toNat = some o)

/-- The state once the arrival of the issuing thread has been made and its register holds the phase. -/
def arrived (s : State) (i : Iss) (d n : Nat) (o : Barrier) : State :=
  evalBarrier (modBar (putWord s i d o.phase) (issCore i) n fun x => arrive x (issThread i).who) (issCore i) n

include hp ho

theorem arriveAt_refused (hr : o.state = 0 ∨ isMember o (issThread i).who = false ∨ hasArrived o (issThread i).who = true)
    (k : State → Word → Eff) : arriveAt s i d.toNat n.toNat k = .fault (objectErr i n.toNat) :=
  (localObject_some hp ho _).trans (if_pos (by simpa [or_assoc] using hr))

section made
variable (hs : o.state ≠ 0) (hm : isMember o (issThread i).who = true) (ha : hasArrived o (issThread i).who = false)
  (hr : issReleases s i = true)
include hs hm ha hr

theorem arriveAt_made (k : State → Word → Eff) :
    arriveAt s i d.toNat n.toNat k = k (arrived s i d.toNat n.toNat o) o.phase := by
  refine (localObject_some hp ho _).trans ?_
  rw [if_neg (by simpa [hm, ha] using hs), if_neg (by simp [hr])]
  rfl

theorem execBarr_arrives (h : SharedIssues s i true [(d.toNat, 1)] [d.toNat] (.guard g)) :
    execBarr g d n s = .next (issRetire (arrived s i d.toNat n.toNat o) i) :=
  (sharedInstr_anyOne h).trans (by rw [arriveAt_made hp ho hs hm ha hr, endIss_retire])

end made

theorem execBarr_refused (h : SharedIssues s i true [(d.toNat, 1)] [d.toNat] (.guard g))
    (hr : o.state = 0 ∨ isMember o (issThread i).who = false ∨ hasArrived o (issThread i).who = true) :
    execBarr g d n s = .next (issFault s (objectErr i n.toNat) i) :=
  (sharedInstr_anyOne h).trans (by rw [arriveAt_refused hp ho hr, endIss_fault])

omit hp in
/-- The object holds the arrival, in the phase that it was made in. -/
theorem getBar_arrived : getBar (arrived s i d.toNat n.toNat o) (issCore i) n.toNat = some (arrive o (issThread i).who) := by
  have kept : getBar (putWord s i d.toNat o.phase) (issCore i) n.toNat = some o :=
    (getBar_congr (barsOf_putWord ..) _).trans ho
  rw [arrived, getBar_congr (barsOf_evalBarrier ..)]
  exact getBar_modBar kept _

end arrivals

@[simp] theorem arrive_phase (o : Barrier) (who : Who) : (arrive o who).phase = o.phase := by cases who <;> rfl
@[simp] theorem arrive_state (o : Barrier) (who : Who) : (arrive o who).state = o.state := by cases who <;> rfl

theorem putWord_flight (s : State) (i : Iss) (n : Nat) (v : Word) : (putWord s i n v).flight = s.flight := by
  cases i with
  | grp c => rfl
  | fe c => exact writeS_flight ..

theorem ownPending_arrived (d n : Nat) : ownPending (arrived s i d n o) (issThread i) = ownPending s (issThread i) := by
  have kept : (arrived s i d n o).flight = s.flight := by
    unfold arrived evalBarrier
    split <;> exact putWord_flight ..
  rw [ownPending, kept, ownPending]

/-- BARRW arrives and waits for the phase that it arrived in. -/
theorem execBarrw_waits {d : BitVec 6} (h : SharedIssues s i true [(d.toNat, 1)] [d.toNat] (.dest p))
    (hp : ownPending s (issThread i) = false) (ho : getBar s (issCore i) n.toNat = some o) (hs : o.state ≠ 0)
    (hm : isMember o (issThread i).who = true) (ha : hasArrived o (issThread i).who = false) (hr : issReleases s i = true)
    (aim : barAim (arrived s i d.toNat n.toNat o) (issCore i) (BitVec.ofNat 32 ((issBlk i).member * 256 + n.toNat)) =
      some (issCore i, n.toNat)) :
    execBarrw p d n s = .next (issWait (setWatch (startWait (arrived s i d.toNat n.toNat o) i
      (.barrier (BitVec.ofNat 32 n.toNat) o.phase p none none)) (issCore i) n.toNat) i) := by
  refine (sharedInstr_anyOne h).trans ?_
  have current : phaseDone (arrive o (issThread i).who) o.phase = false :=
    arrive_phase o (issThread i).who ▸ phaseDone_current (arrive o (issThread i).who)
  rw [arriveAt_made hp ho hs hm ha hr, waitPhase_waits ((ownPending_arrived ..).trans hp) aim (getBar_arrived ho) current
    ((arrive_state ..).symm ▸ hs) (t := none) (by decide), endIss_wait]
  rfl

/-! ## BEXPECT and BQUERY (14 R358, R359) -/

/-- The bytes that BEXPECT adds. -/
def expectOperand (i : Iss) (n : Nat) : DWord :=
  match i with
  | .grp c => (vreg c n 0).zeroExtend 64
  | .fe c => sreg c n

section aimed
variable {a b : BitVec 6} {k j : Nat}

section bexpect
variable (h : SharedIssues s i false [(a.toNat, 1), (b.toNat, 1)] [a.toNat, b.toNat] (.guard g))
include h

theorem execBexpect_nowhere (ha : barAim s (issCore i) (opWord i a.toNat) = none) :
    execBexpect g a b s = .next (issFault s (barErr ((opWord i a.toNat).truncate 16)) i) := by
  refine (sharedInstr_anyOne h).trans ?_
  simp only [ha, endIss_fault]

theorem execBexpect_remote {dst : Nat} (ha : barAim s (issCore i) (opWord i a.toNat) = some (dst, j)) (hd : dst ≠ issCore i) :
    execBexpect g a b s = .next (endIss s i (sendBarReq s i dst j ((opWord i a.toNat).truncate 16)
      (.expect (expectOperand i b.toNat)) 0)) := by
  refine (sharedInstr_anyOne h).trans ?_
  simp only [ha]
  rw [if_neg hd]
  cases i <;> rfl

variable (hp : ownPending s (issThread i) = false) (ha : barAim s (issCore i) (opWord i a.toNat) = some (issCore i, j))
  (ho : getBar s (issCore i) j = some o)
include hp ha ho

theorem execBexpect_idle (hs : o.state = 0) :
    execBexpect g a b s = .next (issFault s (barErr ((opWord i a.toNat).truncate 16)) i) := by
  refine (sharedInstr_anyOne h).trans ?_
  simp only [ha, if_true, ownTurn_pass hp, ho, hs, endIss_fault]

theorem execBexpect_expects (hs : o.state ≠ 0) :
    execBexpect g a b s = .next (issRetire (expectBytes s (issCore i) j (expectOperand i b.toNat)) i) := by
  refine (sharedInstr_anyOne h).trans ?_
  simp only [ha, if_true, ownTurn_pass hp, ho, if_neg hs, endIss_retire]
  cases i <;> rfl

end bexpect

section bquery
variable {d : BitVec 6} {half : BitVec 1} {k : BitVec 3}
  (h : SharedIssues s i true [(d.toNat, 1), (a.toNat, 1)] [d.toNat, a.toNat] (.guard g)) (hk : k.toNat ≤ 5)
include h hk

theorem execBquery_nowhere (ha : barAim s (issCore i) (opWord i a.toNat) = none) :
    execBquery g d a half k s = .next (issFault s (barErr ((opWord i a.toNat).truncate 16)) i) := by
  refine (sharedInstr_run h (decide_eq_false (Nat.not_lt.mpr hk)) (fun _ _ => rfl) rfl).trans ?_
  simp only [ha, endIss_fault]

theorem execBquery_remote {dst : Nat} (ha : barAim s (issCore i) (opWord i a.toNat) = some (dst, j)) (hd : dst ≠ issCore i) :
    execBquery g d a half k s = .next (endIss s i (sendBarReq s i dst j ((opWord i a.toNat).truncate 16)
      (.query k (half = 1) d) 0)) := by
  refine (sharedInstr_run h (decide_eq_false (Nat.not_lt.mpr hk)) (fun _ _ => rfl) rfl).trans ?_
  simp only [ha]
  rw [if_neg hd]

theorem execBquery_reads (hp : ownPending s (issThread i) = false)
    (ha : barAim s (issCore i) (opWord i a.toNat) = some (issCore i, j)) (ho : getBar s (issCore i) j = some o) :
    execBquery g d a half k s = .next (issRetire (putHalfOrWide s i d.toNat half (barValue o k.toNat)) i) := by
  refine (sharedInstr_run h (decide_eq_false (Nat.not_lt.mpr hk)) (fun _ _ => rfl) rfl).trans ?_
  simp only [ha, if_true, ownTurn_pass hp, ho, endIss_retire, halfOf_eq]
  cases i <;> rfl

end bquery
end aimed
end instructions

end Sys2Proof.Machine
end

section
namespace Sys2Proof.Machine

/-- Settles O43: each instruction has its effect by the state of its object, or is sent to the core that its address
names. -/
theorem barrierInstructionsComplete : Obligations.BarrierInstructionsComplete := by
  unfold Obligations.BarrierInstructionsComplete
  refine ⟨?own, ?remote⟩
  case own =>
    intro s i p g d a h n t k half o core who spot fails hp
    refine ⟨fun hn hi => ⟨execBinit_missing hi hp hn, execBjoin_missing hi hp hn, execBleave_missing hi hp hn⟩,
      fun ho hi => ⟨?refused, ?idle, ?again, ?member, ?stranger, ?joins⟩, ?link, ?arrive, ?phase⟩
    case refused => exact fun hr => execBinit_refused hi hp ho (initRefused_iff.mpr hr)
    case idle => exact fun hs => ⟨execBinit_arms hi hp ho hs, execBinit_frees_idle hi hp ho hs, execBjoin_refused hi hp ho (.inl hs)⟩
    case again =>
      intro hs ht
      have live : o.state ≠ 0 := by rcases hs with hs | hs <;> (rw [hs]; decide)
      have takes : initRefused o = false := by rcases hs with hs | hs <;> (rw [initRefused, hs, ht]; rfl)
      exact ⟨execBinit_rearms hi hp ho live takes, execBinit_free_refused hi hp ho live takes,
        execBinit_frees hi hp ho live takes⟩
    case member => exact fun hm => ⟨execBjoin_refused hi hp ho (.inr hm), execBleave_leaves hi hp ho hm⟩
    case stranger => exact fun hm => execBleave_refused hi hp ho hm
    case joins =>
      intro hs hm
      refine (execBjoin_joins hi hp ho hs hm).trans ?_
      cases i <;> rfl
    case link =>
      intro pa ho hi
      have run : execBinit g a 1 0 n s = _ := execBinit_link hi hp ho
      refine ⟨fun hr => run.trans (by rw [if_pos (initRefused_iff.mpr hr), endIss_fault]; rfl), fun h3 ht => ?_⟩
      have takes : ¬ initRefused o = true := by
        rw [initRefused_iff]
        rintro (hs | ⟨hs, hr⟩)
        · exact h3 hs
        · exact ht.elim hs fun hf => Bool.false_ne_true (hf.symm.trans hr)
      rw [if_neg takes] at run
      refine ⟨fun ha => run.trans (by rw [ha, linkEff, endIss_fault]; rfl), fun dst j ha => ?_⟩
      rw [ha] at run
      refine ⟨fun hs hc => run.trans (by rw [linkEff_children hs hc, endIss_fault]; rfl), fun hc =>
        ⟨fun hd => run.trans (by rw [linkEff_here hc hd, endIss_fault]; rfl), fun hf hd hlt => ?_⟩⟩
      rw [linkEff_elsewhere hc hf hd] at run
      exact ⟨fun hr => run.trans (by rw [sendBarReq_cut _ _ _ _ hlt hr, endIss_fault]; rfl),
        fun hr => run.trans (by rw [sendBarReq_sent _ _ _ _ hr, endIss_wait]; rfl)⟩
    case arrive =>
      intro arr ho
      exact ⟨fun hi => ⟨fun hr => execBarr_refused hp ho hi hr, fun hs hm ha hr => execBarr_arrives hp ho hs hm ha hr hi⟩,
        fun hi hs hm ha hr aim => execBarrw_waits hi hp ho hs hm ha hr aim⟩
    case phase =>
      intro j spot ph done T ha ho
      have isDone : done ↔ phaseDone o ph = true := phaseDone_iff.symm
      have isOpen : ¬ done ↔ phaseDone o ph = false := by rw [isDone, Bool.not_eq_true]
      refine ⟨fun hi => ⟨fun hd => ?_, fun hd hs => ?_, fun hd hs => ?_⟩,
        fun hi => ⟨fun hd => ?_, fun hd hs => ⟨fun hT => ?_, fun hT => ?_⟩⟩, fun hi => ?_, fun hi hk => ?_⟩
      · exact (execBwait_run hi).trans (by rw [waitPhase_done hp ha ho (isDone.mp hd), endIss_retire])
      · exact (execBwait_run hi).trans (by rw [waitPhase_err hp ha ho (isOpen.mp hd) hs, endIss_fault]; rfl)
      · exact (execBwait_run hi).trans
          (by rw [waitPhase_waits hp ha ho (isOpen.mp hd) hs (t := none) (by decide), endIss_wait]; rfl)
      · exact (execBtwait_run hi t).trans (by rw [waitPhase_done hp ha ho (isDone.mp hd), endIss_retire])
      · refine (execBtwait_run hi t).trans ?_
        rw [show (imm9 (issLit i) t).toNat = 0 from hT, waitPhase_polls hp ha ho (isOpen.mp hd) hs, endIss_retire]
      · refine (execBtwait_run hi t).trans ?_
        rw [waitPhase_waits hp ha ho (isOpen.mp hd) hs (by simpa using hT), endIss_wait, waitExpiry, Option.map_some,
          if_neg hT]
      · intro bytes
        exact ⟨execBexpect_idle hi hp ha ho, fun hs => (execBexpect_expects hi hp ha ho hs).trans (by cases i <;> rfl)⟩
      · refine ⟨barValue o k.toNat, (execBquery_reads hi hk hp ha ho).trans (by cases i <;> rfl), ?_, ?_, ?_, ?_, ?_⟩ <;>
          (rintro rfl; rfl)
  case remote =>
    intro s i p g d a h t k half dst j T addr spot mine bytes sent
    have goes (op : BarOp) {i' : Instr} (run : exec i' s = .next (endIss s i (sendBarReq s i dst j spot op 0)))
        (hlt : dst < 192) :
        (routeUp s (coreDie (issCore i)) (coreDie dst) = true → exec i' s = .next (sent op 0)) ∧
        (routeUp s (coreDie (issCore i)) (coreDie dst) = false → exec i' s = .next (issFault s { code := 0x17, bar := spot } i)) :=
      ⟨fun hr => run.trans (by rw [sendBarReq_sent _ _ _ _ hr, endIss_wait]; rfl),
        fun hr => run.trans (by rw [sendBarReq_cut _ _ _ _ hlt hr, endIss_fault]; rfl)⟩
    simp only [List.forall_mem_cons, List.not_mem_nil, false_implies, implies_true, and_true]
    refine ⟨fun hi hk => ⟨fun ha hd hlt => goes _ ?_ hlt, fun ha => ?_⟩, fun hi hk => ⟨fun ha hd hlt => goes _ ?_ hlt, fun ha => ?_⟩,
      fun hi hk => ⟨fun ha hd hlt => goes _ ?_ hlt, fun ha => execBexpect_nowhere hi ha⟩,
      fun hi hk => ⟨fun ha hd hlt => goes _ ?_ hlt, fun ha => execBquery_nowhere hi hk ha⟩⟩
    · exact (execBwait_run hi).trans (by rw [waitPhase_remote ha hd]; rfl)
    · exact (execBwait_run hi).trans (by rw [waitPhase_nowhere ha, endIss_fault]; rfl)
    · exact (execBtwait_run hi t).trans (by rw [waitPhase_remote ha hd]; rfl)
    · exact (execBtwait_run hi t).trans (by rw [waitPhase_nowhere ha, endIss_fault]; rfl)
    · exact (execBexpect_remote hi ha hd).trans (by cases i <;> rfl)
    · exact execBquery_remote hi hk ha hd

end Sys2Proof.Machine
end

section
namespace Sys2Proof.Machine

/-! # The completion of a phase (14 R345, R346) -/

section completion
variable {s : State} {core i : Nat} {x : Barrier}

@[simp] theorem barsOf_sendNotices (s : State) (core i : Nat) (n : Word) (err : Bool) (code : Byte) (k : Nat) :
    barsOf (sendNotices s core i n err code) k = barsOf s k := by
  unfold sendNotices
  split
  · rfl
  · rw [foldSt_frame (barsOf · k) (fun _ _ => barsOf_sendBar ..),
      foldSt_frame (barsOf · k) (fun _ _ => by split <;> simp), barsOf_tellLocal]

/-- The object of a completed phase: that of the next phase, with its waiting members. -/
theorem getBar_completePhase (hx : getBar s core i = some x) (err : Bool) :
    ∃ w, getBar (completePhase s core i err) core i = some { closePhase x err with watch := w } := by
  have kept : getBar (foldSt (fun s y => modGrp s core y.1 takeBatch) (sendNotices s core i x.phase err x.ecode)
      (madeArrivals x.heldBatches).1) core i = some x :=
    (getBar_congr (by rw [foldSt_frame (barsOf · core) (fun _ _ => barsOf_modGrp ..), barsOf_sendNotices]) i).trans hx
  rw [completePhase, hx]
  exact ⟨_, (getBar_congr (barsOf_trigEvent ..) i).trans (getBar_modBar kept _)⟩

variable (hx : getBar s core i = some x) (hl : x.leaving = 0) (he : x.errNow = false)
include hx hl

theorem settleLeaves_none : settleLeaves s core i = s := by
  unfold settleLeaves
  split
  next b o hb ho => rw [hx, Option.some.injEq] at ho; exact if_pos (ho ▸ hl)
  next => rfl

include he

/-- The phase of an object without a parent completes once its conditions are met. -/
theorem evalOnce_completes (hs : x.state ≠ 0) (hp : x.parent = 0xFFFF) (hm : (othersMet x && localMet x) = true) :
    evalOnce s core i = completePhase s core i (x.state = 2) := by
  obtain ⟨b, hb, -⟩ := Option.bind_eq_some_iff.mp hx
  simp only [evalOnce, settleLeaves_none hx hl, hx, hb, if_neg hs, he, hm, hp, Bool.false_eq_true, if_false, if_true]

/-- An object whose other conditions are not met stays as it is. -/
theorem evalOnce_waits (hm : othersMet x = false) : evalOnce s core i = s := by
  obtain ⟨b, hb, -⟩ := Option.bind_eq_some_iff.mp hx
  simp only [evalOnce, settleLeaves_none hx hl, hx, hb, he, hm, Bool.false_and, Bool.and_false, Bool.false_eq_true,
    if_false, ite_self]

/-- With no batch held, an evaluation completes one phase. -/
theorem evalNow_completes (hs : x.state ≠ 0) (hp : x.parent = 0xFFFF) (hm : (othersMet x && localMet x) = true)
    (hh : x.heldBatches = []) :
    ∃ w, getBar (evalNow s core i) core i = some { closePhase x (x.state = 2) with watch := w } := by
  obtain ⟨w, hw⟩ := getBar_completePhase hx (x.state = 2)
  have twice : evalNow s core i = evalOnce (evalOnce s core i) core i := by
    rw [evalNow, hx, Option.map_some, hh]
    rfl
  have left : (closePhase x (x.state = 2)).leaving = 0 := hl
  have errs : (closePhase x (x.state = 2)).errNow = false := by rw [closePhase, hh]; rfl
  have open_ : othersMet { closePhase x (x.state = 2) with watch := w } = false := by
    simp [othersMet, closePhase, hh, madeArrivals]
  refine ⟨w, ?_⟩
  rw [twice, evalOnce_completes hx hl he hs hp hm, evalOnce_waits hw left errs open_, hw]

end completion

section lastArrival
variable {s : State} {i : Iss} {n : Nat}

theorem putWord_evals (s : State) (i : Iss) (n : Nat) (v : Word) : (putWord s i n v).evals = s.evals := by
  cases i with
  | grp c => rfl
  | fe c => exact writeS_evals ..

theorem issRetire_evals (s : State) (i : Iss) : (issRetire s i).evals = s.evals := by cases i <;> rfl

/-- The first object that receives an operation in a cycle is the one evaluated as the cycle ends. -/
theorem arrived_evals (d : Nat) (o : Barrier) (h : s.evals = []) : (arrived s i d n o).evals = [(issCore i, n)] := by
  have none : (modBar (putWord s i d o.phase) (issCore i) n fun x => arrive x (issThread i).who).evals = [] :=
    (putWord_evals ..).trans h
  rw [arrived, evalBarrier, none]
  rfl

/-- An arrival changes neither the masks of an object nor its counts. -/
theorem arrive_frame (o : Barrier) (who : Who) : arrive o who =
    { o with touched := true, arrived := true, fearr := (arrive o who).fearr, larr := (arrive o who).larr } := by
  cases who <;> rfl

end lastArrival

/-- Settles O45: the arrival leaves its object with every condition met, so that the evaluation at the end of the cycle
completes the phase, and finds none of the next one's conditions met. -/
theorem lastArrivalCompletesPhase : Obligations.LastArrivalCompletesPhase := by
  unfold Obligations.LastArrivalCompletesPhase
  intro s i g d n o core who x hi ho hr hs hm ha hp hpar hheld hleave herr hev hl hf hc hb
  let t := issRetire (arrived s i d.toNat n.toNat o) i
  have live : o.state ≠ 0 := by rw [hs]; decide
  have evals : t.evals = [(core, n.toNat)] := (issRetire_evals ..).trans (arrived_evals _ _ hev)
  have object : getBar { t with evals := [] } core n.toNat = some x :=
    (getBar_congr (barsOf_issRetire ..) _).trans (getBar_arrived ho)
  have met : (othersMet x && localMet x) = true := by
    have came : x.arrived = true := by rw [show x = arrive o who from rfl, arrive_frame]
    simp [othersMet, localMet, hl, hf, hc, hb, came]
  have frame : x = { o with touched := true, arrived := true, fearr := x.fearr, larr := x.larr } := arrive_frame o who
  have state : x.state = o.state := arrive_state o who
  obtain ⟨w, hw⟩ := evalNow_completes object (by rw [frame]; exact hleave) (by rw [frame]; exact herr)
    (state ▸ live) (by rw [frame]; exact hpar) met (by rw [frame]; exact hheld)
  have run : runEvals t = evalNow { t with evals := [] } core n.toNat := by rw [runEvals, evals]; rfl
  refine ⟨t, _, execBarr_arrives hp ho live hm ha hr hi, (congrArg (getBar · core n.toNat) run).trans hw, ?_⟩
  have held : x.heldBatches = [] := by rw [frame]; exact hheld
  simp only [closePhase, held, madeArrivals, List.map_nil, maskOf, state, hs, hb, if_true]
  rw [frame]
  simp

end Sys2Proof.Machine
end

section
namespace Sys2Proof.Machine

/-! # Barrier operations, replies, messages and time-outs (14 R342, R346, R347, R352, R357) -/

/-! ## Operations at their object (14 R342, R352) -/

section operations
variable {s : State} {r : BarReq} {o : Barrier}

/-- What an operation does at the object that it has reached. -/
def barOpEffect (s : State) (r : BarReq) (o : Barrier) : State :=
  match r.op with
  | .expect n => if o.state = 0 then answerBar s r.id none else answerBar (expectBytes s r.dst r.index n) r.id (some 0)
  | .query k _ _ => answerBar s r.id (some (barValue o k.toNat))
  | .read n _ e _ => readAtTarget s r o n e
  | .link m => linkAtTarget s r o m
  | .unlink m =>
    evalBarrier (modBar (dropBarReq s r.id) r.dst r.index fun o =>
      { o with cmask := putBit o.cmask m.toNat false, carr := putBit o.carr m.toNat false }) r.dst r.index

theorem execRemoteBarrierOp_due (hg : getBarReq s r.id = some r) (hr : r.reply = none) (hd : r.read = false)
    (hb : barBefore s r = false) (hp : issuerPlacing s r = false) (hh : barHeld s r = false)
    (ht : barTarget s r.src.core r.dst r.index = some o) :
    execRemoteBarrierOp r.id s = .next (barOpEffect s r o) := by
  simp only [execRemoteBarrierOp, hg, ht]
  exact event_due (by rw [hr, hd, hb, hp, hh]; rfl)

theorem readAtTarget_done {n : Word} (hr : r.read = false) (hd : phaseDone o n = true) (e : Option Nat) :
    readAtTarget s r o n e = answerBar s r.id (some (if phaseErr o n then 0 else 1)) := by
  simp only [readAtTarget, hr, Bool.false_and, Bool.false_eq_true, if_false, verdict_done hd, verdictValue]
  cases phaseErr o n <;> rfl

/-- A wait without a time finds its phase incomplete: it stays at the object. -/
theorem readAtTarget_open {n : Word} (hr : r.read = false) (hd : phaseDone o n = false) (hs : o.state ≠ 0) :
    readAtTarget s r o n none = setWatch (modBarReq s r.id fun x => { x with read := true }) r.dst r.index := by
  simp only [readAtTarget, hr, Bool.false_and, Bool.false_eq_true, if_false, verdict_open hd hs, Option.map_none,
    Option.getD_none]

theorem linkAtTarget_links {m : BitVec 16} (hs : o.state ≠ 0) (hp : o.parent = 0xFFFF)
    (hc : o.cmask.getLsbD m.toNat = false) (hl : s.flight.bars.any (linksFrom r.dst r.index) = false) :
    linkAtTarget s r o m = answerBar (evalBarrier (modBar s r.dst r.index fun x =>
      unblock { x with cmask := putBit x.cmask m.toNat true }) r.dst r.index) r.id (some 0) :=
  if_neg (by rw [hp, hc, hl]; simpa using hs)

/-! ## Acknowledgements and later reads (14 R342, R352) -/

theorem execBarrierReply_due {v : Option DWord} (hg : getBarReq s r.id = some r) (hv : r.reply = some v)
    (hh : barHeld s r = false) (hw : waitOf s (barWaiting r) = .barrierReply r.id)
    (ht : threadLive s r.src.core r.src.who = true) : execBarrierReply r.id s = .next (endBarReq s r v) := by
  have ends : canEnd s (barWaiting r) (.barrierReply r.id) = true := by
    rw [canEnd, hw, decide_eq_true rfl, Bool.true_and]
    exact ht
  simp only [execBarrierReply, hg, hv]
  exact event_due (by rw [ends, hh]; rfl)

theorem execAbsWaitPoll_due {n : Word} {p : BitVec 3} {e : Option Nat} (hg : getBarReq s r.id = some r)
    (hop : r.op = .read n p e false) (hd : r.read = true) (hr : r.reply = none)
    (ht : barTarget s r.src.core r.dst r.index = some o) :
    execAbsWaitPoll r.id s = .next (readAtTarget s r o n e) := by
  simp only [execAbsWaitPoll, hg, hop, ht]
  exact event_due (by rw [hd, hr]; rfl)

end operations

/-! ## Messages between objects (14 R346, R347) -/

section messages
variable {s : State} {m : BarMsg} {cl : Cluster} {kinds : List Nat} {f : State → BarMsg → Nat → State}
  (hg : getBarMsg s m.id = some m) (ht : barMsgTurn s m = true) (hk : m.kind ∈ kinds)
include hg ht hk

theorem barMsgStep_lost (hl : barMsgLost s m = true) :
    barMsgStep s m.id kinds f = .next (cutBarMsg (takeBarMsg s m) m) := by
  simp only [barMsgStep, hg, hl, if_true]
  exact event_due (by rw [List.contains_iff_mem.mpr hk, ht]; rfl)

theorem barMsgStep_arrives (hl : barMsgLost s m = false) (hc : getCl s m.cluster = some cl) :
    barMsgStep s m.id kinds f = .next (f (takeBarMsg s m) m (memberCore cl m.toMember)) := by
  simp only [barMsgStep, hg, hl, msgCore, hc, Option.map_some, Bool.false_eq_true, if_false]
  exact event_due (by rw [List.contains_iff_mem.mpr hk, ht]; rfl)

end messages

/-! ## Time-outs (14 R357) -/

/-- A BTWAIT on an object of its core, whose phase is not complete once its time has passed, gives false. -/
theorem execBtwaitTimeout_expired {s : State} {core who split e : Nat} {a n : Word} {p : BitVec 3} {o : Barrier}
    (hw : waitOf s ⟨core, if who = 64 then .fe else .grp who, split⟩ = .barrier a n p (some e) none)
    (ht : threadLive s core (if who = 64 then .fe else .grp who) = true) (he : e < s.clk.cycle)
    (ho : getBar s core a.toNat = some o) (hd : phaseDone o n = false) (hs : o.state ≠ 0) :
    execBtwaitTimeout core who split s =
      .next (setWatch (endWait (destWait s ⟨core, if who = 64 then .fe else .grp who, split⟩ p.toNat false)
        ⟨core, if who = 64 then .fe else .grp who, split⟩) core a.toNat) := by
  simp only [execBtwaitTimeout, hw, localVerdict, ho, verdict_open hd hs]
  exact event_due (by rw [ht, decide_eq_true he]; rfl)

/-- Settles O46: an operation in its turn has the effect of its kind; an answer, a poll, a message and a time-out each
come about when nothing holds them. -/
theorem barrierEvents : Obligations.BarrierEvents := by
  unfold Obligations.BarrierEvents
  intro s
  refine ⟨?operations, fun r v hg hv hh hw ht => execBarrierReply_due hg hv hh hw ht,
    fun r o n p e hg hop hd hr ht => execAbsWaitPoll_due hg hop hd hr ht, ?messages, ?timeout⟩
  case operations =>
    intro r o hg hr hd hb hp hh ht
    have run : exec (.remoteBarrierOp r.id) s = _ := execRemoteBarrierOp_due hg hr hd hb hp hh ht
    rw [barOpEffect] at run
    refine ⟨fun n hop hs => ?_, fun n hop hs => ?_, fun k half rd hop => ?_, fun n p e inC hop hdone => ?_,
      fun n p inC hop hdone hs => ?_, fun m hop hs hpar hc hl => ?_⟩ <;> rw [hop] at run
    · exact run.trans (congrArg _ (if_neg hs))
    · exact run.trans (congrArg _ (if_pos hs))
    · exact run
    · exact run.trans (congrArg _ (readAtTarget_done hd hdone e))
    · exact run.trans (congrArg _ (readAtTarget_open hd hdone hs))
    · exact run.trans (congrArg _ (linkAtTarget_links hs hpar hc hl))
  case messages =>
    intro m cl hg ht hc core t
    refine ⟨fun hl => ⟨fun hk => barMsgStep_lost hg ht (by simp [hk]) hl, fun hk => barMsgStep_lost hg ht (by simp [hk]) hl,
      fun hk => barMsgStep_lost hg ht (by simpa using hk) hl⟩, fun hl => ⟨fun hk => ?_, fun hk => ?_, fun hk => ?_, fun hk => ?_⟩⟩
    · exact barMsgStep_arrives hg ht (by simp [hk]) hl hc
    · exact barMsgStep_arrives hg ht (by simp [hk]) hl hc
    · exact (barMsgStep_arrives hg ht (by simp [hk]) hl hc).trans (congrArg _ (if_pos hk))
    · exact barMsgStep_arrives hg ht (by simp [hk]) hl hc
  case timeout =>
    intro core who split a n p e x w hw ht he hread hsome
    obtain ⟨o, ho⟩ := Option.isSome_iff_exists.mp hsome
    obtain ⟨hd, hs⟩ := hread o ho
    exact execBtwaitTimeout_expired hw ht he ho hd hs

end Sys2Proof.Machine
end

section
namespace Sys2Proof.Machine

/-! # The memories of a core (10 R246, 13 R323, 16 R391) -/

theorem getCore_modCore_other (s : State) {core k : Nat} (f : CoreSt → CoreSt) (h : k ≠ core) :
    getCore (modCore s core f) k = getCore s k := by simp only [getCore, modCore, tgetD, tfind_tput_other _ h]

/-! ## Bytes of a pool -/

/-- Writing bytes leaves the places below them alone. -/
theorem tgetD_putBytes_below {x : Nat} (bs : List Byte) (m : List Host.Cell) {off : Nat} (h : x < off) :
    tgetD (0 : Byte) x (putBytes m off bs) = tgetD 0 x m := by
  induction bs generalizing m off with
  | nil => rfl
  | cons b r ih => rw [putBytes, ih _ (by omega), tgetD_tputD_other _ _ (by omega)]

/-- A byte of a memory after bytes have been written. -/
theorem tgetD_putBytes (bs : List Byte) {m : List Host.Cell} (off x : Nat) (h : Memory.wf m = true) :
    tgetD (0 : Byte) x (putBytes m off bs) = if off ≤ x ∧ x < off + bs.length then bs.getD (x - off) 0 else tgetD 0 x m := by
  induction bs generalizing m off with
  | nil => exact (if_neg (by simp only [List.length_nil]; omega)).symm
  | cons b r ih =>
    have hr : (b :: r).length = r.length + 1 := rfl
    rcases Nat.lt_trichotomy x off with hlt | rfl | hgt
    · rw [tgetD_putBytes_below _ _ hlt, if_neg (by omega)]
    · rw [putBytes, tgetD_putBytes_below _ _ (by omega), if_pos (by omega), Nat.sub_self]
      exact tgetD_tputD_same 0 x b h
    · rw [putBytes, ih (off + 1) (tputD_wf 0 off b h), tgetD_tputD_other _ _ (by omega)]
      obtain ⟨k, rfl⟩ : ∃ k, x = off + 1 + k := ⟨x - (off + 1), by omega⟩
      have tail : off + 1 + k - off = k + 1 := by omega
      rw [Nat.add_sub_cancel_left, tail, List.getD_cons_succ]
      exact if_congr (by omega) rfl rfl

/-! ## What keeps them -/

/-- The memories of a core, and the receives and the copy engine that write them. -/
def memsOf (s : State) (k : Nat) : List Host.Cell × Table Word × List Recv × Option CopyEngine :=
  ((getCore s k).pool, (getCore s k).tiles, (getCore s k).recvs, (getBlk s k).map Block.copy)

section keeps
variable {s t : State} {k : Nat}

theorem pool_of_memsOf (h : memsOf t k = memsOf s k) : (getCore t k).pool = (getCore s k).pool := congrArg Prod.fst h

theorem tiles_of_memsOf (h : memsOf t k = memsOf s k) : (getCore t k).tiles = (getCore s k).tiles :=
  congrArg (fun m => m.2.1) h

theorem recvs_of_memsOf (h : memsOf t k = memsOf s k) : (getCore t k).recvs = (getCore s k).recvs :=
  congrArg (fun m => m.2.2.1) h

theorem copy_of_memsOf (h : memsOf t k = memsOf s k) : (getBlk t k).map Block.copy = (getBlk s k).map Block.copy :=
  congrArg (fun m => m.2.2.2) h

theorem getBlk_isSome_of_memsOf {b : Block} (h : memsOf t k = memsOf s k) (hb : getBlk s k = some b) :
    (getBlk t k).isSome = true := by
  rw [← Option.isSome_map (f := Block.copy), copy_of_memsOf h, hb]
  rfl

theorem memsOf_of_cores (h : t.cores = s.cores) (k : Nat) : memsOf t k = memsOf s k := by
  simp only [memsOf, getBlk, getCore, h]

theorem memsOf_modCore {core : Nat} {f : CoreSt → CoreSt} (h : ∀ c, (f c).pool = c.pool ∧ (f c).tiles = c.tiles ∧
    (f c).recvs = c.recvs ∧ (f c).block.map Block.copy = c.block.map Block.copy) (k : Nat) :
    memsOf (modCore s core f) k = memsOf s k := by
  by_cases hk : k = core
  · obtain ⟨hp, ht, hr, hb⟩ := h (getCore s core)
    simp only [memsOf, getBlk, hk, getCore_modCore, hp, ht, hr, hb]
  · simp only [memsOf, getBlk, getCore_modCore_other s f hk]

theorem memsOf_modBlk {core : Nat} {f : Block → Block} (h : ∀ b, (f b).copy = b.copy) (k : Nat) :
    memsOf (modBlk s core f) k = memsOf s k := by
  have same (c : CoreSt) : (c.block.map f).map Block.copy = c.block.map Block.copy := by
    rw [Option.map_map]
    exact congrArg (Option.map · c.block) (funext h)
  exact memsOf_modCore (by exact fun c => ⟨rfl, rfl, rfl, same c⟩) k

@[simp] theorem memsOf_modFlight (s : State) (f : Flight → Flight) (k : Nat) : memsOf (modFlight s f) k = memsOf s k := rfl

@[simp] theorem memsOf_bumpId (s : State) (k : Nat) : memsOf (bumpId s) k = memsOf s k := rfl

@[simp] theorem memsOf_modGrp (s : State) (core g : Nat) (f : Group → Group) (k : Nat) :
    memsOf (modGrp s core g f) k = memsOf s k := memsOf_modBlk (by exact fun _ => rfl) k

@[simp] theorem memsOf_modBar (s : State) (core i : Nat) (f : Barrier → Barrier) (k : Nat) :
    memsOf (modBar s core i f) k = memsOf s k := memsOf_modBlk (by exact fun _ => rfl) k

@[simp] theorem memsOf_trigEvent (s : State) (core : Nat) (cause : TrigCause) (k : Nat) :
    memsOf (trigEvent s core cause) k = memsOf s k := memsOf_modBlk (by exact fun _ => rfl) k

@[simp] theorem memsOf_tellLocal (s : State) (core i : Nat) (n : Word) (ok : Bool) (k : Nat) :
    memsOf (tellLocal s core i n ok) k = memsOf s k := memsOf_modBlk (by exact fun _ => rfl) k

/-! ## Barriers -/

@[simp] theorem evalBarrier_cores (s : State) (core i : Nat) : (evalBarrier s core i).cores = s.cores := by
  unfold evalBarrier
  split <;> rfl

@[simp] theorem memsOf_evalBarrier (s : State) (core i k : Nat) : memsOf (evalBarrier s core i) k = memsOf s k :=
  memsOf_of_cores (evalBarrier_cores ..) k

@[simp] theorem memsOf_sendBar (s : State) (core kind m i : Nat) (n : Word) (err : Bool) (code : Byte) (k : Nat) :
    memsOf (sendBar s core kind m i n err code) k = memsOf s k := by
  unfold sendBar
  split <;> rfl

@[simp] theorem memsOf_creditBytes (s : State) (core i n k : Nat) : memsOf (creditBytes s core i n) k = memsOf s k := by
  unfold creditBytes
  split
  · split
    · rfl
    · rw [memsOf_evalBarrier, memsOf_modBar]
  · rfl

@[simp] theorem memsOf_sendNotices (s : State) (core i : Nat) (n : Word) (err : Bool) (code : Byte) (k : Nat) :
    memsOf (sendNotices s core i n err code) k = memsOf s k := by
  unfold sendNotices
  split
  · rfl
  · rw [foldSt_frame (memsOf · k) (fun _ _ => memsOf_sendBar ..),
      foldSt_frame (memsOf · k) (fun _ _ => by split <;> simp), memsOf_tellLocal]

@[simp] theorem memsOf_completePhase (s : State) (core i : Nat) (err : Bool) (k : Nat) :
    memsOf (completePhase s core i err) k = memsOf s k := by
  unfold completePhase
  split
  · rfl
  · rw [memsOf_trigEvent, memsOf_modBar, foldSt_frame (memsOf · k) (fun _ _ => memsOf_modGrp ..), memsOf_sendNotices]

@[simp] theorem memsOf_faultObject (s : State) (core i : Nat) (code : Byte) (k : Nat) :
    memsOf (faultObject s core i code) k = memsOf s k := by
  unfold faultObject
  split
  · rfl
  · simp only
    split
    · rfl
    · split
      · rw [memsOf_completePhase, memsOf_modBar]
      · rw [memsOf_sendBar, memsOf_modBar, memsOf_modBar]

@[simp] theorem memsOf_agentFault (s : State) (core i : Nat) (code : Byte) (k : Nat) :
    memsOf (agentFault s core i code) k = memsOf s k := (memsOf_evalBarrier ..).trans (memsOf_faultObject ..)

@[simp] theorem agentRecord_cores (s : State) (ctx : Nat) (r : FaultRec) : (agentRecord s ctx r).cores = s.cores := by
  unfold agentRecord
  split <;> rfl

/-! ## Memory and the debug ring -/

@[simp] theorem clearWord_cores (s : State) (p : Word) (a : Nat) : (clearWord s p a).cores = s.cores := by
  unfold clearWord
  simp only
  split <;> rfl

@[simp] theorem recallWord_cores (s : State) (p : Word) (a : Nat) : (recallWord s p a).cores = s.cores := by
  unfold recallWord
  simp only
  (repeat' split) <;> simp

@[simp] theorem homePutByte_cores (s : State) (p : Word) (a : Nat) (b : Byte) : (homePutByte s p a b).cores = s.cores := by
  unfold homePutByte
  (repeat' split) <;> simp

@[simp] theorem putPhys_cores (s : State) (p : Word) (a : Nat) (bs : List Byte) : (putPhys s p a bs).cores = s.cores := by
  induction bs generalizing s a with
  | nil => rfl
  | cons b r ih => rw [putPhys, ih, homePutByte_cores]

@[simp] theorem physPut_cores (s : State) (p : Word) (a : Nat) (bs : List Byte) : (physPut s p a bs).cores = s.cores := by
  simp [physPut]

@[simp] theorem ringAppend_cores (s : State) (bytes : List Byte) : (ringAppend s bytes).cores = s.cores := by
  unfold ringAppend
  split
  · rfl
  · simp only
    split
    · rfl
    · simp

/-! ## Ports -/

@[simp] theorem memsOf_watchHit (s : State) (core i : Nat) (glob : Bool) (kind addr src : Nat) (handle pc : Word)
    (data : DWord) (k : Nat) : memsOf (watchHit s core i glob kind addr src handle pc data) k = memsOf s k :=
  (memsOf_modBlk (by exact fun _ => by split <;> rfl) k).trans (memsOf_trigEvent ..)

@[simp] theorem memsOf_watchCheck (s : State) (core : Nat) (glob : Bool) (kind addr n src : Nat) (handle pc : Word)
    (data : DWord) (k : Nat) : memsOf (watchCheck s core glob kind addr n src handle pc data) k = memsOf s k := by
  unfold watchCheck watchChecks
  split
  · exact foldSt_frame (memsOf · k) (fun t i => by split <;> simp) _ _
  · rfl

@[simp] theorem memsOf_setFull (s : State) (core off n : Nat) (v : Bool) (k : Nat) :
    memsOf (setFull s core off n v) k = memsOf s k := memsOf_modCore (by exact fun _ => ⟨rfl, rfl, rfl, rfl⟩) k

@[simp] theorem memsOf_inform (s : State) (r : PoolReq) (v : Option (BitVec 128)) (ue : Bool) (k : Nat) :
    memsOf (inform s r v ue) k = memsOf s k := by
  unfold inform informCode
  generalize hm : modInst s r.inst _ = m
  have same : memsOf m k = memsOf s k := hm ▸ rfl
  simp only
  split
  next e _ =>
    split
    · unfold endAcquire
      split
      · exact (memsOf_modGrp ..).trans same
      · exact same
    · exact same
  next => exact same

@[simp] theorem checkScope_cores (s : State) (r : PoolReq) (n kind : Nat) : (checkScope s r n kind).cores = s.cores := by
  unfold checkScope scopeRecord
  (repeat' split) <;> simp

@[simp] theorem memsOf_portLoad (s : State) (r : PoolReq) (n : Nat) (clr : Bool) (k : Nat) :
    memsOf (portLoad s r n clr) k = memsOf s k := by
  unfold portLoad portWatch
  rw [memsOf_watchCheck, memsOf_inform, memsOf_of_cores (checkScope_cores ..)]
  split
  · exact memsOf_setFull ..
  · rfl

@[simp] theorem memsOf_satisfyFe (s : State) (c k : Nat) : memsOf (satisfyFe s c) k = memsOf s k := by
  have pick : ∀ (clr : Bool) (t : State) (r : PoolReq), memsOf (match r.op with
      | .loadFe n k =>
        if k = clr && granulesFull t c r.off n then
          portLoad (modFlight t fun f => { f with pool := f.pool.filter fun x => x.id ≠ r.id }) r n clr
        else t
      | _ => t) k = memsOf t k := by
    intro clr t r
    split
    · split
      · exact memsOf_portLoad ..
      · rfl
    · rfl
  exact (foldSt_frame (memsOf · k) (pick true) _ _).trans (foldSt_frame (memsOf · k) (pick false) _ _)

end keeps

/-! ## A write of a pool -/

theorem getCore_poolPut (s : State) (c off : Nat) (bs : List Byte) (k : Nat) : getCore (poolPut s c off bs) k =
    if k = c then { getCore s c with pool := putBytes (getCore s c).pool off bs } else getCore s k := by
  refine Eq.trans (b := getCore (modCore s c fun k => { k with pool := putBytes k.pool off bs }) k) rfl ?_
  by_cases hk : k = c
  · rw [if_pos hk, hk, getCore_modCore]
  · rw [if_neg hk, getCore_modCore_other s _ hk]

/-- Every byte of every pool after bytes of one have been written. -/
theorem tgetD_poolPut {s : State} (c off : Nat) (bs : List Byte) (h : Memory.wf (getCore s c).pool = true) (k x : Nat) :
    tgetD (0 : Byte) x (getCore (poolPut s c off bs) k).pool =
      if k = c ∧ off ≤ x ∧ x < off + bs.length then bs.getD (x - off) 0 else tgetD 0 x (getCore s k).pool := by
  rw [getCore_poolPut]
  by_cases hk : k = c
  · subst hk
    simp only [if_true, true_and, tgetD_putBytes bs off x h]
  · rw [if_neg hk, if_neg fun e => hk e.1]

end Sys2Proof.Machine
end

section
namespace Sys2Proof.Machine

/-! # The stages of a message (16 R390 to R393, R398) -/

section header
variable {s : State} {m : MsgFlight}

/-- The state in which a header goes: one with a release has had it performed. -/
def headerSent (s : State) (m : MsgFlight) : State :=
  match sendOf s m.hdr with
  | some e => if e.rel then releaseAt s e.thread.core 3 else s
  | none => s

/-- A header finds no way to its endpoint. -/
def headerLost (t : State) (m : MsgFlight) : Bool :=
  headerCut t m || (m.dstDev ≠ t.host.devnum && !(routeLink (tgetD 0 m.dstDev t.host.route)).any (linkIn t carries))

theorem headerLost_iff (t : State) (m : MsgFlight) : headerLost t m = true ↔ headerCut t m = true ∨
    (m.dstDev ≠ t.host.devnum ∧ ∀ l, routeLink (tgetD 0 m.dstDev t.host.route) = some l → linkIn t carries l = false) := by
  rw [headerLost]
  generalize routeLink (tgetD 0 m.dstDev t.host.route) = r
  cases r <;> simp

theorem execMsgHeaderArrive_due (hm : getMsg s m.id = some m) (h0 : m.stage = 0) (ht : headerTurn s m = true)
    (hh : msgHeld s m = false) (hf : fabricHeld s m.dstDev = false) :
    execMsgHeaderArrive m.id s = .next (
      if headerLost (headerSent s m) m then sendCompletion (dropMsg (headerSent s m) m.id) m.hdr.srcCore m.hdr 0x17
      else if m.dstDev = (headerSent s m).host.devnum then headerArrives (headerSent s m) m
      else modMsg (headerSent s m) m.id fun x => { x with stage := 4 }) := by
  rw [execMsgHeaderArrive, hm]
  exact event_due (by simp [h0, ht, hh, hf])

/-- What a header meets that reaches a core of this device (16 R391). -/
theorem headerArrives_refused {t : State} (h : endpointOk (dropMsg t m.id) m.hdr m.dstCore = false) :
    headerArrives t m = sendCompletion (dropMsg t m.id) m.dstCore m.hdr 0x08 := by
  simp only [headerArrives, h, Bool.not_false, if_true]
  rfl

theorem headerArrives_matched {t : State} {r : Recv} (h : endpointOk (dropMsg t m.id) m.hdr m.dstCore = true)
    (hr : ((getCore t m.dstCore).recvs.find? fun r => !r.matched && recvMatches r m.hdr) = some r) :
    headerArrives t m = sendPull (modRecvs (dropMsg t m.id) m.dstCore fun l =>
      l.map fun e => if e.id = r.id then { e with matched := true } else e) m.dstCore m.hdr r.id := by
  have hr' : ((getCore (dropMsg t m.id) m.dstCore).recvs.find? fun r => !r.matched && recvMatches r m.hdr) = some r := hr
  simp only [headerArrives, h, Bool.not_true, Bool.false_eq_true, if_false, hr']

theorem headerArrives_unmatched {t : State} (h : endpointOk (dropMsg t m.id) m.hdr m.dstCore = true)
    (hr : ((getCore t m.dstCore).recvs.find? fun r => !r.matched && recvMatches r m.hdr) = none) :
    headerArrives t m = if (getCore t m.dstCore).overflow.length < 64
      then modOverflow (dropMsg t m.id) m.dstCore fun l => l ++ [m.hdr]
      else sendCompletion (overflowRecord (dropMsg t m.id) m.hdr m.dstCore) m.dstCore m.hdr 0x0F := by
  have hr' : ((getCore (dropMsg t m.id) m.dstCore).recvs.find? fun r => !r.matched && recvMatches r m.hdr) = none := hr
  simp only [headerArrives, h, Bool.not_true, Bool.false_eq_true, if_false, hr']
  rfl

/-- A posted receive that has not matched takes a header. -/
theorem takes_eq (h : MsgHeader) : (fun r : Recv => !r.matched && recvMatches r h) = fun r =>
    decide (r.matched = false ∧ r.tag = h.tag ∧ (r.anySrc = true ∨ (r.dev = h.srcDev ∧ r.core = h.srcCore))) := by
  funext r
  simp [recvMatches, Bool.decide_and, Bool.decide_or]

end header

section stages
variable {s : State} {m : MsgFlight}

/-- The pull of a message that this device sends (16 R391). -/
theorem execMsgPull_own {e : SendEntry} (hm : getMsg s m.id = some m) (h1 : m.stage = 1) (own : m.hdr.srcDev = s.host.devnum)
    (he : sendOf s m.hdr = some e) (hb : pullBad s m.hdr = false) (hh : msgHeld s m = false)
    (ht : coreTested s 1 m.hdr.srcCore = false) : execMsgPull m.id s = .next (addMsg (dropMsg s m.id)
      { m with stage := 2, data := poolBytes s m.hdr.srcCore (e.addr.toNat % 2 ^ 19) e.len }) := by
  have fabric : fabricHeld s s.host.devnum = false := by simp [fabricHeld]
  simp only [execMsgPull, hm, h1, own, decide_true, hh, ht, fabric, Bool.and_false, Bool.or_false, Bool.false_eq_true, if_false, he,
    Option.isNone_some, Bool.not_true, Bool.false_and, hb, if_true, pulledBytes]

theorem execMsgCompletion_sent {e : SendEntry} (hm : getMsg s m.id = some m) (h3 : m.stage = 3) (hh : msgHeld s m = false)
    (he : sendOf (dropMsg s m.id) m.hdr = some e) : execMsgCompletion m.id s = .next (if m.code = 0
      then sendDone (dropMsg s m.id) m.hdr.srcCore e else sendFailed (dropMsg s m.id) m.hdr.srcCore e m.code) := by
  simp only [execMsgCompletion, hm, h3, he, hh, Bool.not_false]
  exact event_due rfl

theorem execMwakeAck_done {q : GlobalReq} {k : Nat} {e : SendEntry} (hq : getReq s q.id = some q) (hs : q.send = some k)
    (hp : q.stage = .performed) (he : (getCore s q.thread.core).sends.find? (fun x => x.id = k) = some e) :
    execMwakeAck q.id s = .next (sendDone (dropReq s q.id) q.thread.core e) := by
  have he' : (getCore (dropReq s q.id) q.thread.core).sends.find? (fun x => x.id = k) = some e := he
  simp only [execMwakeAck, hq, hs, hp, he']

end stages

section landing
variable {s : State} {m : MsgFlight} {r : Recv}

@[simp] theorem memsOf_openGateM (s : State) (n ctx k : Nat) : memsOf (openGateM s n ctx) k = memsOf s k := by
  unfold openGateM
  split <;> rfl

theorem memsOf_sendCompletion (s : State) (core : Nat) (h : MsgHeader) (code : Byte) (k : Nat) :
    memsOf (sendCompletion s core h code) k = memsOf s k := rfl

/-- The bytes of a message that fit into its receive. -/
def landCount (m : MsgFlight) (r : Recv) : Nat := min m.data.length (r.len - 16)

/-- The pools once the bytes of a message have landed in its receive. -/
def landedData (s : State) (m : MsgFlight) (r : Recv) : State :=
  if landCount m r = 0 then s
  else setFull (poolPut s m.dstCore (r.addr.toNat % 2 ^ 19 + 16) (m.data.take (landCount m r))) m.dstCore
    (r.addr.toNat % 2 ^ 19 + 16) (landCount m r) true

/-- The pools once the header granule of a message has landed too. -/
def landedHeader (s : State) (m : MsgFlight) (r : Recv) : State :=
  setFull (poolPut (landedData s m r) m.dstCore (r.addr.toNat % 2 ^ 19) (headerGranule m.hdr (landCount m r < m.data.length)))
    m.dstCore (r.addr.toNat % 2 ^ 19) 16 true

/-- What follows on the bytes of a message changes no memory, and its receive goes. -/
theorem landMessage_mems (s : State) (m : MsgFlight) (r : Recv) :
    ∃ t, (∀ k, memsOf t k = memsOf (landedHeader s m r) k) ∧
      ∀ k, memsOf (landMessage s m r) k = memsOf (modRecvs t m.dstCore fun l => l.filter fun e => e.id ≠ r.id) k := by
  refine ⟨match r.bar with
    | some i => creditBytes (satisfyFe (landedHeader s m r) m.dstCore) m.dstCore i (landCount m r + 16)
    | none => satisfyFe (landedHeader s m r) m.dstCore, fun k => ?_, fun k => ?_⟩
  · split
    · rw [memsOf_creditBytes, memsOf_satisfyFe]
    · exact memsOf_satisfyFe ..
  · unfold landMessage
    simp only
    rw [memsOf_sendCompletion]
    split
    · exact memsOf_openGateM ..
    · rfl

theorem getCore_modRecvs (s : State) (c : Nat) (f : List Recv → List Recv) (k : Nat) :
    (getCore (modRecvs s c f) k).pool = (getCore s k).pool ∧ (getCore (modRecvs s c f) c).recvs = f (getCore s c).recvs := by
  refine ⟨?_, by rw [modRecvs, getCore_modCore]⟩
  by_cases hk : k = c
  · rw [hk, modRecvs, getCore_modCore]
  · rw [modRecvs, getCore_modCore_other s _ hk]

theorem poolPut_wf_at {c off : Nat} {bs : List Byte} (h : Memory.wf (getCore s c).pool = true) :
    Memory.wf (getCore (poolPut s c off bs) c).pool = true := by
  rw [getCore_poolPut, if_pos rfl]
  exact putBytes_wf bs _ off h

/-- Every byte of every pool once the data of a message has landed. -/
theorem tgetD_landedData (h : Memory.wf (getCore s m.dstCore).pool = true) (k x : Nat) :
    tgetD (0 : Byte) x (getCore (landedData s m r) k).pool =
      if k = m.dstCore ∧ r.addr.toNat % 2 ^ 19 + 16 ≤ x ∧ x < r.addr.toNat % 2 ^ 19 + 16 + landCount m r
      then m.data.getD (x - (r.addr.toNat % 2 ^ 19 + 16)) 0 else tgetD 0 x (getCore s k).pool := by
  unfold landedData
  have fits : landCount m r ≤ m.data.length := Nat.min_le_left ..
  split
  next h0 => rw [if_neg (by omega)]
  next h0 =>
    rw [pool_of_memsOf (memsOf_setFull ..), tgetD_poolPut _ _ _ h, List.length_take, Nat.min_eq_left fits]
    refine ite_congr rfl (fun hx => ?_) fun _ => rfl
    have inside : x - (r.addr.toNat % 2 ^ 19 + 16) < landCount m r := by omega
    simp only [List.getD_eq_getElem?_getD, List.getElem?_take_of_lt inside]

theorem landedData_wf (h : Memory.wf (getCore s m.dstCore).pool = true) :
    Memory.wf (getCore (landedData s m r) m.dstCore).pool = true := by
  unfold landedData
  split
  · exact h
  · rw [pool_of_memsOf (memsOf_setFull ..)]
    exact poolPut_wf_at h

/-- Every byte of every pool once a message fills its receive: the header granule, the data behind it, and what was there. -/
theorem tgetD_landMessage (h : Memory.wf (getCore s m.dstCore).pool = true) (k x : Nat) :
    tgetD (0 : Byte) x (getCore (landMessage s m r) k).pool =
      if k = m.dstCore ∧ r.addr.toNat % 2 ^ 19 ≤ x ∧ x < r.addr.toNat % 2 ^ 19 + 16
      then (headerGranule m.hdr (landCount m r < m.data.length)).getD (x - r.addr.toNat % 2 ^ 19) 0
      else if k = m.dstCore ∧ r.addr.toNat % 2 ^ 19 + 16 ≤ x ∧ x < r.addr.toNat % 2 ^ 19 + 16 + landCount m r
      then m.data.getD (x - (r.addr.toNat % 2 ^ 19 + 16)) 0 else tgetD 0 x (getCore s k).pool := by
  obtain ⟨t, ht, hu⟩ := landMessage_mems s m r
  rw [pool_of_memsOf (hu k), (getCore_modRecvs t _ _ k).1, pool_of_memsOf (ht k), landedHeader,
    pool_of_memsOf (memsOf_setFull ..), tgetD_poolPut _ _ _ (landedData_wf h), tgetD_landedData h]
  rfl

theorem landMessage_recvs (s : State) (m : MsgFlight) (r : Recv) (q : Recv)
    (hq : q ∈ (getCore (landMessage s m r) m.dstCore).recvs) : q.id ≠ r.id := by
  obtain ⟨t, -, hu⟩ := landMessage_mems s m r
  rw [recvs_of_memsOf (hu _), (getCore_modRecvs t _ _ 0).2] at hq
  exact of_decide_eq_true (List.mem_filter.mp hq).2

/-- Four bytes of the header granule as the receiver's pool shows them. -/
theorem poolBytes_landMessage (h : Memory.wf (getCore s m.dstCore).pool = true) {o : Nat} (ho : o + 4 ≤ 16) :
    poolBytes (landMessage s m r) m.dstCore (r.addr.toNat % 2 ^ 19 + o) 4 = (List.range 4).map fun i =>
      (headerGranule m.hdr (landCount m r < m.data.length)).getD (o + i) 0 := by
  refine List.map_congr_left fun i hi => ?_
  have hi4 : i < 4 := List.mem_range.mp hi
  rw [tgetD_landMessage h, if_pos ⟨rfl, by omega, by omega⟩]
  exact congrArg (List.getD _ · 0) (by omega)

theorem execMsgDataLand_lands (hm : getMsg s m.id = some m) (h2 : m.stage = 2) (hh : msgHeld s m = false)
    (ht : coreTested s 1 m.dstCore = false) (hr : (getCore s m.dstCore).recvs.find? (fun y => y.id = m.recv) = some r) :
    execMsgDataLand m.id s = .next (landMessage (dropMsg s m.id) m r) := by
  simp only [execMsgDataLand, hm, h2, hh, ht, decide_true, Bool.not_false, Bool.and_self, if_true, hr]

end landing

/-- Settles O54: each stage by the equation of its step; the landing by the bytes of every pool. -/
theorem messageEvents : Obligations.MessageEvents := by
  unfold Obligations.MessageEvents
  intro s m hm own
  refine ⟨?header, ?record, ?pull, ?land, ?completion, ?wake⟩
  case header =>
    intro h0 ht hh hf t cut
    have run := execMsgHeaderArrive_due hm h0 ht hh hf
    have lost : headerLost (headerSent s m) m = true ↔ cut := headerLost_iff _ m
    refine ⟨fun hc => run.trans (congrArg _ (if_pos (lost.mpr hc))),
      fun hc hd => run.trans (congrArg _ ((if_neg (lost.not.mpr hc)).trans (if_neg hd))), ?_⟩
    intro hc hd h c u takes gives
    have here : execMsgHeaderArrive m.id s = .next (headerArrives t m) :=
      run.trans (congrArg _ ((if_neg (lost.not.mpr hc)).trans (if_pos hd)))
    have same := takes_eq h
    refine ⟨fun he => here.trans (congrArg _ (headerArrives_refused he)),
      fun he => ⟨fun r hr => ?_, fun hr hlt => ?_, fun hr hge => ?_⟩⟩
    · exact here.trans (congrArg _ (headerArrives_matched he (same ▸ hr)))
    · exact here.trans (congrArg _ ((headerArrives_unmatched he (same ▸ hr)).trans (if_pos hlt)))
    · exact here.trans (congrArg _ ((headerArrives_unmatched he (same ▸ hr)).trans (if_neg (Nat.not_lt.mpr hge))))
  case record =>
    intro b hb
    rw [overflowRecord, hb]
    rfl
  case pull => exact fun e h1 hown he hb hh ht => execMsgPull_own hm h1 hown he hb hh ht
  case land =>
    intro r h2 hh ht hr hlen hwf off k
    have wf : Memory.wf (getCore (dropMsg s m.id) m.dstCore).pool = true := hwf
    refine ⟨_, execMsgDataLand_lands hm h2 hh ht hr, landMessage_recvs _ m r, fun j hj => ?_, ?_, ?_, fun c x hx => ?_⟩
    · have hj' : j < landCount m r := hj
      rw [tgetD_landMessage wf, if_neg (by omega), if_pos (by omega)]
      exact congrArg (List.getD _ · 0) (by omega)
    · exact poolBytes_landMessage (o := 0) wf (by omega)
    · exact poolBytes_landMessage (o := 8) wf (by omega)
    · have hk : k = landCount m r := rfl
      rw [tgetD_landMessage wf, if_neg (by omega), if_neg (by omega)]
      rfl
  case completion => exact fun h3 hh e he => execMsgCompletion_sent hm h3 hh he
  case wake => exact fun q k hq hs hp e he => execMwakeAck_done hq hs hp he

end Sys2Proof.Machine
end

section
namespace Sys2Proof.Machine

/-! # The steps of the copy engine (12 R299, R309 to R311, R315, 10 R254, R257) -/

section transfers
variable {s : State} {core j : Nat} {b : Block} {c : CopyCmd} {t : Transfer}

theorem execCopyDataLand_step {u : State} (hb : getBlk s core = some b) (hc : getCmd s core c.id = some c)
    (ht : c.transfers[j]? = some t) (hs : transferStep s core b c j t = some u) :
    execCopyDataLand core c.id j s = .next u := by
  simp only [execCopyDataLand, hb, hc, ht, hs]

theorem transferStep_starts (h : c.started = false) (hm : mayStart s core b c = true) :
    transferStep s core b c j t = some (startCmd s core b c) := by
  simp only [transferStep, h, hm, Bool.not_false, if_true]

theorem transferStep_reads (h : c.started = true) (he : t.ended = false) (hg : t.got = none)
    (hr : (s.flight.reads.any fun r => r.core = core && r.cmd = c.id && r.tr = j) = false) :
    transferStep s core b c j t =
      if readsGlobal c.op then readGlobal s core b c j t else readPoolPiece s core b c j t := by
  simp only [transferStep, h, he, hg, hr, Bool.not_true, Bool.false_eq_true, if_false]

/-- What a TCOPY or a TGATHER has read lands in pool. -/
theorem transferStep_lands {bs : List Byte} (h : c.started = true) (he : t.ended = false) (hg : t.got = some bs)
    (hop : c.op = 0xB0 ∨ c.op = 0xB5) : transferStep s core b c j t = landPool s core c j t bs := by
  have fills : fillsSlot c.op = false := by rcases hop with e | e <;> simp [fillsSlot, e]
  have stores : writesGlobal c.op = false := by rcases hop with e | e <;> simp [writesGlobal, e]
  have raw : compresses c = false := by rcases hop with e | e <;> simp [compresses, e]
  simp only [transferStep, landPiece, h, he, hg, fills, stores, raw, Bool.not_true, Bool.false_and, Bool.or_false,
    Bool.false_eq_true, if_false]

/-! ## Where a piece lands -/

@[simp] theorem memsOf_sendCredit (s : State) (src core i n : Nat) (fault : Option Byte) (k : Nat) :
    memsOf (sendCredit s src core i n fault) k = memsOf s k := by
  cases fault with
  | none =>
    simp only [sendCredit]
    (repeat' split)
    · rfl
    · exact memsOf_creditBytes ..
    · rfl
  | some e =>
    simp only [sendCredit]
    split
    · exact memsOf_agentFault ..
    · rfl

@[simp] theorem memsOf_creditCmd (s : State) (core : Nat) (c : CopyCmd) (n k : Nat) :
    memsOf (creditCmd s core c n) k = memsOf s k := by
  unfold creditCmd
  split
  · exact memsOf_sendCredit ..
  · rfl

@[simp] theorem memsOf_fillGranules (s : State) (p : Nat × Nat) (col n : Nat) (which : Nat → Bool) (k : Nat) :
    memsOf (fillGranules s p col n which) k = memsOf s k := by
  simp only [fillGranules, memsOf_satisfyFe]
  exact memsOf_modCore (by exact fun _ => ⟨rfl, rfl, rfl, rfl⟩) k

theorem pool_modBlk (s : State) (core : Nat) (f : Block → Block) (k : Nat) :
    (getCore (modBlk s core f) k).pool = (getCore s k).pool := by
  by_cases hk : k = core
  · rw [hk, modBlk, getCore_modCore]
  · rw [modBlk, getCore_modCore_other s _ hk]

theorem landings_one (hop : c.op = 0xB0 ∨ c.op = 0xB5) (hf : firstRow c j = 0) :
    landings c j t = [poolBase c + t.row * c.pstride + t.col] := by
  have one : c.op ≠ 0xB1 := by rcases hop with e | e <;> simp [e]
  simp only [landings, if_neg one, hf, Nat.sub_zero, Nat.add_assoc]

/-- The bytes of a piece land at the row's stride, and nowhere else. -/
theorem landPool_pools {bs : List Byte} (hop : c.op = 0xB0 ∨ c.op = 0xB5) (hf : firstRow c j = 0) (hd : t.dest = 0) {p : Nat × Nat}
    (hp : poolPlace s core (poolBase c + t.row * c.pstride + t.col) = p) (hw : Memory.wf (getCore s p.1).pool = true)
    (ht : poolTurn s core p.1 c = true) (hc : engineCut s core p.1 = false) : ∃ u, landPool s core c j t bs = some u ∧
      ∀ k x, tgetD (0 : Byte) x (getCore u k).pool =
        if k = p.1 ∧ p.2 ≤ x ∧ x < p.2 + bs.length then bs.getD (x - p.2) 0 else tgetD 0 x (getCore s k).pool := by
  simp only [landPool, landings_one hop hf, hd, List.getD_cons_zero, hp, ht, hc, Bool.not_true, Bool.or_self, Bool.false_eq_true,
    if_false]
  refine ⟨_, rfl, fun k x => ?_⟩
  rw [modTr, modCmd, modCopy, pool_modBlk, ← tgetD_poolPut p.1 p.2 bs hw]
  refine congrArg (tgetD 0 x) (pool_of_memsOf ?_)
  rw [memsOf_creditCmd, memsOf_fillGranules, copyPortWatch, memsOf_watchCheck]

/-! ## Faults and completions -/

@[simp] theorem memsOf_takeWalk (s : State) (core ctx va k : Nat) : memsOf (takeWalk s core ctx va) k = memsOf s k := rfl

@[simp] theorem memsOf_settleGranules (s : State) (core : Nat) (c : CopyCmd) (j : Nat) (t : Transfer) (k : Nat) :
    memsOf (settleGranules s core c j t) k = memsOf s k := by
  have row (u : State) (x : Transfer) (col n : Nat) (which : Nat → Bool) : memsOf (foldSt (fun v a =>
      fillGranules v (poolPlace v core a) col n which) u (landings c j x)) k = memsOf u k :=
    foldSt_frame (memsOf · k) (fun _ _ => memsOf_fillGranules ..) _ _
  unfold settleGranules
  split
  · rfl
  · simp only
    split
    · rw [row, row]
    · exact row ..

/-- The fault of a transfer is the most recent one of its engine (12 R318). -/
theorem noteFault_lastf {id addr row : Nat} {code : Byte} (h : (getBlk s core).isSome = true) :
    (getBlk (noteFault s core id j code addr row) core).map (fun x => x.copy.lastf) = some code := by
  obtain ⟨b, hb⟩ := Option.isSome_iff_exists.mp h
  simp only [noteFault, modTr, modCmd, modCopy, getBlk_modBlk, hb, Option.map_some]

theorem execCopyTransferFault_fault {k : Byte} {va : Nat} (hb : getBlk s core = some b) (hc : getCmd s core c.id = some c)
    (ht : c.transfers[j]? = some t) (hr : refusedWrite s core c.id j = none)
    (hf : transferFault s core b c j t = some (k, va)) : ∃ u, execCopyTransferFault core c.id j s = .next u ∧
      (getBlk u core).map (fun x => x.copy.lastf) = some k := by
  simp only [execCopyTransferFault, hb, hc, ht, hr, hf]
  refine ⟨_, rfl, noteFault_lastf ?_⟩
  exact getBlk_isSome_of_memsOf (s := s) (by rw [memsOf_settleGranules]; rfl) hb

theorem copy_modCopy (s : State) (core : Nat) (f : CopyEngine → CopyEngine) :
    (getBlk (modCopy s core f) core).map Block.copy = ((getBlk s core).map Block.copy).map f := by
  rw [modCopy, getBlk_modBlk, Option.map_map, Option.map_map]
  rfl

theorem execCopyCommandComplete_ended (hb : getBlk s core = some b) (hc : getCmd s core c.id = some c)
    (he : cmdEnded s core b c = true) : ∃ u, execCopyCommandComplete core c.id s = .next u ∧
      ∀ b', getBlk u core = some b' → ∀ x ∈ b'.copy.cmds, x.id ≠ c.id := by
  simp only [execCopyCommandComplete, hb, hc, event_due he]
  refine ⟨_, rfl, fun b' hb' x hx => ?_⟩
  generalize ht : modCopy _ core _ = t at hb'
  have copy : some b'.copy = (getBlk t core).map Block.copy := by
    rw [← Option.map_some, ← hb']
    split
    · exact copy_of_memsOf (memsOf_sendCredit ..)
    · rfl
  rw [← ht, copy_modCopy] at copy
  obtain ⟨e, -, he⟩ := Option.map_eq_some_iff.mp copy.symm
  rw [← he] at hx
  exact of_decide_eq_true (List.mem_filter.mp hx).2

theorem execCopyCommandComplete_running (hb : getBlk s core = some b) (hc : getCmd s core c.id = some c)
    (he : cmdEnded s core b c = false) : execCopyCommandComplete core c.id s = .next s := by
  simp only [execCopyCommandComplete, hb, hc]
  exact event_not_due he

end transfers

/-! ## Streams (12 R315) -/

section streams
variable {s : State} {core : Nat} {b : Block} {k : BitVec 3} {st : Stream}
variable (hb : getBlk s core = some b) (hs : tfind k.toNat b.copy.streams = some st) (hn : st.next < st.read + st.depth)
include hb hs hn

theorem execStreamPrefetch_walks (hl : streamLeaf s core b.ctx st ((streamLines st).getD st.next 0) = none) :
    execStreamPrefetch core k s = .next (startWalk s core b.ctx ((streamLines st).getD st.next 0) true) := by
  simp only [execStreamPrefetch, hb, hs, hl]
  exact event_due (by simp [hn])

theorem execStreamPrefetch_ends {e : Byte} (hl : streamLeaf s core b.ctx st ((streamLines st).getD st.next 0) = some (.code e)) :
    execStreamPrefetch core k s =
      .next (endStream (takeWalk s core b.ctx ((streamLines st).getD st.next 0)) core k.toNat) := by
  simp only [execStreamPrefetch, hb, hs, hl]
  exact event_due (by simp [hn])

/-- A stream with a translation: it is translated again when its generation is old, ends when the line cannot be read, or
fetches it. -/
theorem execStreamPrefetch_leaf {l : Leaf} {va : Nat} (hva : (streamLines st).getD st.next 0 = va)
    (hl : streamLeaf s core b.ctx st va = some (.leaf l))
    (ht : homeTested s l.place (physAddr l va) = false) (hr : routeHeld s (coreDie core) l.place (physAddr l va) = false)
    (hq : (s.flight.global.any (reqBefore s core (nextId s) l.place (physAddr l va)) ||
      s.flight.reads.any (readBefore s core (nextId s) l.place (physAddr l va))) = false) {t : State}
    (kept : t = modStream (takeWalk s core b.ctx va) core k.toNat fun x => { x with kept := some (pageBase l va, l) }) :
    execStreamPrefetch core k s = .next (if staleLeaf t b.ctx va l
      then dropEntry (modStream t core k.toNat fun x => { x with kept := none }) core b.ctx va
      else if (sendFault t (coreDie core) l (physAddr l va) 128 false).isSome then endStream t core k.toNat
      else fetchLine t core k.toNat st l va) := by
  obtain ⟨hg, hd⟩ := Bool.or_eq_false_iff.mp hq
  subst kept
  simp only [execStreamPrefetch, hb, hs, hva, hl, ht, hr, hg, hd]
  exact event_due (by simp [hn])

end streams

/-! ## Multicast ids (12 R309) -/

section mcids
variable {s : State}

theorem execMcidReplicaUpdate_due {m : McidMsg} (hm : (s.flight.mcids.find? fun x => x.id = m.id) = some m)
    (ho : (s.flight.mcids.any fun e => e.id < m.id && e.core = m.core && e.mcid = m.mcid) = false)
    (hc : crossBefore s m.src m.core m.id = false) (hh : seamHeld s (coreDie m.src) (coreDie m.core) = false) :
    execMcidReplicaUpdate m.id s = .next (modCopy (modFlight s fun f => { f with mcids := f.mcids.filter fun e => e.id ≠ m.id })
      m.core fun e => { e with mcids := if m.claim then tput m.mcid.toNat true e.mcids else tdel m.mcid.toNat e.mcids }) := by
  simp only [execMcidReplicaUpdate, hm]
  exact event_due (by simp [ho, hc, hh])

/-- A release of an id under way to every member of the cluster. -/
def sendRelease (x : Cluster) (mcid : BitVec 4) (s : State) (c : Nat) : State :=
  bumpId (modFlight s fun f => { f with mcids := f.mcids ++
    [{ id := nextId s, src := memberCore x 0, core := c, mcid := mcid, claim := false }] })

theorem sendRelease_count (x : Cluster) (mcid : BitVec 4) (l : List Nat) (s : State) :
    (foldSt (sendRelease x mcid) s l).flight.mcids.length = s.flight.mcids.length + l.length := by
  induction l generalizing s with
  | nil => rfl
  | cons c r ih =>
    have one : (sendRelease x mcid s c).flight.mcids.length = s.flight.mcids.length + 1 := List.length_append
    rw [foldSt, ih, one, List.length_cons]
    omega

theorem execMcidRelease_due {cl : Nat} {x : Cluster} {mcid : BitVec 4} (hx : getCl s cl = some x)
    (hd : x.draining.contains mcid = true)
    (hp : ∀ c ∈ clusterCores x, ∀ b, getBlk s c = some b →
      (decide (b.cluster = cl) && b.copy.cmds.any fun k => k.op = 0xB1 && k.mcid = mcid) = false) :
    execMcidRelease cl mcid s = .next (foldSt (sendRelease x mcid)
      (modCl s cl fun x => { x with draining := x.draining.filter (· ≠ mcid) }) (clusterCores x)) := by
  simp only [execMcidRelease, hx]
  refine event_due ?_
  rw [hd, Bool.true_and, Bool.not_eq_true', List.any_eq_false]
  intro c hc
  cases hb : getBlk s c with
  | none => exact Bool.false_ne_true
  | some b => exact ne_true_of_eq_false (hp c hc b hb)

theorem execMcidRelease_draining {cl : Nat} {x : Cluster} {mcid : BitVec 4} (hx : getCl s cl = some x) :
    ∃ x', getCl (foldSt (sendRelease x mcid) (modCl s cl fun x => { x with draining := x.draining.filter (· ≠ mcid) })
      (clusterCores x)) cl = some x' ∧ mcid ∉ x'.draining := by
  refine ⟨{ x with draining := x.draining.filter (· ≠ mcid) }, ?_, fun h => ?_⟩
  · refine (foldSt_frame (f := sendRelease x mcid) (getCl · cl) (fun _ _ => rfl) _ _).trans ?_
    rw [getCl_modCl, hx]
    rfl
  · exact of_decide_eq_true (List.mem_filter.mp h).2 rfl

end mcids

/-! ## Reads (10 R254, R257, R262) -/

section reads
variable {s : State} {r : ReadReq} {c : CopyCmd}
variable (hr : getRead s r.id = some r) (hc : getCmd s r.core r.cmd = some c) (hg : readGoes s r = true)
include hr hg

include hc in
theorem execVisitorFill_due (hf : r.fill = true) : execVisitorFill r.id s = .next (deliverRead
    (fillVisitor s r.core c r.die r.leaf (physAddr r.leaf r.va)) r (if mxGlobal c
      then physBytes s r.leaf.place (physAddr r.leaf r.va) r.n
      else readLine s r.die r.leaf.place (physAddr r.leaf r.va) r.n)) := by
  simp only [execVisitorFill, hr, hc]
  exact event_due (by simp [hf, hg])

include hc in
theorem execForwardedRead_plain (hf : r.fill = false) (hd : r.drains = 0) (ha : r.acq = false)
    (hp : placeTier r.leaf.place ≠ 3) : execForwardedRead r.id s = .next (deliverRead
      (if placeRemote r.leaf.place then s else touchHome s r.core c r.leaf (physAddr r.leaf r.va)) r
      (physBytes s r.leaf.place (physAddr r.leaf r.va) r.n)) := by
  simp only [execForwardedRead, hr, hc, ha, Bool.false_and, Bool.false_eq_true, if_false, if_neg hp]
  exact event_due (by simp [hf, hd, hg])

theorem execForwardedRead_orders (hf : r.fill = false) (hd : r.drains = 0) (ha : r.acq = true) (ho : r.ordered = false)
    (hp : placeRemote r.leaf.place = false) : execForwardedRead r.id s = .next (orderReadDrains s r) := by
  simp only [execForwardedRead, hr, ha, ho, hp, Bool.not_false, Bool.and_self, if_true]
  exact event_due (by simp [hf, hd, hg])

end reads

/-- Settles O39: each event by the equation of its step; what lands by the bytes of every pool. -/
theorem copyEngineSteps : Obligations.CopyEngineSteps := by
  unfold Obligations.CopyEngineSteps
  refine ⟨fun s core b c hb hc => ⟨fun j t ht => ⟨?start, ?transfer, ?fault⟩, ?ended, ?running, ?stream⟩,
    fun s => ⟨?replica, ?release, ?read⟩⟩
  case start => exact fun h hm => execCopyDataLand_step hb hc ht (transferStep_starts h hm)
  case transfer =>
    refine fun h he => ⟨?lands, fun hg hr u hu => execCopyDataLand_step hb hc ht ((transferStep_reads h he hg hr).trans hu)⟩
    intro bs hg hop hw hf hd p hturn hcut
    obtain ⟨u, hu, hx⟩ := landPool_pools (bs := bs) hop hf hd rfl hw hturn hcut
    exact ⟨u, execCopyDataLand_step hb hc ht ((transferStep_lands h he hg hop).trans hu), hx⟩
  case fault => exact fun k va hr hf => execCopyTransferFault_fault hb hc ht hr hf
  case ended => exact execCopyCommandComplete_ended hb hc
  case running => exact execCopyCommandComplete_running hb hc
  case stream =>
    intro k st hs hn va
    refine ⟨execStreamPrefetch_walks hb hs hn, fun e => execStreamPrefetch_ends hb hs hn, ?_⟩
    intro l hl a t ht hr hq
    have run := execStreamPrefetch_leaf hb hs hn rfl hl ht hr hq (t := t) rfl
    exact ⟨fun h => run.trans (congrArg _ (if_pos h)),
      fun h => run.trans (congrArg _ (if_neg (ne_true_of_eq_false h)))⟩
  case replica =>
    intro m hm ho hc hh
    refine ⟨_, execMcidReplicaUpdate_due hm ho hc hh, fun b hb => ?_⟩
    rw [modCopy, getBlk_modBlk, getBlk_congr (modFlight_cores ..), hb, Option.map_some]
    refine ⟨_, rfl, fun h => ?_, fun h => ?_⟩
    · simp only [mcidDraining, h, if_true, tgetD, tfind_tput_same, Option.getD_some]
    · simp only [h, Bool.false_eq_true, if_false]
  case release =>
    intro cl x mcid hx hd hp
    obtain ⟨x', hx', hgone⟩ := execMcidRelease_draining (mcid := mcid) hx
    refine ⟨_, x', execMcidRelease_due hx hd fun c hc b hb => ?_, hx', hgone, ?_⟩
    · have quiet := List.all_eq_true.mp hp c hc
      rw [hb] at quiet
      exact (Bool.not_eq_true' _).mp quiet
    · rw [sendRelease_count]
      exact congrArg (_ + ·) (by rw [clusterCores, List.length_map, List.length_range])
  case read =>
    intro r c hr hc hg a
    exact ⟨execVisitorFill_due hr hc hg, execForwardedRead_plain hr hc hg, execForwardedRead_orders hr hg⟩

end Sys2Proof.Machine
end

section
namespace Sys2Proof.Machine

/-! # The copy commands, TWAIT and TQUERY (12 R297, R302, R303, R306, R309, R315 to R318) -/

section issue
variable {s : State} {c : FC} {op p a b : Nat}

/-- The command that a descriptor gives. -/
def descOf (s : State) (c : FC) (op a b : Nat) : CopyCmd :=
  readDesc (nextId s) op c.blk.fe.pc (sreg c a) (sreg c (a + 1)) (sreg c (a + 2)) (sreg c (a + 3)) (sreg c b) s.clk.cycle

/-- A descriptor meets the checks of 12 R302 up to that of its barrier. -/
structure Sound (s : State) (c : FC) (k : CopyCmd) (raw : Nat) : Prop where
  legal : copyIllegal k = false
  aligned : copyMisaligned k raw = none
  pool : poolRangeBad s c.core k = none

theorem copyChecks_pass {k : CopyCmd} {raw : Nat} (h : Sound s c k raw) (hd : k.op = 0xB7 → bitsOf k.dst.toNat 7 0 ≠ 0)
    (hb : k.op ≠ 0xB7 → copyBarOk s c.core c.blk k.bar = true) (e : Eff) : copyChecks s c.core c.blk k raw e = e := by
  have depth : (decide (k.op = 0xB7) && decide (bitsOf k.dst.toNat 7 0 = 0)) = false := by
    rw [← Bool.decide_and, decide_eq_false_iff_not]
    exact fun e => hd e.1 e.2
  have bar : (decide (k.op ≠ 0xB7) && !copyBarOk s c.core c.blk k.bar) = false := by
    by_cases e : k.op = 0xB7
    · simp [e]
    · simp [hb e]
  simp only [copyChecks, h.legal, h.aligned, h.pool, depth, bar, Bool.or_self, Bool.false_eq_true, if_false]

/-- A stopped stream, or a descriptor that passes the checks, is accepted or refused. -/
theorem copyIssue_accepts (hi : FrontEndIssues s c [a, a + 1, a + 2, a + 3, b]) (hl : c.blk.fe.pre.lit = none) (ha : a ≤ 60)
    (hk : (decide (op = 0xB7) && (sreg c (a + 1)).getLsbD 15) = true ∨ ∀ e, copyChecks s c.core c.blk (descOf s c op a b)
      (bitsOf (sreg c (a + 3)).toNat 39 20) e = e) :
    copyIssue s op p a b = .next (if 32 ≤ c.blk.copy.cmds.length ∨
        (op = 0xB1 ∧ tgetD false ((sreg c (a + 3)).extractLsb' 54 4).toNat c.blk.copy.mcids = true)
      then retireFe (writeFpred s c.core p false) c
      else retireFe (writeFpred (if op = 0xB7 then declareStream s c.core (descOf s c op a b)
        else acceptCmd s c.core c.blk (descOf s c op a b)) c.core p true) c) := by
  have pick (e : Eff) : (if (decide (op = 0xB7) && (sreg c (a + 1)).getLsbD 15) = true then e
      else copyChecks s c.core c.blk (descOf s c op a b) (bitsOf (sreg c (a + 3)).toNat 39 20) e) = e := by
    rcases hk with stop | pass
    · exact if_pos stop
    · rw [pass, ite_self]
  have refused : (!decide (c.blk.copy.cmds.length < 32) || (decide (op = 0xB1) &&
        mcidDraining c.blk ((sreg c (a + 3)).extractLsb' 54 4))) = true ↔ 32 ≤ c.blk.copy.cmds.length ∨
        (op = 0xB1 ∧ tgetD false ((sreg c (a + 3)).extractLsb' 54 4).toNat c.blk.copy.mcids = true) := by
    simp [mcidDraining]
  rw [copyIssue, feInstr_run hi.issuing (.inr hl)]
  simp only [hi.ready, Bool.false_eq_true, if_false, decide_eq_false (Nat.not_lt.mpr ha), chk_false, chk_nil]
  refine congrArg Host.Outcome.next ((congrArg (endFe s c) (pick _)).trans ?_)
  refine Eq.trans (b := endFe s c (if _ then _ else _)) rfl ?_
  by_cases h : 32 ≤ c.blk.copy.cmds.length ∨
        (op = 0xB1 ∧ tgetD false ((sreg c (a + 3)).extractLsb' 54 4).toNat c.blk.copy.mcids = true)
  · rw [if_pos h]
    exact congrArg (endFe s c) (if_pos (refused.mpr h))
  · rw [if_neg h]
    exact congrArg (endFe s c) (if_neg (refused.not.mpr h))
end issue

/-! ## TWAIT and TQUERY -/

section queries
variable {s : State} {c : FC} {g : BitVec 3} {d : BitVec 6} {n : BitVec 9} (hl : c.blk.fe.pre.lit = none)
include hl

/-- The immediate of an instruction without a LIT. -/
theorem feImm9_toNat (n : BitVec 9) : (imm9 (feLit c) n).toNat = n.toNat := by
  rw [feLit, hl, imm9, BitVec.toNat_setWidth, Nat.mod_eq_of_lt (by omega)]

theorem execTwait_done (hc : feCtx s = some c) (hg : fpred c g.toNat = true) (hn : c.blk.copy.cmds.length ≤ n.toNat) :
    execTwait g n s = .next (retireFe s c) := by
  simp only [execTwait, feInstr_run hc (.inl rfl), hg, feImm9_toNat hl, hn, Bool.not_true, Bool.false_eq_true, if_false, if_true,
    endFe_retire]

/-- What TQUERY reads. -/
def queryWord (e : CopyEngine) (sel : Nat) : DWord :=
  if sel = 1 then maskOf 64 ((List.range 16).filter (fun i => tgetD false i e.mcids) ++ e.streams.map fun x => 16 + x.1)
  else copyStatus e

theorem execTquery_reads (hi : FrontEndIssues s c [d.toNat]) (hg : fpred c g.toNat = true) (hn : n.toNat ≤ 2) :
    execTquery g d n s = .next (retireFe (writeS (if n.toNat = 2 then modCopy s c.core fun e => { e with i4rsv := 0 } else s)
      c.core d.toNat (queryWord c.blk.copy n.toNat)) c) := by
  simp only [execTquery, feInstr_run hi.issuing (.inl rfl), hi.ready, feImm9_toNat hl, hg, decide_eq_false (Nat.not_lt.mpr hn),
    chk_false, chk_nil, Bool.not_true, Bool.false_eq_true, if_false, endFe_retire]
  rfl

theorem execTquery_illegal (hi : FrontEndIssues s c [d.toNat]) (hn : 2 < n.toNat) :
    execTquery g d n s = .next (feFault s c.core { code := 0x01 }) := by
  simp only [execTquery, feInstr_run hi.issuing (.inl rfl), hi.ready, feImm9_toNat hl, decide_eq_true hn, chk_true, Bool.false_eq_true,
    if_false, endFe_fault]
  rfl

end queries

theorem tfind_isSome_iff {α : Type} (k : Nat) (t : Table α) : (tfind k t).isSome = true ↔ k ∈ t.map Prod.fst := by
  induction t with
  | nil => simp [tfind]
  | cons e r ih =>
    by_cases h : k = e.1
    · simp [tfind, h]
    · simp [tfind, h, ih]

/-- The bits of the mask of ids and streams. -/
theorem queryWord_ids (e : CopyEngine) {i : Nat} (hi : i < 16) : (queryWord e 1).getLsbD i = tgetD false i e.mcids := by
  rw [queryWord, if_pos rfl, getLsbD_maskOf]
  have apart : ¬∃ x ∈ e.streams, 16 + x.1 = i := fun ⟨x, _, hx⟩ => by omega
  simp [apart, hi, show i < 64 by omega]

theorem queryWord_streams (e : CopyEngine) {i : Nat} (hi : i < 8) :
    (queryWord e 1).getLsbD (16 + i) = (tfind i e.streams).isSome := by
  rw [queryWord, if_pos rfl, getLsbD_maskOf, Bool.eq_iff_iff, tfind_isSome_iff]
  simp [show 16 + i < 64 by omega]

/-- Settles O38: a data command is accepted or refused in one lemma; TQUERY's mask bit by bit. -/
theorem copyInstructionsComplete : Obligations.CopyInstructionsComplete := by
  unfold Obligations.CopyInstructionsComplete
  intro s c p g a b d n hl
  refine ⟨?data, execTwait_done hl, ?query⟩
  case data =>
    intro hi ha w3 cmd sound full refused
    refine ⟨?copy, fun h => ?stream⟩
    case copy =>
      have all (op : Nat) (hop : op ≠ 0xB7) (hs : sound op) (hb : copyBarOk s c.core c.blk ((sreg c b.toNat).truncate 16) = true) :
          copyIssue s op p.toNat a.toNat b.toNat = .next (if full ∨ (op = 0xB1 ∧ tgetD false (w3.extractLsb' 54 4).toNat
            c.blk.copy.mcids = true) then refused
            else retireFe (writeFpred (acceptCmd s c.core c.blk (cmd op)) c.core p.toNat true) c) := by
        have pass := copyChecks_pass (s := s) (c := c) (k := cmd op) (raw := bitsOf w3.toNat 39 20) ⟨hs.1, hs.2.1, hs.2.2⟩
          (fun e => absurd e hop) (fun _ => hb)
        refine (copyIssue_accepts hi hl ha (.inr pass)).trans ?_
        rw [if_neg hop]
        rfl
      simp only [List.forall_mem_cons, List.not_mem_nil, false_implies, implies_true, and_true]
      exact ⟨all 0xB0 (by decide), all 0xB2 (by decide), all 0xB3 (by decide), all 0xB4 (by decide), all 0xB5 (by decide),
        all 0xB6 (by decide), fun hs hb => (all 0xB1 (by decide) hs hb).trans (by simp only [true_and])⟩
    case stream =>
      have run := copyIssue_accepts (op := 0xB7) (p := p.toNat) hi hl ha ?checked
      case checked =>
        rcases h with stop | ⟨hs, hd⟩
        · exact .inl stop
        · exact .inr (copyChecks_pass ⟨hs.1, hs.2.1, hs.2.2⟩ (fun _ => hd) (fun e => absurd rfl e))
      refine run.trans (congrArg _ (if_congr ?_ rfl rfl))
      exact ⟨fun h => h.resolve_right fun e => absurd e.1 (by decide), .inl⟩
  case query =>
    intro hi hg e
    refine ⟨fun hn => ?_, fun hn => ⟨queryWord e 1, ?_, fun i => queryWord_ids e, fun i => queryWord_streams e⟩, fun hn => ?_,
      execTquery_illegal hl hi⟩
    all_goals subst hn; exact execTquery_reads hl hi hg (by decide)

end Sys2Proof.Machine
end

section
namespace Sys2Proof.Machine

/-! # The steps of the matrix engine (13 R327 to R336) -/

/-! ## Writes of a total map one after another -/

section writes
variable {α : Type} [DecidableEq α] (d : α)

/-- Put values at places, one after another. -/
def putAll (l : List (Nat × α)) (t : Table α) : Table α := l.foldl (fun t w => tputD d w.1 w.2 t) t

theorem putAll_wf (l : List (Nat × α)) {t : Table α} (h : t.wf d = true) : (putAll d l t).wf d = true := by
  induction l generalizing t with
  | nil => exact h
  | cons w r ih => exact ih (tputD_wf d w.1 w.2 h)

theorem tgetD_putAll_other {k : Nat} (l : List (Nat × α)) (t : Table α) (h : ∀ w ∈ l, w.1 ≠ k) :
    tgetD d k (putAll d l t) = tgetD d k t := by
  induction l generalizing t with
  | nil => rfl
  | cons w r ih =>
    obtain ⟨hw, hr⟩ := List.forall_mem_cons.mp h
    exact (ih _ hr).trans (tgetD_tputD_other d _ (Ne.symm hw) t)

/-- A place whose writes all agree holds what they write. -/
theorem tgetD_putAll_same {k : Nat} {v : α} (l : List (Nat × α)) {t : Table α} (ht : t.wf d = true)
    (h : ∀ w ∈ l, w.1 = k → w.2 = v) (hk : (k, v) ∈ l ∨ tgetD d k t = v) : tgetD d k (putAll d l t) = v := by
  induction l generalizing t with
  | nil => exact hk.resolve_left List.not_mem_nil
  | cons w r ih =>
    obtain ⟨hw, hr⟩ := List.forall_mem_cons.mp h
    refine ih (t := tputD d w.1 w.2 t) (tputD_wf d w.1 w.2 ht) hr ?_
    by_cases e : w.1 = k
    · exact .inr (by rw [e, tgetD_tputD_same d k w.2 ht, hw e])
    · rw [tgetD_tputD_other d _ (Ne.symm e)]
      exact hk.imp_left fun m => (List.mem_cons.mp m).resolve_left fun q => e (congrArg Prod.fst q).symm

end writes

/-! ## Tile words -/

/-- Two output elements of one tile have the same word only if they are the same (13 R320, R321). -/
theorem outputKey_inj {m t r c r' c' : Nat} (hm : m < 7) (hr : r < modeRows m) (hc : c < modeCols m) (hr' : r' < modeRows m)
    (hc' : c' < modeCols m) (h : outputKey m t r c = outputKey m t r' c') : r = r' ∧ c = c' := by
  simp only [outputKey, tileKey] at h
  have cols : c % 64 = c' % 64 := by omega
  have rows : r % 64 = r' % 64 := by omega
  have subs : subOf m r c = subOf m r' c' := by omega
  rcases Nat.lt_or_ge m 4 with lo | hi
  · simp only [modeRows, modeCols, show m ≠ 5 by omega, show m ≠ 6 by omega, show m ≠ 4 by omega, if_false] at *
    omega
  · obtain rfl | rfl | rfl : m = 4 ∨ m = 5 ∨ m = 6 := by omega
    all_goals simp [subOf, modeRows, modeCols] at *; omega

/-- A row that a lane owns is a row of the mode. -/
theorem ownedRow_lt {m i j : Nat} (hi : i < 32) (hj : j < modeRows m / 32) : i * (modeRows m / 32) + j < modeRows m := by
  have rows : modeRows m = modeRows m / 32 * 32 := by
    unfold modeRows
    (repeat' split) <;> rfl
  have step : (i + 1) * (modeRows m / 32) ≤ 32 * (modeRows m / 32) := Nat.mul_le_mul_right _ hi
  rw [Nat.add_mul] at step
  omega

/-! ## General registers -/

section registers
variable {h : Header} {t : Table Word} {n m i : Nat}

/-- The place of a lane of a general register (04 R104). -/
def lanePlace (h : Header) (n i : Nat) : Nat := h.nu + 2 * h.na + 32 * (n - h.nu - h.na) + i

theorem regLane_general (hn : h.nu + h.na ≤ n) (t : Table Word) (i : Nat) : regLane h t n i = tgetD 0 (lanePlace h n i) t := by
  rw [regLane, if_neg (by omega), if_neg (by omega), lanePlace]

/-- A write of a general register as writes of its lanes' places. -/
theorem putReg_general (hn : h.nu + h.na ≤ n) (t : Table Word) (l : List Nat) (f : Nat → Word) :
    putReg h t n l f = putAll 0 (l.map fun i => (lanePlace h n i, f i)) t := by
  have fold (t : Table Word) : foldSt (fun t i => tputD 0 (lanePlace h n i) (f i) t) t l =
      putAll 0 (l.map fun i => (lanePlace h n i, f i)) t := by
    induction l generalizing t with
    | nil => rfl
    | cons i r ih => exact ih _
  unfold putReg
  split
  next e => rw [List.isEmpty_iff.mp e]; rfl
  next => rw [if_neg (by omega), if_neg (by omega)]; exact fold t

theorem putReg_wf (hn : h.nu + h.na ≤ n) (l : List Nat) (f : Nat → Word) (ht : Table.wf 0 t = true) :
    Table.wf 0 (putReg h t n l f) = true := by
  rw [putReg_general hn]
  exact putAll_wf 0 _ ht

theorem regLane_putReg_same (hn : h.nu + h.na ≤ n) {l : List Nat} (f : Nat → Word) (ht : Table.wf 0 t = true) (hi : i ∈ l) :
    regLane h (putReg h t n l f) n i = f i := by
  rw [regLane_general hn, putReg_general hn]
  refine tgetD_putAll_same 0 _ ht (fun w hw e => ?_) (.inl (List.mem_map.mpr ⟨i, hi, rfl⟩))
  obtain ⟨j, -, rfl⟩ := List.mem_map.mp hw
  have same : j = i := Nat.add_left_cancel e
  rw [same]

theorem regLane_putReg_other (hn : h.nu + h.na ≤ n) (hm : h.nu + h.na ≤ m) (hnm : n ≠ m) {l : List Nat} (hl : ∀ j ∈ l, j < 32)
    (hi : i < 32) (f : Nat → Word) : regLane h (putReg h t n l f) m i = regLane h t m i := by
  rw [regLane_general hm, regLane_general hm, putReg_general hn]
  refine tgetD_putAll_other 0 _ t fun w hw e => ?_
  obtain ⟨j, hj, rfl⟩ := List.mem_map.mp hw
  have := hl j hj
  simp only [lanePlace] at e
  omega

/-- The registers of a row of general registers, each written in the lanes of a list. -/
def putRegs (h : Header) (dests : Nat → Nat) (l : List Nat) (f : Nat → Nat → Word) (n : Nat) (t : Table Word) : Table Word :=
  (List.range n).foldl (fun t c => putReg h t (dests c) l (f c)) t

theorem putRegs_succ (h : Header) (dests : Nat → Nat) (l : List Nat) (f : Nat → Nat → Word) (n : Nat) (t : Table Word) :
    putRegs h dests l f (n + 1) t = putReg h (putRegs h dests l f n t) (dests n) l (f n) := by
  rw [putRegs, List.range_succ, List.foldl_append]
  rfl

theorem putRegs_wf {dests : Nat → Nat} {l : List Nat} {f : Nat → Nat → Word} (ht : Table.wf 0 t = true)
    (hd : ∀ c, c < n → h.nu + h.na ≤ dests c) : Table.wf 0 (putRegs h dests l f n t) = true := by
  induction n with
  | zero => exact ht
  | succ n ih =>
    rw [putRegs_succ]
    exact putReg_wf (hd n (Nat.lt_succ_self n)) l _ (ih fun c hc => hd c (Nat.lt_succ_of_lt hc))

/-- A register that no later one of the row repeats holds its own values. -/
theorem regLane_putRegs {dests : Nat → Nat} {l : List Nat} {f : Nat → Nat → Word} (ht : Table.wf 0 t = true)
    (hd : ∀ c, c < n → h.nu + h.na ≤ dests c) (hl : ∀ j ∈ l, j < 32) {c : Nat} (hc : c < n) (hi : i ∈ l)
    (last : ∀ c', c < c' → c' < n → dests c' ≠ dests c) : regLane h (putRegs h dests l f n t) (dests c) i = f c i := by
  induction n with
  | zero => omega
  | succ n ih =>
    have low : ∀ c, c < n → h.nu + h.na ≤ dests c := fun c hc => hd c (Nat.lt_succ_of_lt hc)
    rw [putRegs_succ]
    rcases Nat.lt_or_ge c n with lt | ge
    · rw [regLane_putReg_other (hd n (Nat.lt_succ_self n)) (low c lt) (last n lt (Nat.lt_succ_self n)) hl (hl i hi)]
      exact ih low lt fun c' h1 h2 => last c' h1 (Nat.lt_succ_of_lt h2)
    · obtain rfl : c = n := by omega
      exact regLane_putReg_same (hd c hc) _ (putRegs_wf ht low) hi

end registers

end Sys2Proof.Machine
end

section
namespace Sys2Proof.Machine

/-! # Commands, batches and transfers (13 R327 to R336) -/

section blocks
variable {s : State} {core g : Nat}

theorem tiles_modBlk (s : State) (core : Nat) (f : Block → Block) (k : Nat) :
    (getCore (modBlk s core f) k).tiles = (getCore s k).tiles := by
  by_cases hk : k = core
  · rw [hk, modBlk, getCore_modCore]
  · rw [modBlk, getCore_modCore_other s _ hk]

/-- A change of a block's engines leaves its groups alone. -/
theorem getGrp_modBlk {f : Block → Block} (h : ∀ b, (f b).groups = b.groups) : getGrp (modBlk s core f) core g = getGrp s core g := by
  rw [getGrp, getBlk_modBlk, getGrp]
  cases getBlk s core with
  | none => rfl
  | some b => exact congrArg (tfind g) (h b)

theorem getGrp_modCore {f : CoreSt → CoreSt} (h : ∀ c, (f c).block = c.block) : getGrp (modCore s core f) core g = getGrp s core g := by
  simp only [getGrp, getBlk, getCore_modCore, h]

/-- A change of a group counts only by what it makes of that group. -/
theorem modGrp_congr {r : Group} {f f' : Group → Group} (hr : getGrp s core g = some r) (h : f r = f' r) :
    modGrp s core g f = modGrp s core g f' := by
  obtain ⟨b, hb, hg⟩ := Option.bind_eq_some_iff.mp hr
  have hb' : (getCore s core).block = some b := hb
  simp only [modGrp, modBlk, modCore, hb', Option.map_some, tmod, hg, h]

theorem takeBatch_cons {r : Group} {x : Batch} {rest : List Batch} (h : r.closed = x :: rest) : takeBatch r =
    { r with closed := rest, lastBatch := x.num, badBatches := tdel x.num.toNat r.badBatches } := by
  rw [takeBatch, h]

end blocks

/-! ## Commands (13 R327, R329, R331) -/

section commands
variable {s : State} {core : Nat} {b : Block} {m : MmaCmd} (hb : getBlk s core = some b)
include hb

theorem execMmaStart_first (hm : (b.mma.find? fun x => !x.started) = some m) : execMmaStart core s =
    event s (mmaReady s core b m) (modOneMma s core m.id fun x => { x with started := true, slotFault := slotReason s core x }) := by
  simp only [execMmaStart, hb, hm]

theorem execMmaComplete_command (hm : (b.mma.find? fun x => x.id = m.id) = some m) : execMmaComplete core m.id s =
    event s m.started (modMma (dropRefs (match m.slotFault with
      | some r => slotRecord s core b m r
      | none => mmaProduct s core m) core m) core fun q => q.filter fun x => x.id ≠ m.id) := by
  simp only [execMmaComplete, hb, hm] <;> rfl

omit hb in
/-- The slots of a core change, and nothing else of it. -/
theorem modSlots_frame (s : State) (core : Nat) (ns : List Nat) (f : Slot → Slot) (k : Nat) :
    (getCore (modSlots s core ns f) k).tiles = (getCore s k).tiles ∧ getGrp (modSlots s core ns f) core k = getGrp s core k := by
  constructor
  · refine foldSt_frame (fun t => (getCore t k).tiles) (fun t n => ?_) ns s
    by_cases hk : k = core
    · rw [hk, modSlot, getCore_modCore]
    · rw [modSlot, getCore_modCore_other t _ hk]
  · exact foldSt_frame (fun t => getGrp t core k) (fun t n => getGrp_modCore (by exact fun _ => rfl)) ns s

omit hb in
/-- A command that completes with SLOT writes no tile, and its group keeps the code (13 R332). -/
theorem slotRecord_frame {r : Nat × Nat} {g : Group} (hg : getGrp s core m.group = some g) :
    (∀ k, (getCore (slotRecord s core b m r) k).tiles = (getCore s k).tiles) ∧
    ∃ g', getGrp (slotRecord s core b m r) core m.group = some g' ∧ g'.mmaFault = 0x0D := by
  constructor
  · intro k
    unfold slotRecord
    rw [modGrp, tiles_modBlk]
    exact tiles_of_memsOf (memsOf_of_cores (agentRecord_cores ..) k)
  · refine ⟨{ g with mmaFault := 0x0D, badBatches := tput m.batch.toNat 0x0D g.badBatches }, ?_, rfl⟩
    unfold slotRecord
    rw [getGrp_modGrp, getGrp_congr (agentRecord_cores ..), hg]
    rfl

theorem execBatchArrival_due {g : Nat} {r : Group} {x : Batch} {rest : List Batch} (hg : getGrp s core g = some r)
    (hc : r.closed = x :: rest) (hq : (b.mma.any fun m => m.group = g && m.batch = x.num) = false)
    (hh : batchHeld s core x.bar g = false) : execBatchArrival core g s =
      .next (batchArrives s core x.bar g (tfind x.num.toNat r.badBatches).isSome) := by
  simp only [execBatchArrival, hb, hg, hc]
  exact event_due (by simp [hq, hh])

end commands

/-- What becomes of a batch at an object (13 R331, 14 R356). -/
theorem batchArrives_none {s : State} {core i g : Nat} {err : Bool} (h : ∀ o, getBar s core i = some o → o.state = 0) :
    batchArrives s core i g err = modGrp s core g takeBatch := by
  unfold batchArrives
  split
  · rfl
  next o ho => exact if_pos (h o ho)

theorem batchArrives_object {s : State} {core i g : Nat} {err : Bool} {o : Barrier} (h : getBar s core i = some o) (hs : o.state ≠ 0) :
    batchArrives s core i g err =
      if o.larr.getLsbD g then modBar s core i fun o => { o with heldBatches := o.heldBatches ++ [(g, err)] }
      else if err then agentFault (modBar (modGrp s core g takeBatch) core i fun o => arrive o (.grp g)) core i 0x0D
      else evalBarrier (modBar (modGrp s core g takeBatch) core i fun o => arrive o (.grp g)) core i := by
  rw [batchArrives, h]
  exact if_neg hs

/-! ## Transfers (13 R334 to R336) -/

section transfers
variable {s : State} {core : Nat} {b : Block} {x : AccXfer}

/-- The state once a transfer has been performed. -/
def xferDone (t : State) (core : Nat) (x : AccXfer) : State :=
  dropFlag (modBlk t core fun b => { b with xfers := b.xfers.filter fun y => y.id ≠ x.id }) ⟨core, .grp x.group⟩ x.flag

theorem execAccTransferComplete_due (hb : getBlk s core = some b) (hx : (b.xfers.find? fun y => y.id = x.id) = some x)
    (hq : (b.xfers.any (xferBefore · x)) = false) (ht : coreTested s 3 core = false) : execAccTransferComplete core x.id s =
      .next (xferDone (if x.kind = 0 then landAccld s core b x else landAccst s core x) core x) := by
  simp only [execAccTransferComplete, hb, hx]
  exact event_due (by simp [hq, ht])

theorem tiles_xferDone (t : State) (core : Nat) (x : AccXfer) (k : Nat) :
    (getCore (xferDone t core x) k).tiles = (getCore t k).tiles := by
  unfold xferDone dropFlag
  split
  · exact tiles_modBlk ..
  · exact (tiles_modBlk ..).trans (tiles_modBlk ..)

theorem regs_xferDone (t : State) (core : Nat) (x : AccXfer) :
    (getGrp (xferDone t core x) core x.group).map Group.regs = (getGrp t core x.group).map Group.regs := by
  have engines : getGrp (modBlk t core fun b => { b with xfers := b.xfers.filter fun y => y.id ≠ x.id }) core x.group =
      getGrp t core x.group := getGrp_modBlk (by exact fun _ => rfl)
  unfold xferDone dropFlag
  split
  · exact congrArg _ engines
  · simp only [getGrp_modGrp, engines, Option.map_map]
    rfl

theorem regs_landAccld {r : Group} (hr : getGrp s core x.group = some r) :
    (getGrp (landAccld s core b x) core x.group).map Group.regs = some (putRegs b.hdr (fun c => x.dests.getD c 0) (lanesOf x.lanes)
      (fun c i => tgetD 0 (xferKey x i c) (getCore s core).tiles) x.n r.regs) := by
  rw [landAccld, getGrp_modGrp, hr]
  rfl

/-- The tile words that an ACCST or an ACCZ writes. -/
def xferWords (x : AccXfer) : List (Nat × Word) :=
  if x.kind = 1 then
    (lanesOf x.lanes).flatMap fun i => (List.range x.n).map fun c => (xferKey x i c, tgetD 0 (i * 32 + c) x.words)
  else
    ((List.range (modeRows x.mode.toNat)).filter fun r => x.lanes.getLsbD (rowLane x.mode.toNat r)).flatMap fun r =>
      (List.range (modeCols x.mode.toNat)).map fun c => (outputKey x.mode.toNat x.tile r c, 0)

theorem tiles_landAccst (s : State) (core : Nat) (x : AccXfer) :
    (getCore (landAccst s core x) core).tiles = putAll 0 (xferWords x) (getCore s core).tiles := by
  rw [landAccst, getCore_modCore]
  rfl

theorem mem_xferWords_store {w : Nat × Word} (h : x.kind = 1) : w ∈ xferWords x ↔
    ∃ i ∈ lanesOf x.lanes, ∃ c, c < x.n ∧ (xferKey x i c, tgetD 0 (i * 32 + c) x.words) = w := by
  simp [xferWords, h]

theorem mem_xferWords_zero {w : Nat × Word} (h : x.kind = 2) : w ∈ xferWords x ↔ ∃ r, (r < modeRows x.mode.toNat ∧
    x.lanes.getLsbD (rowLane x.mode.toNat r) = true) ∧ ∃ c, c < modeCols x.mode.toNat ∧
      (outputKey x.mode.toNat x.tile r c, (0 : Word)) = w := by
  simp [xferWords, h]

/-- An ACCST puts the words of its lanes at their places. -/
theorem tile_stored (hw : Table.wf 0 (getCore s core).tiles = true) (hk : x.kind = 1) (hm : x.mode.toNat < 7)
    (hr : x.row < modeRows x.mode.toNat / 32) (hc : x.col + x.n ≤ modeCols x.mode.toNat) {i c : Nat} (hi : i ∈ lanesOf x.lanes)
    (hcn : c < x.n) : tgetD 0 (xferKey x i c) (getCore (landAccst s core x) core).tiles = tgetD 0 (i * 32 + c) x.words := by
  have lane {i : Nat} (hi : i ∈ lanesOf x.lanes) : i < 32 := BitVec.lt_of_getLsbD (mem_lanesOf.mp hi)
  rw [tiles_landAccst]
  refine tgetD_putAll_same 0 _ hw (fun w h e => ?_) (.inl ((mem_xferWords_store hk).mpr ⟨i, hi, c, hcn, rfl⟩))
  obtain ⟨i', hi', c', hc', rfl⟩ := (mem_xferWords_store hk).mp h
  obtain ⟨rows, cols⟩ := outputKey_inj hm (ownedRow_lt (lane hi') hr) (by omega) (ownedRow_lt (lane hi) hr) (by omega) e
  have cc : c' = c := Nat.add_left_cancel cols
  have ii : i' = i := Nat.eq_of_mul_eq_mul_right (by omega) (Nat.add_right_cancel rows)
  rw [cc, ii]

theorem tile_not_stored {k : Nat} (hk : x.kind = 1) (h : ∀ i ∈ lanesOf x.lanes, ∀ c, c < x.n → k ≠ xferKey x i c) :
    tgetD 0 k (getCore (landAccst s core x) core).tiles = tgetD 0 k (getCore s core).tiles := by
  rw [tiles_landAccst]
  refine tgetD_putAll_other 0 _ _ fun w hw e => ?_
  obtain ⟨i, hi, c, hc, rfl⟩ := (mem_xferWords_store hk).mp hw
  exact h i hi c hc e.symm

/-- An ACCZ zeroes the rows that its lanes own, and no others. -/
theorem tile_zeroed (hw : Table.wf 0 (getCore s core).tiles = true) (hk : x.kind = 2) (hm : x.mode.toNat < 7) {r c : Nat}
    (hr : r < modeRows x.mode.toNat) (hc : c < modeCols x.mode.toNat) :
    tgetD 0 (outputKey x.mode.toNat x.tile r c) (getCore (landAccst s core x) core).tiles =
      if x.lanes.getLsbD (rowLane x.mode.toNat r) then 0
      else tgetD 0 (outputKey x.mode.toNat x.tile r c) (getCore s core).tiles := by
  rw [tiles_landAccst]
  split
  next own =>
    refine tgetD_putAll_same 0 _ hw (fun w h _ => ?_) (.inl ((mem_xferWords_zero hk).mpr ⟨r, ⟨hr, own⟩, c, hc, rfl⟩))
    obtain ⟨_, -, _, -, rfl⟩ := (mem_xferWords_zero hk).mp h
    rfl
  next other =>
    refine tgetD_putAll_other 0 _ _ fun w h e => ?_
    obtain ⟨r', ⟨hr', own⟩, c', hc', rfl⟩ := (mem_xferWords_zero hk).mp h
    exact other ((outputKey_inj hm hr' hc' hr hc e).1 ▸ own)

end transfers

/-- Settles O41: each step by its equation; a transfer by the places of its words, which differ. -/
theorem matrixEngineSteps : Obligations.MatrixEngineSteps := by
  unfold Obligations.MatrixEngineSteps
  intro s core b hb tile
  refine ⟨?start, fun m hm => ⟨?waits, ?product, ?slot⟩, ?batch, ?transfer⟩
  case start =>
    exact fun m hm => ⟨fun h => (execMmaStart_first hb hm).trans (event_due h),
      fun h => (execMmaStart_first hb hm).trans (event_not_due h)⟩
  case waits => exact fun h => (execMmaComplete_command hb hm).trans (event_not_due h)
  case product =>
    intro h hf
    refine (execMmaComplete_command hb hm).trans ((event_due h).trans ?_)
    rw [hf]
  case slot =>
    intro r g h hf hg
    obtain ⟨tiles, g', hg', code⟩ := slotRecord_frame (b := b) (r := r) hg
    refine ⟨_, g', (execMmaComplete_command hb hm).trans (event_due h), fun k => ?_, ?_, code⟩
    · refine congrArg (tgetD 0 k) ?_
      rw [hf, modMma, tiles_modBlk]
      exact (modSlots_frame ..).1.trans (tiles core)
    · rw [hf]
      exact (getGrp_modBlk (by exact fun _ => rfl)).trans ((modSlots_frame ..).2.trans hg')
  case batch =>
    intro g r x rest hg hc hq hh made bad
    have run := execBatchArrival_due hb hg hc hq hh
    have taken : modGrp s core g takeBatch = made := modGrp_congr hg (takeBatch_cons hc)
    refine ⟨fun o ho hs hl => run.trans ?_, fun o ho hs hl => run.trans ?_, fun ho => run.trans ?_⟩
    · rw [batchArrives_object ho hs, hl, taken]
      rfl
    · rw [batchArrives_object ho hs, hl]
      rfl
    · rw [batchArrives_none ho, taken]
  case transfer =>
    intro x hx hq ht hw col
    have run := execAccTransferComplete_due hb hx hq ht
    have tiles (t : State) (k : Nat) : tile (xferDone t core x) k = tile t k := congrArg (tgetD 0 k) (tiles_xferDone t core x core)
    refine ⟨_, run, fun hk => ?load, fun hk => ?store, fun hk hm r c hr hc => ?zero⟩
    case load =>
      rw [if_pos hk]
      refine ⟨fun k => (tiles _ k).trans (congrArg (tgetD 0 k) (tiles_modBlk ..)), fun r hr hwf c i hc hi hd last general => ?_⟩
      have regs := (regs_xferDone (landAccld s core b x) core x).trans (regs_landAccld hr)
      have read := congrArg (Option.map fun t => regLane b.hdr t (x.dests.getD c 0) i) regs
      rw [Option.map_map] at read
      exact read.trans (congrArg some (regLane_putRegs (f := fun c i => tgetD 0 (xferKey x i c) (getCore s core).tiles) hwf general
        (fun j hj => BitVec.lt_of_getLsbD (mem_lanesOf.mp hj)) hc hi last))
    case store =>
      rw [if_neg (by omega)]
      exact ⟨fun k h => (tiles _ k).trans (tile_not_stored hk h),
        fun hm hr hc i hi c hcn => (tiles _ _).trans (tile_stored hw hk hm hr hc hi hcn)⟩
    case zero =>
      rw [if_neg (by omega)]
      exact (tiles _ _).trans (tile_zeroed hw hk hm hr hc)

end Sys2Proof.Machine
end

section
namespace Sys2Proof.Machine

/-! # The matrix instructions (13 R323 to R326, R330, R338) -/

section instructions
variable {s : State} {c : GC}

/-- A success predicate of a matrix instruction, and the end of its unit. -/
def putSuccess (s : State) (c : GC) (p : Nat) (v : Bool) : State :=
  retireGrp (setUniform (writePred s c.core c.g p c.spl.lanes (if v then c.spl.lanes else 0)) c p false) c

/-- No check on vector registers finds a fault. -/
theorem vecChecks_false {dests srcs : List (Nat × Nat)} {res : Shape} (h : RegsLegal c dests srcs res) :
    ∀ x ∈ vecChecks c dests srcs res, x.1 = false := by
  simp only [vecChecks, List.forall_mem_cons, List.not_mem_nil, false_implies, implies_true, and_true]
  refine ⟨?_, ?_⟩
  · simp only [List.any_eq_false, outOfRange, decide_eq_true_eq, Nat.not_lt]
    exact h.range
  · simp only [List.any_eq_false, List.mem_range, decide_eq_true_eq, Nat.not_lt, Bool.not_eq_true]
    exact h.shape

theorem bankCheck_false (h : c.blk.banksLost = []) (g : Nat) (ns : List Nat) :
    bankCheck c g ns = (false, cDATA_UNCORRECTABLE) := by simp [bankCheck, h]

/-! ## MCLAIM -/

/-- Slots b to b + k - 1 are FREE and below SLOTS. -/
def RunFree (s : State) (core slots k b : Nat) : Prop := b + k ≤ slots ∧ ∀ x, b ≤ x → x < b + k → (getSlot s core x).state = 0

theorem slotRun_free_iff (s : State) (core b k : Nat) : ((slotRun b k).all fun x => (getSlot s core x).state = 0) = true ↔
    ∀ x, b ≤ x → x < b + k → (getSlot s core x).state = 0 := by
  simp only [slotRun, List.all_map, List.all_eq_true, List.mem_range, Function.comp_apply, decide_eq_true_eq]
  refine ⟨fun h x hb hx => ?_, fun h i hi => h _ (by omega) (by omega)⟩
  have at_ := h (x - b) (by omega)
  rwa [Nat.add_sub_cancel' hb] at at_

/-- The run that MCLAIM takes, if there is one. -/
def claimRun (s : State) (c : GC) (k : Nat) : Option Nat :=
  if c.blk.hdr.slots < k then none else freeRun s c.core c.blk.hdr.slots k

theorem claimRun_none {k : Nat} (h : ∀ x, ¬RunFree s c.core c.blk.hdr.slots k x) : claimRun s c k = none := by
  unfold claimRun
  split
  · rfl
  next fits =>
    rw [freeRun, List.find?_range_eq_none]
    intro b hb
    rw [Bool.not_eq_true', ← Bool.not_eq_true, slotRun_free_iff]
    exact fun all => h b ⟨by omega, all⟩

theorem claimRun_some {k b : Nat} (h : RunFree s c.core c.blk.hdr.slots k b)
    (low : ∀ y, y < b → ¬RunFree s c.core c.blk.hdr.slots k y) : claimRun s c k = some b := by
  obtain ⟨fits, all⟩ := h
  rw [claimRun, if_neg (by omega), freeRun, List.find?_range_eq_some, slotRun_free_iff, List.mem_range]
  refine ⟨all, by omega, fun y hy => ?_⟩
  rw [Bool.not_eq_true', ← Bool.not_eq_true, slotRun_free_iff]
  exact fun free => low y hy ⟨by omega, free⟩

theorem execMclaim_run {p : BitVec 3} {d : BitVec 7} {n : BitVec 14} (hc : groupCtx s = some c)
    (hr : regsPending s c [d.toNat] = false) (h1 : 1 ≤ (imm14 (grpLit c) n).toInt)
    (hk : (imm14 (grpLit c) n).toInt.toNat ≤ 64) (hl : RegsLegal c [(d.toNat, 1)] [] .uniform) (hp : predStaged c p.toNat = false) :
    execMclaim p d n s = .next (match claimRun s c (imm14 (grpLit c) n).toInt.toNat with
      | none => putSuccess s c p.toNat false
      | some b => putSuccess (writeReg (modSlots s c.core (slotRun b (imm14 (grpLit c) n).toInt.toNat) fun x =>
          { x with state := 1, header := 0 }) c d.toNat (lanesOf c.spl.lanes) fun _ => BitVec.ofNat 32 b) c p.toNat true) := by
  have checks : ∀ x ∈ [(decide ((imm14 (grpLit c) n).toInt < 1 ∨ 64 < (imm14 (grpLit c) n).toInt), cILLEGAL)] ++
      vecChecks c [(d.toNat, 1)] [] .uniform ++ [(predStaged c p.toNat, cSHAPE), bankCheck c 0 [d.toNat]], x.1 = false := by
    simp only [List.forall_mem_append, List.forall_mem_cons, List.not_mem_nil, false_implies, implies_true, and_true,
      decide_eq_false_iff_not]
    exact ⟨⟨by omega, vecChecks_false hl⟩, hp, congrArg Prod.fst (bankCheck_false hl.bank ..)⟩
  simp only [execMclaim, grpInstr_run hc (.inl rfl), hr, Bool.false_eq_true, if_false, chk_pass _ checks]
  unfold claimRun
  generalize (if c.blk.hdr.slots < (imm14 (grpLit c) n).toInt.toNat then none
    else freeRun s c.core c.blk.hdr.slots (imm14 (grpLit c) n).toInt.toNat) = run
  cases run <;> rfl

/-! ## MREL -/

theorem execMrel_run {g : BitVec 3} {a n : BitVec 7} (hc : groupCtx s = some c) (hr : regsPending s c [a.toNat] = false)
    (h1 : 1 ≤ (imm7 (grpLit c) n).toInt) (hl : RegsLegal c [] [(a.toNat, 1)] .uniform) (ht : vtag c a.toNat = .uniform)
    (hw : WholeSplit c g.toNat) : execMrel g a n s = .next (
      if ((vreg c a.toNat 0).toNat : Int) + (imm7 (grpLit c) n).toInt ≤ 64 then
        retireGrp (modSlots s c.core (slotRun (vreg c a.toNat 0).toNat (imm7 (grpLit c) n).toInt.toNat) releaseSlot) c
      else faultGrp s c { code := 0x01 }) := by
  have inRange : outOfRange c a.toNat 1 = false := by
    rw [outOfRange, decide_eq_false_iff_not, Nat.not_lt]
    exact hl.range (a.toNat, 1) (List.mem_singleton_self _)
  simp only [execMrel, grpInstr_run hc (.inl rfl), hr, Bool.false_eq_true, if_false, decide_eq_false (Int.not_lt.mpr h1), inRange, ht,
    ne_eq, not_true_eq_false, decide_false, chk_false, chk_nil, wholeGuard_pass hw, bankCheck_false hl.bank]
  split
  next fits => rw [decide_eq_false (by omega), chk_false, chk_nil]; rfl
  next past => rw [decide_eq_true (by omega), chk_true]; rfl

/-! ## MMA -/

/-- The command that an MMA puts in the queue. -/
def mmaCmd (s : State) (c : GC) (a b t : Nat) (m : BitVec 3) (acc sat : Bool) : MmaCmd :=
  let used := (List.range 64).filter fun n => (modeSubs m.toNat a b).any fun x => x.2.1 = n || x.2.2 = n
  let gone := fun n => (getSlot s c.core n).state = 0 || (getSlot s c.core n).state = 5
  { id := nextId s, pc := c.spl.pc, mode := m, aslot := a, bslot := b, tile := t, acc := acc, sat := sat, group := c.g
    batch := c.grp.batch, lanes := c.spl.lanes, marked := used.filter gone, held := used.filter fun n => !gone n, after := nextId s }

theorem execMma_run {p m : BitVec 3} {a b : BitVec 6} {t : BitVec 4} (acc sat : BitVec 1) (hc : groupCtx s = some c)
    (hl : c.spl.pre.lit = none) (hm : m ≠ 7)
    (hs : ∀ x ∈ modeSubs m.toNat a.toNat b.toNat, x.2.1 < min 64 c.blk.hdr.slots ∧ x.2.2 < min 64 c.blk.hdr.slots)
    (ht : t.toNat < c.blk.hdr.tiles) (hp : predStaged c p.toNat = false) : execMma p a b t m acc sat s = .next (
      if 64 ≤ c.blk.mma.length then putSuccess s c p.toNat false
      else
        let k := mmaCmd s c a.toNat b.toNat t.toNat m (acc = 1) (sat = 1)
        putSuccess (modMma (modSlots (bumpId s) c.core k.held fun y => { y with refs := y.refs + 1 }) c.core fun q => q ++ [k]) c
          p.toNat true) := by
  have inside : (modeSubs m.toNat a.toNat b.toNat).any (fun y => decide (64 ≤ y.2.1) || decide (c.blk.hdr.slots ≤ y.2.1) ||
      decide (64 ≤ y.2.2) || decide (c.blk.hdr.slots ≤ y.2.2)) = false := by
    rw [List.any_eq_false]
    intro y hy
    have := hs y hy
    simp only [Bool.or_eq_true, decide_eq_true_eq]
    omega
  simp only [execMma, grpInstr_run hc (.inr hl), inside, decide_eq_false hm, decide_eq_false (Nat.not_le.mpr ht), hp, chk_false,
    chk_nil]
  split <;> rfl

/-! ## MFENCE -/

theorem execMfence_member {g : BitVec 3} {b : BitVec 6} {o : Barrier} (hc : groupCtx s = some c) (hw : WholeSplit c g.toNat)
    (ho : getBar s c.core b.toNat = some o) (hm : isMember o (.grp c.g) = true) : execMfence g b s =
      .next (retireGrp (modGrp s c.core c.g fun r =>
        { r with closed := r.closed ++ [{ num := r.batch, bar := b.toNat }], batch := r.batch + 1 }) c) := by
  simp only [execMfence, grpInstr_run hc (.inl rfl), wholeGuard_pass hw, ho, hm, Bool.not_true, Bool.false_eq_true, if_false,
    endGrp_retire]

theorem execMfence_stranger {g : BitVec 3} {b : BitVec 6} (hc : groupCtx s = some c) (hw : WholeSplit c g.toNat)
    (hm : ∀ o, getBar s c.core b.toNat = some o → isMember o (.grp c.g) = false) :
    execMfence g b s = .next (faultGrp s c (barErr (localSpot c.blk b.toNat))) := by
  simp only [execMfence, grpInstr_run hc (.inl rfl), wholeGuard_pass hw]
  split
  · rfl
  next o ho => rw [hm o ho]; rfl

/-! ## MQUERY -/

theorem execMquery_run {g : BitVec 3} {d : BitVec 7} {n : BitVec 6} {sel : BitVec 2} (hc : groupCtx s = some c)
    (hr : regsPending s c [d.toNat] = false) (hl : RegsLegal c [(d.toNat, 1)] [] .uniform) : execMquery g d n sel s =
      .next (retireGrp (writeReg s c d.toNat (activeLanes c g.toNat) fun _ => mquery s c sel.toNat n.toNat) c) := by
  simp only [execMquery, grpInstr_run hc (.inl rfl), hr, Bool.false_eq_true, if_false, vecChecks_pass hl, endGrp_retire]

/-- The sub-arrays that the commands of the queue keep busy. -/
def busySubs (c : GC) : List Nat :=
  (List.range 4).filter fun k => c.blk.mma.any fun m => m.started && (modeSubs m.mode.toNat m.aslot m.bslot).any fun x => x.1 = k

/-- The fields of the status word (13 R338). -/
theorem mquery_status (s : State) (c : GC) (n : Nat) : let v := mquery s c 0 n
    v.extractLsb' 24 8 = c.grp.mmaFault ∧ v.extractLsb' 18 6 = 0 ∧ v.extractLsb' 7 1 = 0 ∧
    v.extractLsb' 12 6 = BitVec.ofNat 6 (xferCount c.blk c.g) ∧ v.extractLsb' 0 7 = BitVec.ofNat 7 (64 - c.blk.mma.length) ∧
    ∀ j, j < 4 → v.getLsbD (8 + j) = (maskOf 4 (busySubs c)).getLsbD j := by
  have word : mquery s c 0 n = c.grp.mmaFault ++ (0 : BitVec 6) ++ BitVec.ofNat 6 (xferCount c.blk c.g) ++ maskOf 4 (busySubs c) ++
    (0 : BitVec 1) ++ BitVec.ofNat 7 (64 - c.blk.mma.length) := rfl
  rw [word]
  refine ⟨?_, ?_, ?_, ?_, ?_, fun j hj => ?_⟩
  · iterate 4 rw [BitVec.extractLsb'_append_eq_of_le (by decide)]
    exact BitVec.extractLsb'_append_eq_left
  · iterate 4 rw [BitVec.extractLsb'_append_eq_of_le (by decide)]
    exact BitVec.extractLsb'_append_eq_right
  · rw [BitVec.extractLsb'_append_eq_of_le (by decide)]
    exact BitVec.extractLsb'_append_eq_right
  · iterate 3 rw [BitVec.extractLsb'_append_eq_of_le (by decide)]
    exact BitVec.extractLsb'_append_eq_right
  · exact BitVec.extractLsb'_append_eq_right
  · rw [BitVec.getLsbD_append, if_neg (by omega), BitVec.getLsbD_append, if_neg (by omega), BitVec.getLsbD_append, if_pos (by omega)]
    exact congrArg _ (by omega)

end instructions
end Sys2Proof.Machine
end

section
namespace Sys2Proof.Machine

/-! # The accumulator transfers (13 R333 to R336) -/

section transfers
variable {s : State} {c : GC} {g m : BitVec 3} {d a : BitVec 7} {t : BitVec 4}

theorem viewBad_false (hm : m ≠ 7) (ht : t.toNat < c.blk.hdr.tiles) (hl : ∀ p, grpLit c = some p → p = 0) :
    viewBad c m t = false := by
  simp only [viewBad, decide_eq_false hm, decide_eq_false (Nat.not_le.mpr ht), Bool.or_self, Bool.false_or]
  cases h : grpLit c with
  | none => rfl
  | some p => simp [hl p h]

/-- The fields of the transfer word. -/
theorem transferWord_eq (w : Word) : transferWord w =
    ((w.extractLsb' 13 3).toNat, (w.extractLsb' 8 5).toNat + 1, (w.extractLsb' 0 8).toNat) := by
  simp only [transferWord, bitsOf_toNat]

/-- The transfer that an ACCLD or ACCST puts on its way, before its kind's own fields. -/
def moveXfer (c : GC) (kind : Nat) (m : BitVec 3) (t row n col : Nat) (act : Word) : AccXfer :=
  { id := 0, kind := kind, group := c.g, mode := m, tile := t, row := row, n := n, col := col, lanes := act }

/-- What an ACCLD or ACCST puts on its way. -/
def moved (s : State) (c : GC) (load : Bool) (d k : Nat) (x : AccXfer) : State :=
  if load then addXfer (takeFlag s c) c { x with
    dests := ((List.range k).map (d + ·)).map (physReg c.spl), flag := clauseFlag c.spl.clause }
  else addXfer s c { x with
    words := (lanesOf x.lanes).flatMap fun i => (List.range k).map fun y => (i * 32 + y, vreg c (d + y) i) }

variable (load : Bool) {j k c0 : Nat} (hc : groupCtx s = some c) (hm : m ≠ 7) (ht : t.toNat < c.blk.hdr.tiles)
  (hl : ∀ p, grpLit c = some p → p = 0) (hw : transferWord (vreg c a.toNat 0) = (j, k, c0))
  (ha : regsPending s c [a.toNat] = false) (hd : regsPending s c ((List.range k).map (d.toNat + ·)) = false)
  (hr : RegsLegal c [] [(a.toNat, 1), (d.toNat, k)] .uniform) (hu : vtag c a.toNat = .uniform)
  (hg : load = true → ∀ r ∈ (List.range k).map (d.toNat + ·), vtag c r = .general)
include hc hm ht hl hw ha hd hr hu hg

/-- A transfer whose registers and view are legal: with no active lane nothing happens, else the word is checked. -/
theorem accMove_checked : accMove s load g.toNat d.toNat a.toNat m t = .next (endGrp s c (
    if guarded c g.toNat = 0 then .retire s
    else chk [(decide (modeRows m.toNat / 32 ≤ j ∨ modeCols m.toNat < c0 + k), cILLEGAL)] <|
      heldBy [(load && fullHolds c, 1), (63 ≤ xferCount c.blk c.g, 12)] <|
        .retire (moved s c load d.toNat k (moveXfer c (if load then 0 else 1) m t.toNat j k c0 (guarded c g.toNat))))) := by
  have aIn : outOfRange c a.toNat 1 = false := by
    rw [outOfRange, decide_eq_false_iff_not, Nat.not_lt]
    exact hr.range (a.toNat, 1) (by simp)
  have dIn : outOfRange c d.toNat k = false := by
    rw [outOfRange, decide_eq_false_iff_not, Nat.not_lt]
    exact hr.range (d.toNat, k) (by simp)
  have tags : (load && ((List.range k).map (d.toNat + ·)).any fun r => decide (vtag c r ≠ .general)) = false := by
    cases load with
    | false => rfl
    | true =>
      rw [Bool.true_and, List.any_eq_false]
      exact fun r hr => by simp [hg rfl r hr]
  simp only [accMove, grpInstr_run hc (.inl rfl), ha, hw, aIn, dIn, hd, tags, viewBad_false hm ht hl, hu, ne_eq, not_true_eq_false,
    decide_false, Bool.or_self, Bool.false_eq_true, if_false, chk_false, chk_nil, bankCheck_false hr.bank]
  cases load <;> rfl

/-- With no active lane a transfer retires whatever its word says. -/
theorem accMove_none (h0 : guarded c g.toNat = 0) : accMove s load g.toNat d.toNat a.toNat m t = .next (retireGrp s c) := by
  rw [accMove_checked load hc hm ht hl hw ha hd hr hu hg, if_pos h0, endGrp_retire]

/-- A word that leaves the view is an ILLEGAL fault. -/
theorem accMove_outside (h0 : guarded c g.toNat ≠ 0) (hv : modeRows m.toNat / 32 ≤ j ∨ modeCols m.toNat < c0 + k) :
    accMove s load g.toNat d.toNat a.toNat m t = .next (faultGrp s c { code := 0x01 }) := by
  rw [accMove_checked load hc hm ht hl hw ha hd hr hu hg, if_neg h0, decide_eq_true hv, chk_true]
  rfl

/-- A legal transfer goes on its way. -/
theorem accMove_goes (h0 : guarded c g.toNat ≠ 0) (hj : j < modeRows m.toNat / 32) (hk : c0 + k ≤ modeCols m.toNat)
    (hx : xferCount c.blk c.g < 63) (hf : load = true → flagFull c.grp.flags c.spl.clause = false) :
    accMove s load g.toNat d.toNat a.toNat m t = .next (retireGrp
      (moved s c load d.toNat k (moveXfer c (if load then 0 else 1) m t.toNat j k c0 (guarded c g.toNat))) c) := by
  have flag : (load && fullHolds c) = false := by
    cases load with
    | false => rfl
    | true => exact hf rfl
  rw [accMove_checked load hc hm ht hl hw ha hd hr hu hg, if_neg h0, decide_eq_false (by omega), chk_false, chk_nil,
    heldBy_pass flag (decide_eq_false (by omega)), endGrp_retire]

omit hm ht hl hw ha hd hr hu hg in
theorem execAccz_illegal (h : m = 7 ∨ c.blk.hdr.tiles ≤ t.toNat) : execAccz g m t s = .next (faultGrp s c { code := 0x01 }) := by
  have bad : viewBad c m t = true := by
    rcases h with h | h <;> simp [viewBad, h]
  simp only [execAccz, grpInstr_run hc (.inl rfl), bad, chk_true, endGrp_fault]
  rfl

omit hw ha hd hr hu hg in
theorem execAccz_none (h0 : guarded c g.toNat = 0) : execAccz g m t s = .next (retireGrp s c) := by
  simp only [execAccz, grpInstr_run hc (.inl rfl), viewBad_false hm ht hl, chk_false, chk_nil, if_pos h0, endGrp_retire]

omit hw ha hd hr hu hg in
theorem execAccz_goes (h0 : guarded c g.toNat ≠ 0) (hx : xferCount c.blk c.g < 63) : execAccz g m t s =
    .next (retireGrp (addXfer s c (moveXfer c 2 m t.toNat 0 0 0 (guarded c g.toNat))) c) := by
  simp only [execAccz, grpInstr_run hc (.inl rfl), viewBad_false hm ht hl, chk_false, chk_nil, if_neg h0, if_neg (Nat.not_le.mpr hx),
    endGrp_retire]
  rfl

omit hm ht hl hw ha hd hr hu hg in
theorem execAccwait_done {n : BitVec 14} (hg : WholeSplit c g.toNat)
    (hx : (xferCount c.blk c.g : Int) ≤ max 0 (imm14 (grpLit c) n).toInt) : execAccwait g n s = .next (retireGrp s c) := by
  simp only [execAccwait, grpInstr_run hc (.inl rfl), wholeGuard_pass hg, if_pos hx, endGrp_retire]

end transfers

/-- Settles O40: each instruction by the equation of its execution; the status word field by field. -/
theorem matrixInstructionsComplete : Obligations.MatrixInstructionsComplete := by
  unfold Obligations.MatrixInstructionsComplete
  refine ⟨?_, ?_⟩
  · intro s c p g d a7 n7 n14 a b t m acc sat sel put slots hc
    refine ⟨?claim, ?rel, ?mma, ?fence, ?query⟩
    case claim =>
      intro k free hr h1 hk hl hp
      have run := execMclaim_run hc hr h1 hk hl hp
      refine ⟨fun hn => run.trans ?_, fun x hx low => run.trans ?_⟩
      · rw [claimRun_none hn]
        rfl
      · rw [claimRun_some hx low]
        rfl
    case rel =>
      intro k base hr h1 hl ht hw
      have run := execMrel_run hc hr h1 hl ht hw
      exact ⟨fun h => run.trans (congrArg _ (if_pos h)), fun h => run.trans (congrArg _ (if_neg (Int.not_le.mpr h)))⟩
    case mma =>
      intro hl hm hs ht hp
      have run := execMma_run acc sat hc hl hm hs ht hp
      refine ⟨fun h => run.trans (congrArg _ (if_pos h)), ?_⟩
      intro h used gone cmd
      exact run.trans (congrArg _ (if_neg (Nat.not_le.mpr h)))
    case fence =>
      exact fun hw => ⟨fun o ho hm => execMfence_member hc hw ho hm, fun hm => ⟨_, rfl, execMfence_stranger hc hw hm⟩⟩
    case query =>
      intro hr hl x under
      refine ⟨_, execMquery_run hc hr hl, fun h => ?_, fun h => ?_, fun h => ?_, fun h => ?_⟩
      · subst h
        obtain ⟨fault, gap, zero, count, left, busy⟩ := mquery_status s c a.toNat
        refine ⟨fault, gap, zero, ?_, ?_, fun j hj => (busy j hj).trans ?_⟩
        · exact (congrArg BitVec.toNat count).trans (BitVec.toNat_ofNat ..)
        · exact (congrArg BitVec.toNat left).trans (BitVec.toNat_ofNat ..)
        · rw [getLsbD_maskOf, busySubs, Bool.eq_iff_iff, decide_eq_true_eq, List.mem_filter, List.mem_range]
          exact ⟨fun h => h.2.2, fun h => ⟨hj, hj, h⟩⟩
      all_goals subst h; rfl
  · intro s c g m d a t n word j k c0 names act x words under hc
    refine ⟨fun hm ht hl => ⟨fun ha hd hr hu => ?moves, ?idle, ?zero⟩, execAccz_illegal hc, execAccwait_done hc⟩
    case moves =>
      have hw := transferWord_eq word
      refine ⟨fun h => accMove_none true hc hm ht hl hw ha hd hr hu (fun _ => h.1) h.2,
        accMove_none false hc hm ht hl hw ha hd hr hu (by simp), fun h0 hj hk hx => ⟨fun hg hf => ?_, ?_⟩, fun h0 hv => ?_⟩
      · exact accMove_goes true hc hm ht hl hw ha hd hr hu (fun _ => hg) h0 hj hk hx fun _ => hf
      · exact accMove_goes false hc hm ht hl hw ha hd hr hu (by simp) h0 hj hk hx (by simp)
      · exact accMove_outside false hc hm ht hl hw ha hd hr hu (by simp) h0 hv
    case idle => exact execAccz_none hc hm ht hl
    case zero => exact execAccz_goes hc hm ht hl

end Sys2Proof.Machine
end

section
namespace Sys2Proof.Machine

/-! # The stages of a re-striping (15 R373 to R376, R380, R381) -/

/-! ## What leaves the restriper's queue alone -/

@[simp] theorem memPut_pages (s : State) (n : Nat) (l : List Byte) : (memPut s n l).pages = s.pages := by
  induction l generalizing s n with
  | nil => rfl
  | cons b r ih => rw [memPut, ih]

@[simp] theorem clearBad_pages (s : State) (loc n : Nat) : (clearBad s loc n).pages = s.pages := rfl

@[simp] theorem writeBack_pages (s : State) (k : Nat) (h : HomeLine) : (writeBack s k h).pages = s.pages := by
  unfold writeBack
  split
  · exact memPut_pages ..
  · rfl

@[simp] theorem evictHome_pages (s : State) (d k : Nat) : (evictHome s d k).pages = s.pages := by
  unfold evictHome
  split
  · exact writeBack_pages ..
  · rfl

@[simp] theorem putHome_pages (s : State) (p : Word) (a : Nat) (h : HomeLine) : (putHome s p a h).pages = s.pages := by
  unfold putHome
  (repeat' split) <;> simp

@[simp] theorem modReg_pages (s : State) (p : Word) (a : Nat) (f : RegWord → RegWord) : (modReg s p a f).pages = s.pages := rfl

@[simp] theorem ownerClean_pages (s : State) (owner : BitVec 3) (p : Word) (a : Nat) : (ownerClean s owner p a).pages = s.pages := by
  unfold ownerClean
  (repeat' split) <;> rfl

@[simp] theorem clearWord_pages (s : State) (p : Word) (a : Nat) : (clearWord s p a).pages = s.pages := by
  unfold clearWord
  simp only
  split <;> rfl

@[simp] theorem startWalk_pages (s : State) (core ctx va : Nat) (keep : Bool) : (startWalk s core ctx va keep).pages = s.pages := by
  unfold startWalk
  split <;> rfl

@[simp] theorem dropTranslations_pages (s : State) (which : TEntry → Bool) : (dropTranslations s which).pages = s.pages := by
  unfold dropTranslations
  exact foldSt_frame State.pages (fun _ _ => startWalk_pages ..) _ _

theorem askLeaf_pages (s : State) (core ctx va : Nat) : (askLeaf s core ctx va).1.pages = s.pages := by
  unfold askLeaf
  split
  · rfl
  · exact startWalk_pages ..

theorem probeAsk_pages (s : State) (core ctx va : Nat) : (probeAsk s core ctx va).1.pages = s.pages := by
  rw [← askLeaf_pages s core ctx va]
  unfold probeAsk
  split
  next h => rw [h]
  next h => rw [h]
  next h => rw [h]

theorem devTranslate_pages (s : State) (ctx va : Nat) : (devTranslate s ctx va).1.pages = s.pages := by
  unfold devTranslate
  (repeat' split) <;> rfl

/-- Asking for the leaf of a request changes no request. -/
theorem migLeaf_pages (s : State) (m : Migration) : (migLeaf s m).1.pages = s.pages := by
  unfold migLeaf
  simp only
  split
  · exact probeAsk_pages ..
  · split
    · rfl
    · rw [← devTranslate_pages s m.ctx m.va]
      split
      next h => rw [h]
      next h => rw [h]

/-! ## A request as it stands, but for the writes it has seen -/

/-- A request without its dirty granules and the cycles of their writes. -/
def restOfMig (m : Migration) : Migration := { m with dirty := [], lastWrite := [] }

/-- A request that the restriper holds, without its dirty granules. -/
def migOf (s : State) (id : Nat) : Option Migration := (getMig s id).map restOfMig

section requests
variable {s t : State} {id : Nat}

theorem migOf_of_pages (h : t.pages = s.pages) (id : Nat) : migOf t id = migOf s id := by rw [migOf, getMig, h]; rfl

theorem getMig_of_migOf {m : Migration} (h : migOf t id = some m) : ∃ k, getMig t id = some k ∧ restOfMig k = m :=
  Option.map_eq_some_iff.mp h

theorem getMig_modMig (s : State) (id : Nat) {f : Migration → Migration} (h : ∀ m, (f m).id = m.id) :
    getMig (modMig s id f) id = (getMig s id).map f := by
  have keys : (fun m : Migration => decide (m.id = id)) ∘ (fun m => if m.id = id then f m else m) = fun m => decide (m.id = id) := by
    funext m
    by_cases e : m.id = id <;> simp [e, h]
  rw [getMig, modMig, List.find?_map, keys, getMig]
  cases e : s.pages.queue.find? fun m => m.id = id with
  | none => rfl
  | some m =>
    have same : m.id = id := by simpa using List.find?_some e
    exact congrArg some (if_pos same)

/-- A write to the pages of requests leaves all but their dirty granules. -/
theorem migOf_markDirty (s : State) (p : Word) (a : Nat) (id : Nat) : migOf (markDirty s p a) id = migOf s id := by
  unfold migOf getMig markDirty
  rw [List.find?_map, Option.map_map]
  refine congr (congrArg _ (funext fun m => ?_)) (congrArg (fun p => s.pages.queue.find? p) (funext fun m => ?_))
  · simp only [Function.comp_apply]
    split <;> rfl
  · simp only [Function.comp_apply]
    split <;> rfl

theorem migOf_putHomeWord (s : State) (p : Word) (a : Nat) (w : Word) (id : Nat) : migOf (putHomeWord s p a w) id = migOf s id :=
  (migOf_of_pages (putHome_pages ..) id).trans (migOf_markDirty ..)

theorem migOf_recallWord (s : State) (p : Word) (a : Nat) (id : Nat) : migOf (recallWord s p a) id = migOf s id := by
  unfold recallWord
  simp only
  split
  · rfl
  · split
    · exact (migOf_of_pages (ownerClean_pages ..) id).trans (migOf_putHomeWord ..)
    · rfl

theorem migOf_homePutByte (s : State) (p : Word) (a : Nat) (b : Byte) (id : Nat) : migOf (homePutByte s p a b) id = migOf s id := by
  unfold homePutByte
  split
  · exact migOf_markDirty ..
  · split
    · exact migOf_markDirty ..
    · exact (migOf_of_pages (putHome_pages ..) id).trans ((migOf_markDirty ..).trans (migOf_recallWord ..))

theorem migOf_physPut (s : State) (p : Word) (a : Nat) (bs : List Byte) (id : Nat) : migOf (physPut s p a bs) id = migOf s id := by
  have bytes (bs : List Byte) (t : State) (a : Nat) : migOf (putPhys t p a bs) id = migOf t id := by
    induction bs generalizing t a with
    | nil => rfl
    | cons b r ih => rw [putPhys, ih, migOf_homePutByte]
  rw [physPut, bytes]
  exact foldSt_frame (migOf · id) (fun _ _ => migOf_of_pages (clearWord_pages ..) id) _ _

theorem migOf_writeState (s : State) (l : Leaf) (st : BitVec 3) (id : Nat) : migOf (writeState s l st) id = migOf s id := by
  unfold writeState
  split
  · rfl
  · exact migOf_physPut ..

theorem moveLine_pages (s : State) (m : Migration) (l : Leaf) (o : Nat) : (moveLine s m l o).pages = s.pages := by
  simp [moveLine]

theorem moveGranules_pages (s : State) (m : Migration) (gs : List Nat) : (moveGranules s m gs).pages = s.pages := by
  unfold moveGranules
  split
  · exact foldSt_frame State.pages (fun _ _ => (moveLine_pages ..).trans (moveLine_pages ..)) _ _
  · rfl

theorem migOf_recallPage (s : State) (l : Leaf) (id : Nat) : migOf (recallPage s l) id = migOf s id :=
  foldSt_frame (migOf · id) (fun _ _ => foldSt_frame (migOf · id) (fun _ _ =>
    (migOf_recallWord ..).trans (migOf_markDirty ..)) _ _) _ _

theorem migOf_modMig (s : State) (id : Nat) {f : Migration → Migration} (h : ∀ m, (f m).id = m.id)
    (hr : ∀ m, restOfMig (f (restOfMig m)) = restOfMig (f m)) :
    migOf (modMig s id f) id = (migOf s id).map fun m => restOfMig (f m) := by
  rw [migOf, getMig_modMig s id h, migOf, Option.map_map, Option.map_map]
  exact congrArg (Option.map · _) (funext fun m => (hr m).symm)

end requests

/-! ## The events -/

section events
variable {s t : State} {m : Migration} {l : Leaf} (hm : getMig s m.id = some m)
include hm

theorem migOf_same (h : migOf t m.id = migOf s m.id) : migOf t m.id = some (restOfMig m) := by
  rw [h, migOf, hm]
  rfl

theorem execRestripeCheck_waits (hs : m.stage ≠ .queued) : execRestripeCheck m.id s = .next s := by
  rw [execRestripeCheck, hm]
  exact if_pos hs

theorem execRestripeCheck_unknown (hs : m.stage = .queued) (hl : migLeaf s m = (t, none)) : execRestripeCheck m.id s = .next t := by
  simp only [execRestripeCheck, hm, hs, hl, ne_eq, not_true_eq_false, if_false]

theorem execRestripeCheck_refused {leaf : Option Leaf} {c : Byte} (hs : m.stage = .queued) (hl : migLeaf s m = (t, some leaf))
    (hc : migCode t m leaf = some c) : execRestripeCheck m.id s = .next (migFail t m c 0) := by
  simp only [execRestripeCheck, hm, hs, hl, hc, ne_eq, not_true_eq_false, if_false]

/-- A sound request starts to copy. -/
theorem execRestripeCheck_starts (hs : m.stage = .queued) (hl : migLeaf s m = (t, some (some l)))
    (hc : migCode t m (some l) = none) : ∃ u k, execRestripeCheck m.id s = .next u ∧ getMig u m.id = some k ∧
      k.stage = .copying ∧ k.old = some l ∧ k.pass = 0 := by
  have pages : t.pages = s.pages := by rw [← migLeaf_pages s m, hl]
  simp only [execRestripeCheck, hm, hs, hl, hc, ne_eq, not_true_eq_false, if_false]
  generalize hu : foldSt _ t (List.range (pageBytes l.size / 65536)) = u
  have owned : migOf u m.id = migOf t m.id := by
    rw [← hu]
    exact foldSt_frame (migOf · m.id) (fun _ _ => by split <;> rfl) _ _
  obtain ⟨k, hk, -⟩ := getMig_of_migOf (migOf_same hm ((migOf_writeState u l 1 m.id).trans (owned.trans (migOf_of_pages pages _))))
  refine ⟨_, _, rfl, (getMig_modMig _ _ (by exact fun _ => rfl)).trans (congrArg _ hk), rfl, rfl, rfl⟩

/-- The granules are copied, and the page goes on or is frozen (15 R374). -/
theorem execRestripePassEnd_due (ho : m.old = some l) (hs : m.stage = .copying) (hg : goesOn s m = true) :
    ∃ u k, execRestripePassEnd m.id s = .next u ∧ getMig u m.id = some k ∧ k.pass = m.pass + 1 ∧
      k.stage = if withinBound m then .frozen else .copying := by
  simp only [execRestripePassEnd, hm, event_due (show (decide (m.stage = .copying) && goesOn s m) = true by simp [hs, hg]), ho]
  generalize hc : moveGranules s m _ = c
  have copied : getMig c m.id = some m := by
    rw [← hc, getMig, moveGranules_pages]
    exact hm
  generalize hp : modMig c m.id _ = p
  have passed : getMig p m.id = some { m with pass := m.pass + 1, dirty := [] } := by
    rw [← hp, getMig_modMig _ _ (by exact fun _ => rfl), copied]
    rfl
  by_cases hb : withinBound m = true
  · simp only [hb, if_true]
    have frozen : migOf (recallPage (modMig (writeState p l 2) m.id fun m => { m with stage := .frozen }) l) m.id =
        some (restOfMig { m with pass := m.pass + 1, dirty := [], stage := .frozen }) := by
      rw [migOf_recallPage, migOf_modMig _ _ (by exact fun _ => rfl) (by exact fun _ => rfl), migOf_writeState, migOf, passed]
      rfl
    obtain ⟨k, hk, hr⟩ := getMig_of_migOf frozen
    exact ⟨_, k, rfl, hk, (congrArg Migration.pass hr :), (congrArg Migration.stage hr :)⟩
  · simp only [hb]
    exact ⟨_, _, rfl, passed, rfl, hs⟩

/-- The last granules are copied, and publishing starts with the shootdown (15 R375). -/
theorem execRestripeFinalCopy_due (ho : m.old = some l) (hs : m.stage = .frozen) (hg : goesOn s m = true) :
    ∃ u k, execRestripeFinalCopy m.id s = .next u ∧ getMig u m.id = some k ∧ k.stage = .publishing ∧ k.acks = [] := by
  simp only [execRestripeFinalCopy, hm, event_due (show (decide (m.stage = .frozen) && goesOn s m) = true by simp [hs, hg]), ho]
  generalize hd : dropTranslations _ _ = d
  have same : migOf d m.id = migOf s m.id := by
    rw [← hd, migOf_of_pages (dropTranslations_pages ..), migOf_writeState, migOf_of_pages (moveGranules_pages ..)]
  obtain ⟨k, hk, -⟩ := getMig_of_migOf (migOf_same hm same)
  exact ⟨_, _, rfl, (getMig_modMig _ _ (by exact fun _ => rfl)).trans (congrArg _ hk), rfl, rfl⟩

theorem execRestripeShootdownAck_due {c : Nat} (ho : m.old = some l) (hs : m.stage = .publishing) (hg : goesOn s m = true)
    (hu : m.acks.length = 195 → genInUse s m l = false) (hc : c < 196) (ha : tgetD false c m.acks = false)
    (hw : ∀ x ∈ tgetD [] c m.waiting, stillOut s x = false) : let m' := { m with acks := tput c true m.acks }
    execRestripeShootdownAck m.id c s = .next (if m'.acks.length = 196
      then migDone (publish (modMig s m.id fun _ => m') m' l) m' l else modMig s m.id fun _ => m') := by
  have out : (tgetD [] c m.waiting).any (stillOut s) = false := List.any_eq_false.mpr fun x hx => ne_true_of_eq_false (hw x hx)
  have gen : (decide (m.acks.length = 195) && genInUse s m l) = false := by
    by_cases h : m.acks.length = 195
    · rw [hu h, Bool.and_false]
    · rw [decide_eq_false h, Bool.false_and]
  simp only [execRestripeShootdownAck, hm, ho, Option.any_some]
  exact event_due (by simp only [hs, hg, hc, ha, out, gen, decide_true, Bool.not_false, Bool.and_self])

theorem execRestripeAbort_dieLost (ho : m.old = some l) (hs : m.stage ≠ .queued) (hd : lostDie s m = true) :
    execRestripeAbort m.id true s = .next (migFail (writeState s l 0) m 0x0A (stageCode m.stage)) := by
  simp only [execRestripeAbort, hm, ho]
  exact event_due (by simp [hs, hd])

theorem execRestripeAbort_frameBad (ho : m.old = some l) (hs : m.stage = .copying ∨ m.stage = .frozen)
    (hf : newFrameBad s m l = true) :
    execRestripeAbort m.id false s = .next (migFail (writeState s l 0) m 0x0C (stageCode m.stage)) := by
  simp only [execRestripeAbort, hm, ho]
  exact event_due (by simp [hs, hf])

end events

/-- The thread of a PGSCRUB. -/
def scanThread (x : ScanOp) : Waiting := { core := x.thread.core, who := x.thread.who, split := x.split }

/-- The thread of a PGSCRUB still waits for it. -/
def scanWaits (s : State) (x : ScanOp) : Bool :=
  match (scanThread x).who with
  | .grp _ => (waitingSplit s (scanThread x)).any fun y => y.wait = .scrub x.id
  | .fe => (getBlk s (scanThread x).core).any fun b => b.fe.wait = .scrub x.id

/-- A scan that every die has made clears the page's owner-lost bits (15 R381). -/
theorem execPgscrubScanDone_leaf {s t : State} {x : ScanOp} {l : Leaf}
    (hx : (s.flight.scans.find? fun y => y.id = x.id && y.dies.length = 4) = some x) (hw : scanWaits s x = true)
    (hq : (s.pages.queue.any fun q => migPage q x.ctx x.va) = false)
    (hl : askLeaf s x.thread.core x.ctx x.va = (t, some (.leaf l))) : execPgscrubScanDone x.id s = .next (endWait
      (scrubPage (modFlight t fun f => { f with scans := f.scans.filter fun y => y.id ≠ x.id }) l) (scanThread x)) := by
  have held : (!scanWaits s x || s.pages.queue.any fun q => migPage q x.ctx x.va) = false := by rw [hw, hq]; rfl
  rw [execPgscrubScanDone, hx]
  refine (if_neg (ne_true_of_eq_false held)).trans ?_
  rw [hl]
  rfl

/-- Settles O57: each stage by the equation of its step; a page's writes leave all of a request but its dirty granules. -/
theorem restripeEvents : Obligations.RestripeEvents := by
  unfold Obligations.RestripeEvents
  intro s m hm
  refine ⟨fun hs => ⟨fun t hl => execRestripeCheck_unknown hm hs hl, fun t leaf c hl hc => execRestripeCheck_refused hm hs hl hc,
      fun t l hl hc => execRestripeCheck_starts hm hs hl hc⟩, execRestripeCheck_waits hm, fun l ho => ?old, ?scrub⟩
  case old =>
    exact ⟨execRestripePassEnd_due hm ho, execRestripeFinalCopy_due hm ho,
      fun c hs hg hu hc ha hw => execRestripeShootdownAck_due hm ho hs hg hu hc ha hw, execRestripeAbort_dieLost hm ho,
      execRestripeAbort_frameBad hm ho⟩
  case scrub =>
    intro x l t hx w hw hq hl
    exact execPgscrubScanDone_leaf hx hw hq hl

end Sys2Proof.Machine
end

section
namespace Sys2Proof.Machine

/-! # The messaging instructions (16 R388 to R390, R393, R394, R398) -/

/-! ## Endpoint and buffer words (16 R388) -/

theorem endDev_eq (w : DWord) : endDev w = (w.extractLsb' 42 10).toNat := bitsOf_toNat w 51 42

theorem endCore_eq (w : DWord) : endCore w = (w.extractLsb' 32 8).toNat := bitsOf_toNat w 39 32

theorem bufLen_eq (w : DWord) : bufLen w = (w.extractLsb' 32 17).toNat := bitsOf_toNat w 48 32

theorem truncate_word (w : DWord) : (w.truncate 32 : Word) = w.extractLsb' 0 32 := BitVec.setWidth_eq_extractLsb' (by decide)

theorem endTag_eq (w : DWord) : endTag w = w.extractLsb' 0 32 := truncate_word w

theorem bufAddr_eq (w : DWord) : bufAddr w = w.extractLsb' 0 32 := truncate_word w

section checks
variable {s : State} {i : Iss}

/-- A buffer in the issuing core's own pool, on granules (16 R389). -/
def BufOk (s : State) (i : Iss) (w : DWord) : Prop :=
  (w.extractLsb' 0 32).toNat % 16 = 0 ∧ (w.extractLsb' 32 17).toNat % 16 = 0 ∧ ((w.extractLsb' 32 17).toNat ≠ 0 →
    ∃ off, poolTarget s (issCore i) (w.extractLsb' 0 32) (w.extractLsb' 32 17).toNat = some (issCore i, off))

/-- The barrier of a messaging instruction is an object of the block. -/
def BarOk (i : Iss) (bar : Option Nat) : Prop := ∀ k, bar = some k → k < (issBlk i).hdr.barriers

theorem bufChecks_misaligned {w : DWord} (h : (w.extractLsb' 0 32).toNat % 16 ≠ 0 ∨ (w.extractLsb' 32 17).toNat % 16 ≠ 0)
    (bar dev : Option Nat) (k : Eff) : bufChecks s i w bar dev k =
      .fault { code := 0x16, addr := ((w.extractLsb' 0 32 : Word)).zeroExtend 64 } := by
  rw [bufChecks, bufLen_eq, bufAddr_eq]
  exact if_pos (by simpa [aligned] using h)

theorem bufChecks_pass {w : DWord} (h : BufOk s i w) (bar dev : Option Nat) (k : Eff) :
    bufChecks s i w bar dev k = msgChecks s i bar dev k := by
  obtain ⟨ha, hl, ht⟩ := h
  have held : (decide (bufLen w ≠ 0) && (bufTarget s (issCore i) w).isNone) = false := by
    rw [bufLen_eq]
    by_cases h0 : (w.extractLsb' 32 17).toNat = 0
    · simp [h0]
    · obtain ⟨off, hoff⟩ := ht h0
      have target : bufTarget s (issCore i) w = some off := by
        rw [bufTarget, bufLen_eq, bufAddr_eq, hoff]
        exact if_pos rfl
      rw [target, Option.isNone_some, Bool.and_false]
  have granules : (!aligned (w.extractLsb' 0 32).toNat 16 || !aligned (w.extractLsb' 32 17).toNat 16) = false := by
    rw [aligned, aligned, ha, hl]
    rfl
  rw [bufChecks, held, bufLen_eq, bufAddr_eq, granules]
  rfl

theorem BarOk.inside {bar : Option Nat} (h : BarOk i bar) : (bar.filter fun n => decide ((issBlk i).hdr.barriers ≤ n)) = none := by
  rw [Option.filter_eq_none_iff]
  exact fun n hn => by simpa using h n hn

theorem msgChecks_pass {bar dev : Option Nat} (hb : BarOk i bar)
    (hd : ∀ d, dev = some d → d = s.host.devnum ∨ fabricEn s (issBlk i).ctx = true) (k : Eff) : msgChecks s i bar dev k = k := by
  have device : ((dev.any fun d => decide (d ≠ s.host.devnum)) && !fabricEn s (issBlk i).ctx) = false := by
    cases dev with
    | none => rfl
    | some d => rcases hd d rfl with h | h <;> simp [h]
  simp only [msgChecks, hb.inside, device, chk_false, chk_nil]

/-- A message to another device needs the context's permission (16 R389). -/
theorem msgChecks_permission {bar : Option Nat} {d : Nat} (hb : BarOk i bar) (hd : d ≠ s.host.devnum)
    (hf : fabricEn s (issBlk i).ctx = false) (k : Eff) : msgChecks s i bar (some d) k = .fault { code := 0x08 } := by
  simp only [msgChecks, hb.inside, Option.any_some, decide_eq_true hd, hf, Bool.not_false, Bool.and_self, chk_true]
  rfl

theorem sendHolds_pass {rel : Bool} (ha : issAcquires i = false) (hr : rel = true → faultUnreported s (issThread i) = false) (e : Eff) :
    heldBy (sendHolds s i rel) e = e := by
  refine heldBy_pass ha ?_ 14 14 e
  cases rel with
  | false => rfl
  | true => exact hr rfl

end checks

/-! ## MSEND (16 R390) -/

section msend
variable {s : State} {i : Iss} {p : BitVec 3} {a b : BitVec 6} {r x : BitVec 1} {n : BitVec 6}

/-- The entry that an MSEND takes. -/
def sendEntry (s : State) (i : Iss) (a b : Nat) (rel : Bool) (bar : Option Nat) : SendEntry :=
  { id := nextId s, wake := false, pc := issPc i, thread := issThread i, dstDev := ((opWide i a).extractLsb' 42 10).toNat
    dstCore := ((opWide i a).extractLsb' 32 8).toNat, tag := (opWide i a).extractLsb' 0 32, addr := (opWide i b).extractLsb' 0 32
    len := ((opWide i b).extractLsb' 32 17).toNat, va := 0, value := 0, rel := rel, bar := bar, after := nextId s }

variable (hi : SharedIssues s i true [(a.toNat, 2), (b.toNat, 2)] [a.toNat, b.toNat] (.dest p))
include hi

/-- An MSEND: its checks, its holds, and the entry it takes. -/
theorem execMsend_run : execMsend p a b r x n s = .next (endIss s i (
    bufChecks s i (opWide i b.toNat) (msgBar x n) (some (endDev (opWide i a.toNat))) <| heldBy (sendHolds s i (r = 1)) <|
      if 32 ≤ (getCore s (issCore i)).sends.length then .retire (putDest s i p.toNat false)
      else .retire (sendHeader (modSends (bumpId (putDest s i p.toNat true)) (issCore i) fun l =>
        l ++ [sendEntry s i a.toNat b.toNat (r = 1) (msgBar x n)]) (issCore i) (issBlk i).ctx
          (sendEntry s i a.toNat b.toNat (r = 1) (msgBar x n))))) := by
  have entry : sendEntry s i a.toNat b.toNat (r = 1) (msgBar x n) =
      { id := nextId s, wake := false, pc := issPc i, thread := issThread i, dstDev := endDev (opWide i a.toNat)
        dstCore := endCore (opWide i a.toNat), tag := endTag (opWide i a.toNat), addr := bufAddr (opWide i b.toNat)
        len := bufLen (opWide i b.toNat), va := 0, value := 0, rel := r = 1, bar := msgBar x n, after := nextId s } := by
    rw [sendEntry, endDev_eq, endCore_eq, endTag_eq, bufAddr_eq, bufLen_eq]
  rw [entry]
  exact sharedInstr_anyOne hi

theorem execMsend_misaligned (h : ((opWide i b.toNat).extractLsb' 0 32).toNat % 16 ≠ 0 ∨
    ((opWide i b.toNat).extractLsb' 32 17).toNat % 16 ≠ 0) : execMsend p a b r x n s =
      .next (issFault s { code := 0x16, addr := (((opWide i b.toNat).extractLsb' 0 32 : Word)).zeroExtend 64 } i) := by
  rw [execMsend_run hi, bufChecks_misaligned h, endIss_fault]

variable (hb : BufOk s i (opWide i b.toNat)) (hn : BarOk i (msgBar x n))
include hb hn

theorem execMsend_permission (hd : ((opWide i a.toNat).extractLsb' 42 10).toNat ≠ s.host.devnum)
    (hf : fabricEn s (issBlk i).ctx = false) : execMsend p a b r x n s = .next (issFault s { code := 0x08 } i) := by
  rw [execMsend_run hi, bufChecks_pass hb, endDev_eq, msgChecks_permission hn hd hf, endIss_fault]

theorem execMsend_checked (hd : ((opWide i a.toNat).extractLsb' 42 10).toNat = s.host.devnum ∨ fabricEn s (issBlk i).ctx = true)
    (ha : issAcquires i = false) (hr : r = 1 → faultUnreported s (issThread i) = false) : execMsend p a b r x n s = .next (
      if 32 ≤ (getCore s (issCore i)).sends.length then issRetire (putDest s i p.toNat false) i
      else issRetire (sendHeader (modSends (bumpId (putDest s i p.toNat true)) (issCore i) fun l =>
        l ++ [sendEntry s i a.toNat b.toNat (r = 1) (msgBar x n)]) (issCore i) (issBlk i).ctx
          (sendEntry s i a.toNat b.toNat (r = 1) (msgBar x n))) i) := by
  rw [execMsend_run hi, bufChecks_pass hb, endDev_eq, msgChecks_pass hn (by rintro d ⟨⟩; exact hd),
    sendHolds_pass ha (fun h => hr (of_decide_eq_true h))]
  split <;> rw [endIss_retire]

end msend

end Sys2Proof.Machine
end

section
namespace Sys2Proof.Machine

/-! # Receives, probes and wakes (16 R393, R394, R398) -/

section mrecv
variable {s : State} {i : Iss} {p : BitVec 3} {a b : BitVec 6} {j x : BitVec 1} {n : BitVec 6}

/-- The job that an MRECV names. -/
def recvJob (i : Iss) (a : Nat) (j : BitVec 1) : Option Nat :=
  if j = 0 then none else match i with
    | .grp c => some (vreg c (a + 2) 0).toNat
    | .fe c => some ((sreg c (a + 1)).extractLsb' 0 32).toNat

theorem recvJob_eq (i : Iss) (a : Nat) (j : BitVec 1) : recvJob i a j = if j = 1 then some (match i with
    | .grp c => (vreg c (a + 2) 0).toNat
    | .fe c => (low (sreg c (a + 1))).toNat) else none := by
  rcases BitVec.eq_zero_or_eq_one j with rfl | rfl
  · rfl
  · cases i with
    | grp c => rfl
    | fe c => exact congrArg (fun w : Word => some w.toNat) (truncate_word _).symm

/-- The receive that an MRECV posts. -/
def recvEntry (s : State) (ep bw : DWord) (bar job : Option Nat) : Recv :=
  { id := nextId s, anySrc := ep.getLsbD 52, dev := (ep.extractLsb' 42 10).toNat, core := (ep.extractLsb' 32 8).toNat
    tag := ep.extractLsb' 0 32, rsv := ep.extractLsb' 40 2, addr := bw.extractLsb' 0 32, len := (bw.extractLsb' 32 17).toNat
    bar := bar, job := job }

theorem recvEntry_eq (s : State) (ep bw : DWord) (bar job : Option Nat) : recvEntry s ep bw bar job = recvOf s ep bw bar job := by
  rw [recvEntry, recvOf, endDev_eq, endCore_eq, endTag_eq, bufAddr_eq, bufLen_eq]
  rfl

/-- A front-end names a job in the upper half of a register that is there. -/
def jobReg (i : Iss) (a : Nat) (j : BitVec 1) : Bool :=
  j = 1 && (match i with
    | .fe _ => true
    | .grp _ => false) && 62 < a

variable (hi : SharedIssues s i true [(a.toNat, if j = 1 then 3 else 2), (b.toNat, 2)]
  (if j = 1 then [a.toNat, a.toNat + 1, b.toNat] else [a.toNat, b.toNat]) (.dest p))
  (hb : BufOk s i (opWide i b.toNat)) (hn : BarOk i (msgBar x n))
include hi hb

/-- An MRECV with a legal buffer: its checks, its holds, and the receive it posts. -/
theorem execMrecv_run : execMrecv p a b j x n s = .next (endIss s i (
    msgChecks s i (msgBar x n) (some ((opWide i a.toNat).extractLsb' 42 10).toNat) <|
      chk [(((opWide i b.toNat).extractLsb' 32 17).toNat < 16, cMISALIGN), (jobReg i a.toNat j, cILLEGAL)] <|
        heldBy (sendHolds s i false) <|
          if 32 ≤ (getCore s (issCore i)).recvs.length then .retire (putDest s i p.toNat false)
          else .retire (postRecv (putDest s i p.toNat true) (issCore i)
            (recvEntry s (opWide i a.toNat) (opWide i b.toNat) (msgBar x n) (recvJob i a.toNat j))))) := by
  rw [← endDev_eq, ← bufLen_eq, ← bufChecks_pass hb, recvEntry_eq, recvJob_eq]
  rw [execMrecv, sharedInstr_anyOne hi]
  rfl

include hn

theorem execMrecv_permission (hd : ((opWide i a.toNat).extractLsb' 42 10).toNat ≠ s.host.devnum)
    (hf : fabricEn s (issBlk i).ctx = false) : execMrecv p a b j x n s = .next (issFault s { code := 0x08 } i) := by
  rw [execMrecv_run hi hb, msgChecks_permission hn hd hf, endIss_fault]

variable (hd : ((opWide i a.toNat).extractLsb' 42 10).toNat = s.host.devnum ∨ fabricEn s (issBlk i).ctx = true)
include hd

theorem execMrecv_short (hl : ((opWide i b.toNat).extractLsb' 32 17).toNat < 16) :
    execMrecv p a b j x n s = .next (issFault s { code := 0x16 } i) := by
  rw [execMrecv_run hi hb, msgChecks_pass hn (by rintro d ⟨⟩; exact hd), decide_eq_true hl, chk_true, endIss_fault]
  rfl

theorem execMrecv_checked (hl : 16 ≤ ((opWide i b.toNat).extractLsb' 32 17).toNat)
    (hj : ∀ c, i = .fe c → j = 1 → a.toNat ≤ 62) (ha : issAcquires i = false) : execMrecv p a b j x n s = .next (
      if 32 ≤ (getCore s (issCore i)).recvs.length then issRetire (putDest s i p.toNat false) i
      else issRetire (postRecv (putDest s i p.toNat true) (issCore i)
        (recvEntry s (opWide i a.toNat) (opWide i b.toNat) (msgBar x n) (recvJob i a.toNat j))) i) := by
  have reg : jobReg i a.toNat j = false := by
    cases i with
    | grp c => simp [jobReg]
    | fe c =>
      by_cases h : j = 1
      · simp [jobReg, h, hj c rfl h]
      · rw [jobReg, decide_eq_false h]
        rfl
  rw [execMrecv_run hi hb, msgChecks_pass hn (by rintro d ⟨⟩; exact hd), decide_eq_false (Nat.not_lt.mpr hl), reg, chk_false, chk_false,
    chk_nil, sendHolds_pass ha (fun h => absurd h Bool.false_ne_true)]
  split <;> rw [endIss_retire]

end mrecv

/-! ## MPROBE and MCANCEL (16 R394) -/

section probes
variable {s : State} {i : Iss} {p : BitVec 3} {a d : BitVec 6}

theorem BarOk.none (i : Iss) : BarOk i none := fun _ h => nomatch h

/-- What MPROBE reads: the oldest matching header's length, how many match, how many receives are posted for the word. -/
def probeWord (s : State) (i : Iss) (ep : DWord) : DWord :=
  let hit := (getCore s (issCore i)).overflow.filter (recvMatches (recvOf s ep 0 none none))
  BitVec.ofNat 32 ((hit.head?.map MsgHeader.len).getD 0) ++ (0 : BitVec 16) ++ BitVec.ofNat 8 hit.length
    ++ BitVec.ofNat 8 ((getCore s (issCore i)).recvs.filter fun r => sameWord r ep).length

theorem execMprobe_run (hi : SharedIssues s i false [(d.toNat, 2), (a.toNat, 2)] [d.toNat, a.toNat] (.dest p)) :
    execMprobe p d a s = .next (endIss s i (msgChecks s i none (some ((opWide i a.toNat).extractLsb' 42 10).toNat) <|
      .retire (putDest (putWide s i d.toNat (probeWord s i (opWide i a.toNat))) i p.toNat
        (!((getCore s (issCore i)).overflow.filter (recvMatches (recvOf s (opWide i a.toNat) 0 none none))).isEmpty)))) := by
  rw [← endDev_eq]
  exact sharedInstr_anyOne hi

theorem execMcancel_run (hi : SharedIssues s i false [(a.toNat, 2)] [a.toNat] (.dest p)) : execMcancel p a s = .next (endIss s i (
    msgChecks s i none (some ((opWide i a.toNat).extractLsb' 42 10).toNat) <|
      match (getCore s (issCore i)).recvs.find? fun r => sameWord r (opWide i a.toNat) with
      | some r => .retire (putDest (modRecvs s (issCore i) fun l => l.filter fun e => e.id ≠ r.id) i p.toNat true)
      | none => .retire (putDest s i p.toNat false))) := by
  rw [← endDev_eq]
  exact sharedInstr_anyOne hi

/-- A header matches a match word (16 R391). -/
theorem recvMatches_word (s : State) (ep : DWord) : recvMatches (recvOf s ep 0 none none) = fun h =>
    decide (h.tag = ep.extractLsb' 0 32) && (ep.getLsbD 52 || (decide (h.srcDev = (ep.extractLsb' 42 10).toNat) &&
      decide (h.srcCore = (ep.extractLsb' 32 8).toNat))) := by
  funext h
  rw [← recvEntry_eq, recvMatches, recvEntry]
  simp only [eq_comm]

end probes

/-! ## MWAKE (16 R398) -/

section mwake
variable {s : State} {i : Iss} {p : BitVec 3} {a b : BitVec 6} {r x : BitVec 1} {n : BitVec 6}
variable (hi : SharedIssues s i true [(a.toNat, 2), (b.toNat, 2)] [a.toNat, b.toNat] (.dest p))
include hi

theorem execMwake_misaligned (h : (opWide i a.toNat).toNat % 8 ≠ 0) :
    execMwake p a b r x n s = .next (issFault s { code := 0x16, addr := opWide i a.toNat } i) := by
  have odd : (!aligned (opWide i a.toNat).toNat 8) = true := by simpa [aligned] using h
  refine (sharedInstr_anyOne hi).trans ?_
  simp only [odd, if_true, endIss_fault]
  rfl

/-- The entry that an MWAKE takes. -/
def wakeEntry (t : State) (i : Iss) (va value : DWord) (rel : Bool) (bar : Option Nat) : SendEntry :=
  { id := nextId t, wake := true, pc := issPc i, thread := issThread i, dstDev := t.host.devnum, dstCore := issCore i, tag := 0
    addr := 0, len := 8, va := va, value := value, rel := rel, bar := bar, after := nextId t }

theorem execMwake_leaf {t : State} {l : Leaf} (h : (opWide i a.toNat).toNat % 8 = 0) (hn : BarOk i (msgBar x n))
    (ha : issAcquires i = false) (hr : r = 1 → faultUnreported s (issThread i) = false)
    (hl : askLeaf s (issCore i) (issBlk i).ctx (opWide i a.toNat).toNat = (t, some (.leaf l)))
    (hw : leafRight l false true false = none) : execMwake p a b r x n s = .next (
      if 32 ≤ (getCore t (issCore i)).sends.length then issRetire (putDest t i p.toNat false) i
      else issRetire (sendWake (modSends (bumpId (putDest t i p.toNat true)) (issCore i) fun l =>
        l ++ [wakeEntry t i (opWide i a.toNat) (opWide i b.toNat) (r = 1) (msgBar x n)]) i
          (wakeEntry t i (opWide i a.toNat) (opWide i b.toNat) (r = 1) (msgBar x n)) (opWide i a.toNat).toNat) i) := by
  have even : (!aligned (opWide i a.toNat).toNat 8) = false := by simp [aligned, h]
  refine (sharedInstr_anyOne hi).trans ?_
  simp only [even, Bool.false_eq_true, if_false, msgChecks_pass (dev := none) hn (by simp),
    sendHolds_pass ha (fun h => hr (of_decide_eq_true h)), hl, hw]
  split
  · rw [endIss_retire]
  · rw [endIss_retire]
    rfl

end mwake

/-- Settles O53: the checks of 16 R389 pass or fault in lemmas of their own; each instruction is then one equation. -/
theorem messageInstructionsComplete : Obligations.MessageInstructionsComplete := by
  unfold Obligations.MessageInstructionsComplete
  intro s i p a b d r x j n me core ep bw dev any bar len addr done barOk bufOk devOk
  have device : devOk → ∀ d, some dev = some d → d = s.host.devnum ∨ fabricEn s (issBlk i).ctx = true := by
    rintro h d ⟨⟩
    exact h
  refine ⟨fun hi => ⟨execMsend_misaligned hi, execMsend_permission hi, ?send⟩, ?recv,
    fun hd hf => ⟨fun hi => ?probeOut, fun hi => ?cancelOut⟩, ?probe, ?cancel, fun hi => ⟨execMwake_misaligned hi, ?wake⟩⟩
  case send =>
    intro hb hn hd ha hr
    have run := execMsend_checked (x := x) (n := n) hi hb hn hd ha hr
    exact ⟨fun h => run.trans (congrArg _ (if_pos h)), fun h => run.trans (congrArg _ (if_neg (Nat.not_le.mpr h)))⟩
  case recv =>
    intro na job hi hb hn
    refine ⟨execMrecv_permission hi hb hn, fun hd hl => execMrecv_short hi hb hn hd hl, fun hd hl hj ha => ?_⟩
    have run := execMrecv_checked hi hb hn hd hl hj ha
    exact ⟨fun h => run.trans (congrArg _ (if_pos h)), fun h => run.trans (congrArg _ (if_neg (Nat.not_le.mpr h)))⟩
  case probeOut =>
    refine (execMprobe_run hi).trans ?_
    rw [msgChecks_permission (BarOk.none i) hd hf, endIss_fault]
  case cancelOut =>
    refine (execMcancel_run hi).trans ?_
    rw [msgChecks_permission (BarOk.none i) hd hf, endIss_fault]
  case probe =>
    intro hi hd k hit posted first
    refine (execMprobe_run hi).trans ?_
    rw [msgChecks_pass (BarOk.none i) (device hd), endIss_retire, probeWord, recvMatches_word]
  case cancel =>
    intro hi hd
    have run := execMcancel_run hi
    rw [msgChecks_pass (BarOk.none i) (device hd)] at run
    exact ⟨fun y hy => run.trans (by rw [hy, endIss_retire]), fun hy => run.trans (by rw [hy, endIss_retire])⟩
  case wake =>
    intro h hn ha hr t l hl hw
    have run := execMwake_leaf (b := b) hi h hn ha hr hl hw
    exact ⟨fun h => run.trans (congrArg _ (if_pos h)), fun h => run.trans (congrArg _ (if_neg (Nat.not_le.mpr h)))⟩

end Sys2Proof.Machine
end

section
namespace Sys2Proof.Machine

/-! # Links, the time, the reset of a die, requests of a peer (16 R383, R385, R387, R398 to R401) -/

/-! ## The state of a link -/

section links
variable {s t : State} {l : Nat} {link : BitVec 5}

@[simp] theorem getLink_modLink (s : State) (l : Nat) (f : LinkSt → LinkSt) : getLink (modLink s l f) l = f (getLink s l) := by
  simp only [getLink, modLink, tgetD, tfind_tput_same, Option.getD_some]

/-- The end of a time lock changes the state of no link. -/
theorem state_unlocked (h : t.links = s.links.map fun e => (e.1, { e.2 with tsync := false, locked := false })) (l : Nat) :
    (getLink t l).state = (getLink s l).state := by
  have found := tfind_map (k := l) (f := fun k : LinkSt => { k with tsync := false, locked := false }) (t := s.links)
  rw [getLink, tgetD, h, found, getLink, tgetD]
  cases tfind l s.links <;> rfl

@[simp] theorem state_setLink (s : State) (l : Nat) (st : LinkState) : (getLink (setLink s l st) l).state = st := by
  simp only [setLink]
  split
  · rw [getLink_modLink]
  · exact (state_unlocked rfl l).trans (by rw [getLink_modLink])

theorem state_beginTraining (s : State) (l : Nat) : (getLink (beginTraining s l) l).state = .training := by
  rw [beginTraining, getLink_modLink]
  exact state_setLink ..

theorem state_beginRetraining (s : State) (l : Nat) : (getLink (beginRetraining s l) l).state = .retraining := by
  rw [beginRetraining, getLink_modLink]
  exact state_setLink ..

/-! ## Commands (16 R383, R384) -/

theorem execLinkEnable_commanded (h : linkCommanded s link.toNat = true) : execLinkEnable link s = .next (
    match (getLink s link.toNat).state with
    | .down => beginTraining s link.toNat
    | .failed => beginTraining s link.toNat
    | .quiesced => beginRetraining s link.toNat
    | _ => s) := event_due h

theorem execLinkDisable_commanded (h : linkCommanded s link.toNat = true) : execLinkDisable link s = .next (
    match (getLink s link.toNat).state with
    | .quiesced => setLink s link.toNat .down
    | .failed => setLink s link.toNat .down
    | _ => s) := event_due h

theorem quiesceLink_notUp (h : (getLink s l).state ≠ .up) : quiesceLink s l = s :=
  if_neg fun e => h (of_decide_eq_true e)

/-! ## Training (16 R383) -/

/-- A link trains. -/
def Trains (s : State) (l : Nat) : Prop := (getLink s l).state = .training ∨ (getLink s l).state = .retraining

theorem execTrainingSuccess_inTime (hl : link.toNat ≤ 16) (ht : Trains s link.toNat)
    (hs : s.clk.gts.toNat < (getLink s link.toNat).since + 10000000) :
    ∃ u, execTrainingSuccess link s = .next u ∧ (getLink u link.toNat).state = .up := by
  refine ⟨_, event_due ?_, ?_⟩
  · simpa [hl, trainingLimit, hs, Trains] using ht
  · rw [getLink_modLink]
    exact state_setLink ..

theorem execTrainingSuccess_late (hs : (getLink s link.toNat).since + 10000000 ≤ s.clk.gts.toNat) :
    execTrainingSuccess link s = .next s := event_not_due (by
  rw [Bool.and_eq_false_iff]
  exact .inr (decide_eq_false (Nat.not_lt.mpr hs)))

theorem execTrainingFailure_trains (hl : link.toNat ≤ 16) (ht : Trains s link.toNat) : execTrainingFailure link s = .next (
    if 8 ≤ (getLink s link.toNat).attempts + 1 ∨ (getLink s link.toNat).since + 10000000 ≤ s.clk.gts.toNat
    then failLink (modLink s link.toNat fun k => { k with attempts := k.attempts + 1 }) link.toNat
    else modLink s link.toNat fun k => { k with attempts := k.attempts + 1 }) := by
  refine (event_due (by simpa [hl, Trains] using ht)).trans (congrArg _ (if_congr ?_ rfl rfl))
  rw [Bool.or_eq_true, decide_eq_true_eq, decide_eq_true_eq]
  rfl

theorem execLinkQuiesced_quiet (hs : (getLink s link.toNat).state = .quiescing) (hq : linkQuiet s link.toNat = true) :
    execLinkQuiesced link s = .next (setLink s link.toNat .quiesced) := event_due (by simp [hs, hq])

theorem execReplayLimit_due (hl : link.toNat ≤ 16) (hs : (getLink s link.toNat).state = .up)
    (hr : 16 ≤ (getLink s link.toNat).replayRun) :
    execReplayLimit link s = .next (endUnrouted (beginRetraining s link.toNat)) := event_due (by simp [hl, linkUp, hs, hr])

theorem execCrcFailure_carries (hl : link.toNat ≤ 16)
    (hs : (getLink s link.toNat).state = .up ∨ (getLink s link.toNat).state = .quiescing) :
    ∃ u, execCrcFailure link s = .next u ∧ (getLink u link.toNat).replays = min ((getLink s link.toNat).replays + 1) 0xFFFF ∧
      (getLink u link.toNat).replayRun = if (freshValue s).getLsbD 0 then (getLink s link.toNat).replayRun + 1 else 1 := by
  have sent : carries (getLink s link.toNat).state = true := by rcases hs with h | h <;> rw [h] <;> rfl
  refine ⟨_, event_due (by simp [hl, sent]), ?_, ?_⟩
  · rw [getLink_modLink]
    rfl
  · rw [getLink_modLink]
    rfl

/-! ## Time (16 R399) -/

/-- The better of two links on the way to the master: the nearer, the first of equal ones. -/
def nearer (s : State) (b : Option Nat) (l : Nat) : Option Nat :=
  if !linkUp s l then b else match b with
    | some x => if Config.masterHops l < Config.masterHops x then some l else b
    | none => some l

/-- The best link so far: one of those seen that are UP, and none of them is nearer. -/
def Nearest (s : State) (seen : List Nat) : Option Nat → Prop
  | none => ∀ m ∈ seen, linkUp s m = false
  | some j => j ∈ seen ∧ linkUp s j = true ∧ ∀ m ∈ seen, linkUp s m = true → Config.masterHops j ≤ Config.masterHops m

theorem nearest_nearer {seen : List Nat} {b : Option Nat} (h : Nearest s seen b) (l : Nat) :
    Nearest s (seen ++ [l]) (nearer s b l) := by
  have all {P : Nat → Prop} (hs : ∀ m ∈ seen, P m) (hl : P l) : ∀ m ∈ seen ++ [l], P m := by
    simpa [or_imp, forall_and] using ⟨hs, hl⟩
  unfold nearer
  cases up : linkUp s l with
  | false =>
    cases b with
    | none => exact all h up
    | some j =>
      obtain ⟨hj, hu, hm⟩ := h
      exact ⟨List.mem_append_left _ hj, hu, all hm fun e => absurd (up ▸ e) Bool.false_ne_true⟩
  | true =>
    cases b with
    | none => exact ⟨by simp, up, all (fun m hm e => absurd (h m hm ▸ e) Bool.false_ne_true) fun _ => le_rfl⟩
    | some j =>
      obtain ⟨hj, hu, hm⟩ := h
      simp only [Bool.not_true, Bool.false_eq_true, if_false]
      split
      next lt => exact ⟨by simp, up, all (fun m h e => (Nat.le_of_lt lt).trans (hm m h e)) fun _ => le_rfl⟩
      next ge => exact ⟨List.mem_append_left _ hj, hu, all hm fun _ => Nat.not_lt.mp ge⟩

theorem nearest_foldl (l seen : List Nat) {b : Option Nat} (h : Nearest s seen b) :
    Nearest s (seen ++ l) (l.foldl (nearer s) b) := by
  induction l generalizing seen b with
  | nil => rwa [List.append_nil]
  | cons m r ih => simpa using ih (seen ++ [m]) (nearest_nearer h m)

/-- The link nearest the master is a fabric link that is UP, and no other one is nearer. -/
theorem masterLink_nearest {j : Nat} (h : masterLink s = some j) : 4 ≤ j ∧ j < 16 ∧ (getLink s j).state = .up ∧
    ∀ m, 4 ≤ m → m < 16 → (getLink s m).state = .up → Config.masterHops j ≤ Config.masterHops m := by
  have best := nearest_foldl (s := s) ((List.range 12).map (· + 4)) [] (b := none) (fun _ h => nomatch h)
  have fabric (m : Nat) : m ∈ (List.range 12).map (· + 4) ↔ 4 ≤ m ∧ m < 16 := by
    simp only [List.mem_map, List.mem_range]
    exact ⟨fun ⟨i, hi, e⟩ => by omega, fun ⟨h4, h16⟩ => ⟨m - 4, by omega, by omega⟩⟩
  have found : ((List.range 12).map (· + 4)).foldl (nearer s) none = some j := h
  rw [found] at best
  obtain ⟨hj, hu, hm⟩ := best
  obtain ⟨h4, h16⟩ := (fabric j).mp hj
  exact ⟨h4, h16, of_decide_eq_true hu, fun m h4 h16 hs => hm m ((fabric m).mpr ⟨h4, h16⟩) (decide_eq_true hs)⟩

theorem execTimeExchange_idle (t1 t2 t3 t4 : BitVec 64) (h : masterLink s ≠ some link.toNat ∨ s.host.tmaster = true ∨
    s.clk.gts.toNat < s.clk.exchanged + 4096) : execTimeExchange link t1 t2 t3 t4 s = .next s := by
  refine event_not_due ?_
  rcases h with h | h | h
  · simp [h]
  · simp [h]
  · simp [Nat.not_le.mpr h]

/-- The state after a time exchange with an offset. -/
def exchanged (s : State) (l : Nat) (o : Int) : State :=
  let held := s.links.any fun e => e.2.tsync
  let c := if !timeLocked s && 4096 < o then { s.clk with gts := s.clk.gts + BitVec.ofInt 64 o, slew := 0 } else { s.clk with slew := o }
  modLink { s with links := s.links.map fun e => (e.1, { e.2 with tsync := false, locked := false })
                   clk := { c with exchanged := c.gts.toNat } } l fun k =>
    { k with locked := true, tsync := o.natAbs ≤ 4 || (held && o.natAbs ≤ 8) }

theorem execTimeExchange_due (t1 t2 t3 t4 : BitVec 64) (hm : masterLink s = some link.toNat) (ht : s.host.tmaster = false)
    (he : s.clk.exchanged + 4096 ≤ s.clk.gts.toNat) :
    execTimeExchange link t1 t2 t3 t4 s = .next (exchanged s link.toNat (((t2 - t1).toInt + (t3 - t4).toInt) / 2)) :=
  event_due (by simp [hm, ht, he])

/-- A large offset is removed by one step when no lock is held; otherwise the clock slews. -/
theorem exchanged_clk (s : State) (l : Nat) (o : Int) :
    (timeLocked s = false → 4096 < o → (exchanged s l o).clk.gts = s.clk.gts + BitVec.ofInt 64 o ∧ (exchanged s l o).clk.slew = 0) ∧
    (timeLocked s = true ∨ o ≤ 4096 → (exchanged s l o).clk.gts = s.clk.gts ∧ (exchanged s l o).clk.slew = o) := by
  refine ⟨fun hl ho => ?_, fun h => ?_⟩
  · have step : (!timeLocked s && decide (4096 < o)) = true := by simp [hl, ho]
    simp only [exchanged, step, if_true, modLink_clk, and_self]
  · have slews : (!timeLocked s && decide (4096 < o)) = false := by
      rcases h with h | h
      · simp [h]
      · simp [Int.not_lt.mpr h]
    simp only [exchanged, slews, Bool.false_eq_true, if_false, modLink_clk, and_self]

theorem exchanged_exchanged (s : State) (l : Nat) (o : Int) : (exchanged s l o).clk.exchanged = (exchanged s l o).clk.gts.toNat := by
  simp only [exchanged, modLink_clk]

/-- The lock and the sync bit of the link of the exchange. -/
theorem exchanged_link (s : State) (l : Nat) (o : Int) : (getLink (exchanged s l o) l).locked = true ∧
    (o.natAbs ≤ 4 → (getLink (exchanged s l o) l).tsync = true) ∧ (8 < o.natAbs → (getLink (exchanged s l o) l).tsync = false) := by
  simp only [exchanged, getLink_modLink]
  refine ⟨trivial, fun h => by simp [h], fun h => ?_⟩
  simp [Nat.not_le.mpr h, show ¬o.natAbs ≤ 4 by omega]

end links

/-! ## The warm reset of a die (16 R400, R401) -/

section dieReset
variable {s : State}

@[simp] theorem preemptCluster_dreset (s : State) (n : Nat) : (preemptCluster s n).dreset = s.dreset := by
  unfold preemptCluster
  split
  · split
    · refine (foldSt_frame State.dreset ?_ _ _).trans (modCl_dreset ..)
      exact fun _ _ => modBlk_dreset ..
    · rfl
  · rfl

/-- The sequence of a die that has just begun. -/
theorem startReset_dreset (s : State) (d : BitVec 2) : (startReset s d).dreset =
    { reg := d, die := d, step := 1, busy := true, assisted := !s.mode.getLsbD 4
      lost := if s.dreset.die = d then s.dreset.lost else [] } :=
  (foldSt_frame State.dreset preemptCluster_dreset _ _).trans (modDie_dreset ..)

theorem execDieResetStart_ignored {die : BitVec 2} (h : s.dreset.busy = true ∨ lastAdmitted s die.toNat = true) :
    execDieResetStart die s = .next { s with dreset := { s.dreset with reg := die } } :=
  congrArg _ (if_pos (Bool.or_eq_true _ _ ▸ h))

theorem execDieResetStart_begins {die : BitVec 2} (hb : s.dreset.busy = false) (ha : lastAdmitted s die.toNat = false) :
    execDieResetStart die s = .next (startReset s die) := congrArg _ (if_neg (by simp [hb, ha]))

theorem execDieResetContinue_held (hb : s.dreset.busy = true) (hh : s.dreset.held = true) :
    execDieResetContinue s = .next (resetAdvance s) := event_due (by simp [hb, hh])

theorem execDieResetContinue_not_held (h : s.dreset.busy = false ∨ s.dreset.held = false) : execDieResetContinue s = .next s :=
  event_not_due (by rcases h with h | h <;> simp [h])

theorem resetAdvance_step (h : s.dreset.step < 10) : resetAdvance s =
    resetStep { s with dreset := { s.dreset with step := s.dreset.step + 1, held := false } } s.dreset.die.toNat (s.dreset.step + 1) :=
  if_neg (by omega)

/-- The sequence ends after its tenth step. -/
theorem resetAdvance_end (h : s.dreset.step = 10) : (resetAdvance s).dreset.busy = false := by
  rw [resetAdvance, h]
  rfl

end dieReset

/-! ## Requests of a peer (16 R387, R398) -/

section peer
variable {s : State} {link : BitVec 5} {op : BitVec 4} {addr : BitVec 52} {data : List (BitVec 8)}

/-- What a peer's request does that is taken. -/
def peerEffect (s : State) (kind : BitVec 2) (op : BitVec 4) (a : Nat) (data : List Byte) : State :=
  match kind.toNat with
  | 1 => peerAtomic s op a data
  | 2 => peerWake s a data
  | 3 => if fieldAt data 0 2 % 1024 = s.host.devnum then s else peerHeader s data
  | _ => s

theorem execPeerRequest_taken (h4 : 4 ≤ link.toNat) (h16 : link.toNat < 16) (hu : linkUp s link.toNat = true)
    (hf : frozenAt s windowPlace addr.toNat = false) (hd : homeIsDown s windowPlace addr.toNat = false)
    (ht : throttledAt s windowPlace addr.toNat = false) (kind : BitVec 2) :
    execPeerRequest link kind op addr data s = .next (peerEffect s kind op addr.toNat data) :=
  event_due (by simp [h4, h16, hu, hf, hd, ht])

theorem peerWake_beyond {a : Nat} (h : inWindow s a 8 = false) : peerWake s a data = s := if_pos (by simp [h])

theorem peerAtomic_beyond {a : Nat} (h : inWindow s a (atomicSize op) = false) : peerAtomic s op a data = s := if_pos (by simp [h])

end peer

/-! ## The obligation -/

section commands
variable {s : State} {link : BitVec 5} (hc : linkCommanded s link.toNat = true)
include hc

theorem execLinkEnable_trains (h : (getLink s link.toNat).state = .down ∨ (getLink s link.toNat).state = .failed) :
    execLinkEnable link s = .next (beginTraining s link.toNat) := by
  rw [execLinkEnable_commanded hc]
  rcases h with h | h <;> rw [h]

theorem execLinkEnable_retrains (h : (getLink s link.toNat).state = .quiesced) :
    execLinkEnable link s = .next (beginRetraining s link.toNat) := by
  rw [execLinkEnable_commanded hc, h]

theorem execLinkQuiesce_commanded : execLinkQuiesce link s = .next (quiesceLink s link.toNat) := event_due hc

theorem execLinkDisable_takesDown (h : (getLink s link.toNat).state = .quiesced ∨ (getLink s link.toNat).state = .failed) :
    execLinkDisable link s = .next (setLink s link.toNat .down) := by
  rw [execLinkDisable_commanded hc]
  rcases h with h | h <;> rw [h]

theorem execLinkDisable_ignored (hq : (getLink s link.toNat).state ≠ .quiesced) (hf : (getLink s link.toNat).state ≠ .failed) :
    execLinkDisable link s = .next s := by
  rw [execLinkDisable_commanded hc]
  split
  next h => exact absurd h hq
  next h => exact absurd h hf
  next => rfl

end commands

/-- Settles O59: each event of a link, of the die-reset sequencer and of a peer by the lemma of its case. -/
theorem linkEvents : Obligations.LinkEvents := by
  unfold Obligations.LinkEvents
  refine ⟨fun s link hl => ?links, fun s => ?dies, fun s link op addr data h4 h16 hu hf hd ht => ?peers⟩
  case links =>
    refine ⟨fun hc => ?commands, fun ht => ?training, fun hs hq => ⟨_, execLinkQuiesced_quiet hs hq, state_setLink ..⟩,
      execReplayLimit_due hl, execCrcFailure_carries hl, execTimeExchange_idle, fun j hj => masterLink_nearest hj,
      fun t1 t2 t3 t4 hm ht he => ?exchange⟩
    case commands =>
      refine ⟨fun h => ⟨execLinkEnable_trains hc h, state_beginTraining ..⟩,
        fun h => ⟨execLinkEnable_retrains hc h, state_beginRetraining ..⟩, fun _ => execLinkQuiesce_commanded hc, fun h => ?_,
        fun h => ⟨_, execLinkDisable_takesDown hc h, state_setLink ..⟩, execLinkDisable_ignored hc⟩
      exact (execLinkQuiesce_commanded hc).trans (congrArg _ (quiesceLink_notUp h))
    case training =>
      refine ⟨execTrainingSuccess_inTime hl ht, execTrainingSuccess_late, fun h => ?_, fun ha hs => ?_⟩
      · exact (execTrainingFailure_trains hl ht).trans (congrArg _ (if_pos h))
      · exact (execTrainingFailure_trains hl ht).trans (congrArg _ (if_neg (by omega)))
    case exchange =>
      intro o
      obtain ⟨steps, slews⟩ := exchanged_clk s link.toNat o
      obtain ⟨locked, sync, unsync⟩ := exchanged_link s link.toNat o
      exact ⟨_, execTimeExchange_due t1 t2 t3 t4 hm ht he, locked, steps, slews, exchanged_exchanged .., sync, unsync⟩
  case dies =>
    refine ⟨fun die => execDieResetStart_ignored, fun die hb ha => ?_, fun hb hh h => ?_, fun hb hh h => ?_,
      execDieResetContinue_not_held⟩
    · have started := startReset_dreset s die
      exact ⟨execDieResetStart_begins hb ha, by rw [started], by rw [started], by rw [started]⟩
    · exact ⟨_, execDieResetContinue_held hb hh, resetAdvance_step h⟩
    · exact ⟨_, execDieResetContinue_held hb hh, resetAdvance_end h⟩
  case peers =>
    have taken := execPeerRequest_taken (op := op) (data := data) h4 h16 hu hf hd ht
    exact ⟨taken 0, taken 1, taken 2, fun h => (taken 3).trans (congrArg _ (if_neg h)), peerWake_beyond, peerAtomic_beyond⟩

end Sys2Proof.Machine
end


section
namespace Sys2Proof.Machine

/-! # Service requests and their routes (01 R10, 04 R110, R113) -/

/-! ## GKILL sends a request -/

section gkill
variable {s : State} {i : Iss}

@[simp] theorem startWait_flight (s : State) (i : Iss) (w : Wait) : (startWait s i w).flight = s.flight := by cases i <;> rfl

@[simp] theorem issWait_flight (s : State) (i : Iss) : (issWait s i).flight = s.flight := by cases i <;> rfl

/-- The request that a thread sends to a handle's core, with the route it takes. -/
def serviceSent (s : State) (i : Iss) (pd : BitVec 3) (h : Word) (kind : Nat) (sel : BitVec 9) (dst : Word) : Service :=
  { id := nextId s, src := issThread i, split := issSplit i, pd := pd, handle := h, kind := kind, sel := sel, dst := dst
    via := handleCore h < 192 && viaOf s (coreDie (issCore i)) (coreDie (handleCore h)) }

/-- A service request that finds a route is under way after all those before it. -/
theorem sendService_routed {pd : BitVec 3} {h : Word} {kind : Nat} {sel : BitVec 9} {dst : Word}
    (hr : handleCore h < 192 → routeUp s (coreDie (issCore i)) (coreDie (handleCore h)) = true) :
    ∃ u, sendService s i pd h kind sel dst = .wait u ∧
      u.flight.services = s.flight.services ++ [serviceSent s i pd h kind sel dst] := by
  refine ⟨_, if_neg ?_, congrArg Flight.services (startWait_flight ..)⟩
  rw [Bool.and_eq_true, decide_eq_true_eq]
  exact fun ⟨inside, down⟩ => by simp [hr inside] at down

/-- GKILL of a privileged context sends its request. -/
theorem execGkill_sends {p : BitVec 3} {a : BitVec 6} (hi : SharedIssues s i false [(a.toNat, 1)] [a.toNat] (.dest p))
    (hp : privileged s (issCore i) = true)
    (hr : handleCore (opWord i a.toNat) < 192 →
      routeUp s (coreDie (issCore i)) (coreDie (handleCore (opWord i a.toNat))) = true) :
    ∃ u, execGkill p a s = .next u ∧
      u.flight.services = s.flight.services ++ [serviceSent s i p (opWord i a.toNat) 2 0 0] := by
  obtain ⟨u, sent, services⟩ := sendService_routed (pd := p) (kind := 2) (sel := 0) (dst := 0) hr
  have right : serviceRight s (issCore i) = true := by rw [serviceRight, hp, Bool.true_or]
  have allowed : ¬((!handleAllowed s i (opWord i a.toNat)) = true) := by simp [handleAllowed, hp]
  refine ⟨issWait u i, ?_, by rw [issWait_flight, services]⟩
  rw [execGkill, actOn, sharedInstr_run hi rfl (fun _ _ => rfl) right, if_neg allowed, sent, endIss_wait]

end gkill

/-! ## The counterexample: a request between diagonal dies by the second route -/

/-- A front-end of a privileged context on die 0 whose s60 names core 144, on die 3; seam S01 is down, S23 and S02 are UP, so
that the one route between the two dies leads over the vertical seam first. -/
def detourS : State :=
  let s := modCtx { placeWord State.reset 0x01000000 with cur := ⟨0, .fe, 0⟩ } 0 fun c => { c with mode := 1 }
  writeS { s with links := [(1, { state := .up }), (2, { state := .up }), (3, { state := .up })] } 0 60 0x90

theorem detourS_issues : (feCtx detourS).any (fun c => c.blk.fe.pre.lit.isNone && !sregsPending detourS c [60]
    && privileged detourS c.core && decide (opWord (.fe c) 60 = 0x90) && decide (c.core = 0)) = true := by decide +kernel

theorem detourS_routes : routeUp detourS 0 3 = true ∧ viaOf detourS 0 3 = true := by decide +kernel

/-- Refutes O55: the statement gives a request of GKILL no route of its own (via false), but between diagonal dies a request
whose first route is down carries the other one (01 R10), and GKILL sends it so. -/
theorem not_systemInstructionsComplete : ¬ Obligations.SystemInstructionsComplete := by
  unfold Obligations.SystemInstructionsComplete
  rintro ⟨-, h⟩
  obtain ⟨c, hc, holds⟩ := (Option.any_eq_true ..).mp detourS_issues
  simp only [Bool.and_eq_true, Option.isNone_iff_eq_none, Bool.not_eq_true', decide_eq_true_eq] at holds
  obtain ⟨⟨⟨⟨lit, ready⟩, right⟩, handle⟩, core⟩ := holds
  obtain ⟨up, detour⟩ := detourS_routes
  have issues : SharedIssues detourS (.fe c) false [((60 : BitVec 6).toNat, 1)] [(60 : BitVec 6).toNat] (.dest 7) :=
    ⟨hc, .inr lit, ready, trivial⟩
  have word : (sreg c (60 : BitVec 6).toNat).extractLsb' 0 32 = (0x90 : Word) := (truncate_word _).symm.trans handle
  obtain ⟨-, kills, -⟩ := h detourS (.fe c) 7 0 60 0 0 0 0
  have route : routeUp detourS (coreDie (issCore (.fe c)))
      (coreDie (((sreg c (60 : BitVec 6).toNat).extractLsb' 0 32 : Word).extractLsb' 0 8).toNat) = true := by
    rw [word, show issCore (.fe c) = 0 from core]
    exact up
  have stated := (kills issues).2 (Bool.or_eq_true_iff.mpr (.inl right)) (Bool.or_eq_true_iff.mpr (.inl right)) fun _ => route
  obtain ⟨u, sends, services⟩ := execGkill_sends issues right (by
    rw [show opWord (.fe c) (60 : BitVec 6).toNat = 0x90 from handle, show issCore (.fe c) = 0 from core]
    exact fun _ => up)
  cases sends.symm.trans stated
  rw [issWait_flight, startWait_flight] at services
  have via := congrArg Service.via (List.singleton_inj.mp (List.append_cancel_left services))
  rw [serviceSent, show opWord (.fe c) (60 : BitVec 6).toNat = 0x90 from handle, show issCore (.fe c) = 0 from core] at via
  exact Bool.false_ne_true (via.trans (Bool.and_eq_true_iff.mpr ⟨rfl, detour⟩))

end Sys2Proof.Machine
end


section
namespace Sys2Proof.Machine

/-! # Power, clock, self-tests, millhouse and plain registers (18 R421 to R431, 16 R386) -/

section events
variable {s : State}

/-! ## The millpond and the clock (18 R421 to R423) -/

theorem checkDue_iff (s : State) : checkDue s = true ↔ s.mgmt.checked < s.mgmt.updates ∧ s.mgmt.updates % 10 = 0 := by
  rw [checkDue, Bool.and_eq_true, decide_eq_true_eq, decide_eq_true_eq]

theorem execMillpondUpdate_checkFirst (m : Nat) (h : checkDue s = true) : execMillpondUpdate m s = .next s :=
  event_not_due (by rw [h, Bool.not_true, Bool.and_false])

theorem execMillpondUpdate_due (m : Nat) (hd : pondDue s = true) (h : checkDue s = false) : execMillpondUpdate m s = .next
    { s with mgmt := { s.mgmt with
      level := pondStep s.mgmt.level (pondLimit s) (pondCap s) m, updates := s.mgmt.updates + 1 } } :=
  event_due (by rw [hd, h, Bool.not_false, Bool.and_self])

theorem execClockCheck_due (h : checkDue s = true) : execClockCheck s = .next
    (setClock { s with mgmt := { s.mgmt with checked := s.mgmt.updates } }
      (clockStep s.mgmt.level (pondCap s) (pondFmin s) s.clk.fstep)) := event_due h

theorem clockStep_below {level : Int} (h : level < 0) (cap fmin f : Nat) :
    clockStep level cap fmin f = if fmin < f then f - 1 else f := if_pos h

theorem clockStep_full {level : Int} {cap : Nat} (h : 0 ≤ level) (hc : (cap : Int) < 8 * level) (fmin f : Nat) :
    clockStep level cap fmin f = if f < 68 then f + 1 else f := by
  rw [clockStep, if_neg (Int.not_lt.mpr h), if_pos hc]

theorem clockStep_between {level : Int} {cap : Nat} (h : 0 ≤ level) (hc : 8 * level ≤ cap) (fmin f : Nat) :
    clockStep level cap fmin f = f := by
  rw [clockStep, if_neg (Int.not_lt.mpr h), if_neg (Int.not_lt.mpr hc)]

@[simp] theorem getDie_modDie (s : State) (d : Nat) (f : Die → Die) : getDie (modDie s d f) d = f (getDie s d) := by
  simp only [getDie, modDie, tgetD, tfind_tput_same, Option.getD_some]

theorem execCurrentLimit_limits (die : BitVec 2) :
    ∃ u, execCurrentLimit die s = .next u ∧ (getDie u die.toNat).limited = true :=
  ⟨_, rfl, by rw [getDie_modDie]⟩

theorem execCurrentLimitEnd_due {die : BitVec 2} (h : (getDie s die.toNat).limitEnd ≤ s.clk.gts.toNat) :
    ∃ u, execCurrentLimitEnd die s = .next u ∧ (getDie u die.toNat).limited = false :=
  ⟨_, event_due (decide_eq_true h), by rw [getDie_modDie]⟩

theorem execCurrentLimitEnd_early {die : BitVec 2} (h : s.clk.gts.toNat < (getDie s die.toNat).limitEnd) :
    execCurrentLimitEnd die s = .next s := event_not_due (decide_eq_false (Nat.not_le.mpr h))

/-! ## Corrected errors and verdicts (18 R426, R427) -/

section tests
variable {unit : BitVec 8} {die : BitVec 2} {idx : BitVec 16}

/-- A corrected error is counted, and a test of its unit is under way. -/
theorem execCorrectedError_tests : ∃ u, execCorrectedError unit die idx s = .next u ∧
    u.mgmt.tests.any (testOf unit die idx) = true ∧
    u.mgmt.corrected = if s.mgmt.corrected = 0xFFFFFFFF then s.mgmt.corrected else s.mgmt.corrected + 1 := by
  refine ⟨_, rfl, ?_, rfl⟩
  dsimp only
  split
  next under => exact under
  next => simp [testOf]

variable {t : SelfTest} (ht : s.mgmt.tests.find? (testOf unit die idx) = some t)
include ht

theorem execSelftestVerdict_applied (lasting : Bool) (hw : t.hw = true) (hp : t.posted = none) :
    execSelftestVerdict unit die idx lasting s = .next (settleTest s t lasting) := by
  simp only [execSelftestVerdict, ht, hw, if_true]
  exact event_due (by rw [hp]; rfl)

theorem execSelftestVerdict_posted (lasting : Bool) (hw : t.hw = false) (hp : ∀ x ∈ s.mgmt.tests, x.posted = none) :
    execSelftestVerdict unit die idx lasting s = .next (postVerdict s t (if lasting then 2 else 1)) := by
  have free : (s.mgmt.tests.any fun x => x.posted.isSome) = false :=
    List.any_eq_false.mpr fun x hx => by simp [hp x hx]
  simp only [execSelftestVerdict, ht, hw, Bool.false_eq_true, if_false]
  exact event_due (by rw [free, Bool.not_false])

end tests

theorem execSelftestAccept_posted {t : SelfTest} (h : (s.mgmt.tests.find? fun x => x.posted.isSome) = some t) :
    execSelftestAccept s = .next (settleTest { s with mgmt := { s.mgmt with mailVerdict := 0 } } t (t.posted = some 2)) := by
  rw [execSelftestAccept, h]

/-! ## The millhouse (18 R430, R431) -/

theorem execAttestationRequest_key (nonce : BitVec 128) (h : s.mgmt.keyIndex < 2 ^ 20) :
    execAttestationRequest nonce s = .next { s with mgmt := { s.mgmt with
      keyIndex := s.mgmt.keyIndex + 1
      sent := (reportBytes s nonce ++ Config.lmsSign s.mgmt.keyIndex (reportBytes s nonce)) :: s.mgmt.sent } } :=
  event_due (decide_eq_true h)

theorem execAttestationRequest_exhausted (nonce : BitVec 128) (h : 2 ^ 20 ≤ s.mgmt.keyIndex) :
    execAttestationRequest nonce s = .next s := event_not_due (decide_eq_false (Nat.not_lt.mpr h))

theorem execRecoveryImage_booted {image : List (BitVec 8)} (hr : s.mgmt.recovery = true) (hs : Config.imageSigned image = true) :
    execRecoveryImage image s = .next (coldState { s with mgmt := { s.mgmt with image := image } }) :=
  event_due (by rw [hr, hs, Bool.and_self])

end events

/-- Settles O60: each event of the device by the lemma of its case. -/
theorem deviceEvents : Obligations.DeviceEvents := by
  unfold Obligations.DeviceEvents
  refine ⟨fun s m hu h10 => execMillpondUpdate_checkFirst m ((checkDue_iff s).mpr ⟨hu, h10⟩), fun s m hd h => ?update,
    fun s hu h10 => ?check, fun s h => event_not_due ?notYet,
    fun s die => ⟨execCurrentLimit_limits die, execCurrentLimitEnd_due, execCurrentLimitEnd_early⟩,
    fun s unit die idx => ⟨execCorrectedError_tests, fun t ht => ⟨execSelftestVerdict_applied ht, execSelftestVerdict_posted ht⟩⟩,
    fun s t h => ⟨_, execSelftestAccept_posted h, rfl⟩, fun s nonce h => ⟨_, execAttestationRequest_key nonce h, rfl, rfl⟩,
    fun s => execAttestationRequest_exhausted, fun s => rfl, fun s image hr hs => ⟨_, execRecoveryImage_booted hr hs, rfl⟩,
    fun s v => ⟨⟨_, rfl, rfl⟩, ⟨_, rfl, rfl⟩, fun off => rfl, ⟨_, rfl, rfl, rfl⟩⟩⟩
  case update =>
    have checked : checkDue s = false := by
      rw [← Bool.not_eq_true, checkDue_iff]
      omega
    exact ⟨_, execMillpondUpdate_due m (decide_eq_true hd) checked, rfl, rfl, rfl⟩
  case check =>
    exact ⟨_, execClockCheck_due ((checkDue_iff s).mpr ⟨hu, h10⟩), fun h => clockStep_below h .., fun h hc => clockStep_full h hc ..,
      fun h hc => clockStep_between h hc .., rfl, rfl⟩
  case notYet =>
    rw [← Bool.not_eq_true, checkDue_iff]
    exact fun ⟨_, h10⟩ => h h10

end Sys2Proof.Machine
end


section
namespace Sys2Proof.Machine

/-! # Debug commands, stops that arrive and trace samples (17 R407, R411 to R417) -/

/-! ## The command register (17 R407) -/

/-- The state in which a command has been written to the register. -/
def commanded (s : State) (word arg : DWord) : State := { s with dbg := { s.dbg with word0 := word, word1 := arg } }

@[simp] theorem getBlk_commanded (s : State) (word arg : DWord) (core : Nat) : getBlk (commanded s word arg) core = getBlk s core := rfl

@[simp] theorem coreCluster_commanded (s : State) (word arg : DWord) (core : Nat) :
    coreCluster (commanded s word arg) core = coreCluster s core := rfl

@[simp] theorem clusterStopped_commanded (s : State) (word arg : DWord) (core : Nat) :
    clusterStopped (commanded s word arg) core = clusterStopped s core := rfl

section command
variable {s : State} {word : DWord} {arg : Option DWord} {f : State → Option State}

/-- A command written while another runs is ignored. -/
theorem dbgCommand_busy (h : s.dbg.status = 1) : dbgCommand s word arg f = .next s :=
  event_not_due (decide_eq_false fun e => e h)

theorem dbgCommand_carriedOut {t : State} (h : s.dbg.status ≠ 1)
    (hf : f (commanded s word (arg.getD s.dbg.word1)) = some t) : dbgCommand s word arg f = .next t :=
  (event_due (decide_eq_true h)).trans (congrArg _ (congrArg (Option.getD · _) hf))

theorem dbgCommand_rejected (h : s.dbg.status ≠ 1) (hf : f (commanded s word (arg.getD s.dbg.word1)) = none) :
    dbgCommand s word arg f = .next (dbgStatus (commanded s word (arg.getD s.dbg.word1)) 3) :=
  (event_due (decide_eq_true h)).trans (congrArg _ (congrArg (Option.getD · _) hf))

end command

section commands
variable {s : State} {core : BitVec 8} (free : s.dbg.status ≠ 1)
include free

/-! ## A core without a block -/

section empty
variable (hb : getBlk s core.toNat = none)
include hb

theorem execDbgStop_empty : execDbgStop core s = .next (dbgStatus (commanded s (dbgWord 1 core 0 false false) s.dbg.word1) 3) :=
  dbgCommand_rejected free (by simp [hb])

theorem execDbgRelease_empty : execDbgRelease core s = .next (dbgStatus (commanded s (dbgWord 2 core 0 false false) s.dbg.word1) 3) :=
  dbgCommand_rejected free (by simp [hb])

theorem execDbgStep_empty (sel : BitVec 6) (fe : Bool) :
    execDbgStep core sel fe s = .next (dbgStatus (commanded s (dbgWord 3 core sel fe false) s.dbg.word1) 3) := by
  unfold execDbgStep
  exact dbgCommand_rejected free (by simp [hb])

theorem execDbgDump_empty (dest : Bool) (arg : BitVec 64) :
    execDbgDump core dest arg s = .next (dbgStatus (commanded s (dbgWord 4 core 0 false dest) arg) 3) :=
  dbgCommand_rejected free (by simp [hb])

theorem execDbgWrite_empty (sel : BitVec 6) (arg : BitVec 64) :
    execDbgWrite core sel arg s = .next (dbgStatus (commanded s (dbgWord 5 core sel false false) arg) 3) :=
  dbgCommand_rejected free (by simp [hb])

end empty

/-! ## STOP, RELEASE, STEP and WRITE of a block -/

variable {b : Block} (hb : getBlk s core.toNat = some b)
include hb

theorem execDbgStop_block : execDbgStop core s =
    .next (dbgStatus (startStop (commanded s (dbgWord 1 core 0 false false) s.dbg.word1) core.toNat 0 0 0) 2) :=
  dbgCommand_carriedOut free (by simp [hb])

theorem execDbgRelease_stopped {cl : Cluster} (hc : coreCluster s core.toNat = some cl) (hs : cl.stopped = true) :
    execDbgRelease core s =
      .next (dbgStatus (releaseStop (commanded s (dbgWord 2 core 0 false false) s.dbg.word1) b.cluster cl) 2) :=
  dbgCommand_carriedOut free (by simp [hb, hc, hs])

theorem execDbgRelease_running (h : ∀ cl, coreCluster s core.toNat = some cl → cl.stopped = false) :
    execDbgRelease core s = .next (dbgStatus (commanded s (dbgWord 2 core 0 false false) s.dbg.word1) 3) := by
  refine dbgCommand_rejected free ?_
  simp only [getBlk_commanded, coreCluster_commanded, hb]
  cases hc : coreCluster s core.toNat with
  | none => rfl
  | some cl => simp [h cl hc]

/-- The thread that a STEP names. -/
def stepThread (sel : BitVec 6) (fe : Bool) : Who := if fe then .fe else .grp sel.toNat

theorem execDbgStep_rejected (sel : BitVec 6) (fe : Bool) (h : clusterStopped s core.toNat = false ∨
    keptRun b (stepThread sel fe) = .exited ∨ keptRun b (stepThread sel fe) = .killed) :
    execDbgStep core sel fe s = .next (dbgStatus (commanded s (dbgWord 3 core sel fe false) s.dbg.word1) 3) := by
  unfold execDbgStep
  refine dbgCommand_rejected free ?_
  simp only [getBlk_commanded, clusterStopped_commanded, hb]
  exact if_pos (by simpa [or_assoc, stepThread] using h)

theorem execDbgStep_begins (sel : BitVec 6) (fe : Bool) (hs : clusterStopped s core.toNat = true)
    (he : keptRun b (stepThread sel fe) ≠ .exited) (hk : keptRun b (stepThread sel fe) ≠ .killed) : execDbgStep core sel fe s =
      .next (dbgStatus (beginStep (commanded s (dbgWord 3 core sel fe false) s.dbg.word1) core.toNat (stepThread sel fe)) 1) := by
  unfold execDbgStep
  refine dbgCommand_carriedOut free ?_
  simp only [getBlk_commanded, clusterStopped_commanded, hb]
  exact if_neg (by simpa [hs, stepThread] using ⟨he, hk⟩)

omit hb in
theorem execDbgWrite_beyond (sel : BitVec 6) (arg : BitVec 64) (h : 8 < sel.toNat) :
    execDbgWrite core sel arg s = .next (dbgStatus (commanded s (dbgWord 5 core sel false false) arg) 3) :=
  dbgCommand_rejected free (by simp [h])

theorem execDbgWrite_register (sel : BitVec 6) (arg : BitVec 64) (h : sel.toNat ≤ 8) : execDbgWrite core sel arg s =
    .next (dbgStatus (modBlk (commanded s (dbgWord 5 core sel false false) arg) core.toNat fun b => writeDebug b sel.toNat arg) 2) :=
  dbgCommand_carriedOut free (by simp [hb, Nat.not_lt.mpr h])

/-! ## DUMP -/

theorem execDbgDump_running (dest : Bool) (arg : BitVec 64) (h : b.stopping = false ∨ allStopped b = false) :
    execDbgDump core dest arg s = .next (dbgStatus (commanded s (dbgWord 4 core 0 false dest) arg) 3) :=
  dbgCommand_rejected free (by simpa [hb, or_iff_not_imp_left] using h)

omit free in
/-- A DUMP that waits is written where every result has landed. -/
theorem dumpSettle_landed {arg : DWord} {dest : Bool} (hd : s.dbg.dump = some (core.toNat, dest, arg))
    (hr : resultsLanded s core.toNat = true) : dumpSettle s = writeDump s core.toNat b dest arg := by
  simp only [dumpSettle, hd, hb, hr, if_true]

/-- The state in which a DUMP is under way. -/
def dumping (s : State) (core : BitVec 8) (dest : Bool) (arg : DWord) : State :=
  { s with dbg := { s.dbg with word0 := dbgWord 4 core 0 false dest, word1 := arg, status := 1, dump := some (core.toNat, dest, arg) } }

theorem execDbgDump_stopped (dest : Bool) (arg : BitVec 64) (hs : b.stopping = true) (ha : allStopped b = true)
    (hr : resultsLanded s core.toNat = true) :
    execDbgDump core dest arg s = .next (writeDump (dumping s core dest arg) core.toNat b dest arg) := by
  have stopped : ((getBlk s core.toNat).any fun b => b.stopping && allStopped b) = true := by simp [hb, hs, ha]
  refine dbgCommand_carriedOut free ((if_pos stopped).trans (congrArg some ?_))
  exact dumpSettle_landed (s := dumping s core dest arg) hb rfl hr

end commands

/-! ## Where a frame goes -/

section frame
variable {s t : State}

/-- A frame depends on its core and on the free values taken so far. -/
theorem frameBytes_congr {core : Nat} (hc : getCore t core = getCore s core) (hf : t.free = s.free) (b : Block) :
    frameBytes t core b = frameBytes s core b := by
  rw [frameBytes, hc, hf, frameBytes]

/-- What a write to host memory leaves there depends only on what was there. -/
theorem putPhys_host_mem (h : t.mem = s.mem) (a : Nat) (bs : List Byte) :
    (putPhys t hostPlace a bs).mem = (putPhys s hostPlace a bs).mem := by
  have byte (u : State) (a : Nat) (b : Byte) : (homePutByte u hostPlace a b).mem = tputD 0 (locNum hostPlace a) b u.mem := rfl
  induction bs generalizing s t a with
  | nil => exact h
  | cons b r ih => exact ih (by rw [byte, byte, h]) _

theorem physPut_host_mem (h : t.mem = s.mem) (a : Nat) (bs : List Byte) :
    (physPut t hostPlace a bs).mem = (physPut s hostPlace a bs).mem := by
  have word (u : State) (x : Nat) : (clearWord u hostPlace x).mem = u.mem := rfl
  have cleared (l : List Nat) (u : State) :
      (foldSt (fun s i => clearWord s hostPlace ((a + 3) / 4 * 4 + 4 * i)) u l).mem = u.mem :=
    foldSt_frame State.mem (fun _ _ => word _ _) l u
  exact putPhys_host_mem ((cleared _ _).trans (h.trans (cleared _ _).symm)) a bs

/-- With the host link not UP a DUMP cannot reach host memory. -/
theorem writeDump_cut {core : Nat} {b : Block} {arg : DWord} (h : linkUp s 16 = false) :
    writeDump s core b false arg = { s with dbg := { s.dbg with status := 3, dump := none } } := by
  simp only [writeDump, Bool.false_eq_true, if_false, h]

/-- The state in which a frame has been written and its command is complete. -/
def dumped (s : State) : State :=
  { s with dbg := { s.dbg with status := 2, result := BitVec.ofNat 64 frameSize, dump := none } }

theorem dumped_mem (s : State) : (dumped s).mem = s.mem := rfl

theorem writeDump_host {core : Nat} {b : Block} {arg : DWord} (h : linkUp s 16 = true) : writeDump s core b false arg =
    dumped (physPut (frameTaken s) hostPlace (alignDown arg.toNat 65536) (frameBytes s core b)) := by
  rw [writeDump]
  dsimp only
  rw [if_neg Bool.false_ne_true, if_pos h, dumped]

theorem writeDump_millhouse {core : Nat} {b : Block} {arg : DWord} : writeDump s core b true arg =
    dumped { frameTaken s with mgmt := { s.mgmt with sent := frameBytes s core b :: s.mgmt.sent } } := by
  rw [writeDump]
  dsimp only
  rw [if_pos rfl, dumped]

end frame

/-! ## Steps, stops and samples (17 R411, R414, R416, R417) -/

section steps
variable {s : State}

theorem execStepTimeout_expired {b : Block} {st : Stepping} (hb : getBlk s (bitsOf s.dbg.word0.toNat 15 8) = some b)
    (hs : b.stepping = some st) (h1 : s.dbg.status = 1) (he : st.expires ≤ s.clk.cycle) :
    ∃ u, execStepTimeout s = .next u ∧ u.dbg.status = 3 := by
  have stepping : (getBlk s (bitsOf s.dbg.word0.toNat 15 8)).bind Block.stepping = some st := by rw [hb, Option.bind_some, hs]
  simp only [execStepTimeout, stepping]
  exact ⟨_, event_due (by simp [h1, he]), rfl⟩

theorem execStopArrive_due {m : StopMsg} (hm : (s.flight.stops.find? fun x => x.id = m.id) = some m)
    (hc : crossBefore s m.src m.core m.id = false) (hh : seamHeld s (coreDie m.src) (coreDie m.core) = false) :
    execStopArrive m.id s =
      .next (receiveStop (modFlight s fun f => { f with stops := f.stops.filter fun x => x.id ≠ m.id }) m.core m.cause) := by
  simp only [execStopArrive, hm]
  exact event_due (by rw [hc, hh]; rfl)

section block
variable {core : Nat} {b : Block} (hb : getBlk s core = some b)
include hb

theorem execTraceSample_due (hg : b.groups ≠ []) (he : b.trigNow.getLsbD 63 = true) (hr : b.trigNow.getLsbD 0 = true)
    (hp : b.sampledAt + 2 ^ (bitsOf b.trigNow.toNat 55 52 + 6) ≤ s.clk.cycle) :
    execTraceSample core s = .next (modBlk s core fun b => { b with sampleDue := true }) := by
  simp only [execTraceSample, hb]
  exact event_due (by simp [he, hr, hg, hp])

/-- A cycle without a hit or a due sample ends with REC and the registers of the block only. -/
theorem getBlk_debugCycle_quiet (hh : b.hits = []) (hs : b.sampleDue = false) :
    getBlk (debugCycle s core) core = some (debugGoes s.clk.cycle b) := by
  have unsampled : samples b = false := by rw [samples, hs, Bool.false_and]
  have unhit : recordHits s core = s := by
    simp only [recordHits, hb, hh]
    rfl
  simp only [debugCycle, hb, unsampled, Bool.false_eq_true, if_false, unhit]
  rw [getBlk_modBlk, hb]
  rfl

end block

end steps

theorem getLsbD_zero_putBit {w : Nat} (m : BitVec (w + 1)) (v : Bool) : (putBit m 0 v).getLsbD 0 = v := by
  cases v <;> simp [putBit]

/-- REC at the end of a cycle (17 R416, R417). -/
theorem debugGoes_rec (cyc : Nat) (b : Block) : (debugGoes cyc b).trig.getLsbD 0 =
    (b.trig.getLsbD 63 && b.trigNow.getLsbD 63 && !trigStops b.trigNow b.causes &&
      (b.trigNow.getLsbD 0 || trigStarts b.trigNow b.causes)) := by
  rw [debugGoes, getLsbD_zero_putBit, trigGoes, Bool.and_comm]
  simp only [Bool.and_assoc]

/-! ## The obligation -/

/-- Settles O58: each command by its state, then the events of the debug unit, by the lemmas above. -/
theorem debugCommands : Obligations.DebugCommands := by
  unfold Obligations.DebugCommands
  intro s core word old
  refine ⟨fun busy sel fe dest arg => ?_, fun free hb sel fe dest arg => ?empty, fun b free hb => ?block,
    fun b st hb hs => execStepTimeout_expired hb hs, fun m => execStopArrive_due, fun b hb => ?sampling⟩
  · have stop : execDbgStop core s = .next s := dbgCommand_busy busy
    have release : execDbgRelease core s = .next s := dbgCommand_busy busy
    have step : execDbgStep core sel fe s = .next s := by
      unfold execDbgStep
      exact dbgCommand_busy busy
    have dump : execDbgDump core dest arg s = .next s := dbgCommand_busy busy
    have write : execDbgWrite core sel arg s = .next s := dbgCommand_busy busy
    exact ⟨stop, release, step, dump, write⟩
  case empty =>
    exact ⟨execDbgStop_empty free hb, execDbgRelease_empty free hb, execDbgStep_empty free hb sel fe,
      execDbgDump_empty free hb dest arg, execDbgWrite_empty free hb sel arg⟩
  case block =>
    refine ⟨execDbgStop_block free hb, fun cl => execDbgRelease_stopped free hb, execDbgRelease_running free hb,
      execDbgStep_rejected free hb, execDbgStep_begins free hb, execDbgDump_running free hb, fun dest arg hs ha hr hd => ?written,
      fun arg hs ha hr hl => ?cut, execDbgWrite_beyond free, execDbgWrite_register free hb⟩
    case written =>
      have run := execDbgDump_stopped free hb dest arg hs ha hr
      have frame : frameBytes (dumping s core dest arg) core.toNat b = frameBytes s core.toNat b := frameBytes_congr rfl rfl b
      cases dest with
      | true =>
        rw [writeDump_millhouse, frame] at run
        exact ⟨_, run, rfl, rfl, rfl, nofun, fun _ => ⟨rfl, rfl⟩⟩
      | false =>
        have up : linkUp (dumping s core false arg) 16 = true := hd.resolve_left Bool.false_ne_true
        rw [writeDump_host up, frame] at run
        refine ⟨_, run, rfl, rfl, rfl, fun _ => ?_, nofun⟩
        rw [dumped_mem]
        exact physPut_host_mem (s := s) (t := frameTaken (dumping s core false arg)) rfl ..
    case cut =>
      exact ⟨_, (execDbgDump_stopped free hb false arg hs ha hr).trans (congrArg _ (writeDump_cut hl)), rfl, rfl, rfl⟩
  case sampling =>
    refine ⟨execTraceSample_due hb, fun g r hn => ?_,
      fun hh hs => ⟨_, getBlk_debugCycle_quiet hb hh hs, rfl, rfl, debugGoes_rec ..⟩⟩
    simp only [takeSample, hn]

end Sys2Proof.Machine
end
